-- ==== Sys2Proof/Word.lean ====
section
/-! DEFINITION. The word types of the 4T16 and the type of sparse tables. The functions over them stand in
Machine/Sparse.lean and Machine/Flags.lean. -/

namespace Sys2Proof

/-- One byte of host memory, of the medium or of the line store. -/
abbrev Byte := BitVec 8

/-- A 64-bit host bus address (0.6, Records). -/
abbrev Addr := BitVec 64

/-- A dirty epoch, a barrier epoch or an epoch counter: 32 bits, compared modulo 2^32 (0.6, Epochs). -/
abbrev Epoch := BitVec 32

/-- A sparse table: pairs of a number and a value, the numbers strictly rising, no value equal to the table's
default. A number that is not listed has the default value. -/
abbrev SMap (α : Type) := List (Nat × α)

end Sys2Proof
end

