-- ==== Sys2Proof/Config.lean ====
section
/-! DEFINITION. What the spec fixes as numbers (0.4, Principal capacities and ranges) and the one value it leaves
to the outside: the level a unit presents on its protect line. -/

namespace Sys2Proof.Config

/-- R1: the directory has 1024 sets. -/
def sets : Nat := 1024
/-- R1: each set has four ways. -/
def ways : Nat := 4
/-- R12: the line store has 4224 slots. -/
def slots : Nat := 4224
/-- R12: each slot holds 1024 bytes, one sector. -/
def slotBytes : Nat := 1024
/-- R138: the request table has 256 entries. -/
def tableEntries : Nat := 256
/-- R98: four unit ports. -/
def units : Nat := 4
/-- R156: sixteen channels. -/
def channels : Nat := 16
/-- R36: 32 recall episode records. -/
def episodes : Nat := 32
/-- R166: a data channel's backlog never holds more than 48 entries. -/
def dataBacklog : Nat := 48
/-- R166: channel 0's backlog never holds more than 32 entries. -/
def adminBacklog : Nat := 32
/-- R167: the lost-notice count rises to 65535 and stays there. -/
def lostLimit : Nat := 65535
/-- R44: the revoke count rises to 255 and stays there. -/
def revokeCeiling : Nat := 255
/-- R111: the unit response limit, in milliseconds. -/
def responseLimit : Nat := 1000
/-- R133: a survey keeps at most 64 entries. -/
def surveyEntries : Nat := 64
/-- R110, R121: verification and search end at the third index pass. -/
def indexLimit : Nat := 3
/-- R158: channel 0's in-flight limit. -/
def adminInFlight : Nat := 8
/-- The end of the 64-bit host space (R144). -/
def hostSpace : Nat := 2 ^ 64
/-- DESIGN CHOICE (log 3): how many pieces of work one step may set in motion. The bound lies far above what 256 requests
and 4096 lines can set in motion. -/
def settleFuel : Nat := 2 ^ 20

/-- FREE VALUE (log 2): the level of unit `unit`'s protect line at the part's `sample`-th sample of a protect line.
The line is an input that no row of the table changes (R125, R187). -/
opaque protectLine : (unit : Nat) → (sample : Nat) → Bool

end Sys2Proof.Config
end

