-- ==== Sys2Proof/Syntax.lean ====
section
/-! DEFINITION. The commands of the block: one constructor for each row of spec/opcode_table.json, in the table's order.
A command stands for one whole step of the part (95_what_each_step_holds.md). Its operands are what the outside hands to the part in
that step: a register value, the bytes of a record read from host memory, a request-table entry whose transfer ended,
a unit port and what its event carries. -/

namespace Sys2Proof

/-- The data mark of a sector (R1, R117). -/
inductive Mark where
  | data | retired
  deriving DecidableEq, Repr

/-- The commands. The record kinds (READ to QUERY_LINE) are the end, without error, of the fetch in flight, with a record of
that kind whose undefined bytes are zero (log 5). -/
inductive Instr where
  /-- A write of 1 to PART_CONTROL (R192, R193, R194). -/
  | run
  /-- A write of 2 to PART_CONTROL (R192, R194). -/
  | quiesce
  /-- A write of 3 to PART_CONTROL (R196). -/
  | reset
  /-- A write to PART_CONTROL whose value names no command (R192). -/
  | invalidCommand (value : BitVec 32)
  /-- Power-on reset (R196). -/
  | powerOnReset
  /-- A write to the more (`high`) or less significant half of BOOT_ADDRESS (R190). -/
  | bootAddressWrite (high : Bool) (value : BitVec 32)
  /-- A write to SQ_TAIL: channel in bits 0 to 3, index in bits 16 to 27 (R159, R200). -/
  | sqTail (value : BitVec 32)
  /-- A write to CQ_HEAD: channel in bits 0 to 3, index in bits 16 to 27 (R160, R200). -/
  | cqHead (value : BitVec 32)
  /-- A write of `bytes` bytes at `offset` of the window that the part does not take (R190). -/
  | registerWriteIgnored (offset : BitVec 12) (bytes : Nat) (value : BitVec 32)
  /-- The boot record read ends: an error (`none`), or the 64 bytes returned (R193). -/
  | bootReadEnd (result : Option (List Byte))
  /-- The fetch arbiter grants a fetch (R162). -/
  | fetchGrant
  /-- The submission record read in flight ends: an error (`none`), or the 64 bytes returned (R163). -/
  | fetchEnd (result : Option (List Byte))
  | read (tag : BitVec 16) (hold : Bool) (unit surface : Byte) (track : BitVec 16) (sector : Byte) (buffer : Addr)
  | write (tag : BitVec 16) (hold : Bool) (unit surface : Byte) (track : BitVec 16) (sector : Byte) (buffer : Addr)
  /-- `episode`: the episode number where the episode-valid flag is set (R33, R34). -/
  | release (tag : BitVec 16) (episode : Option Byte) (unit surface : Byte) (track : BitVec 16) (sector : Byte)
  | flush (tag : BitVec 16) (unit : Byte)
  | survey (tag : BitVec 16) (unit surface : Byte) (track : BitVec 16) (buffer : Addr)
  | barrier (tag : BitVec 16)
  | abandon (tag : BitVec 16) (target : BitVec 16)
  | channelOpen (tag : BitVec 16) (interrupt : Bool) (channel : Byte) (sqBase cqBase : Addr) (sqSize cqSize : BitVec 16)
      (inFlightLimit holdQuota revokeLimit : Byte)
  | channelClose (tag : BitVec 16) (channel : Byte)
  | unitAttach (tag : BitVec 16) (unit : Byte) (tracks : BitVec 16) (surfaces sectors retries : Byte)
  | unitDetach (tag : BitVec 16) (unit : Byte)
  | unitDiscard (tag : BitVec 16) (unit : Byte)
  | setParameters (tag : BitVec 16) (recallTimeout setWaitTimeout highMark lowMark : BitVec 16)
  | queryChannel (tag : BitVec 16) (channel : Byte) (buffer : Addr)
  | queryUnit (tag : BitVec 16) (unit : Byte) (buffer : Addr)
  | queryLine (tag : BitVec 16) (unit surface : Byte) (track : BitVec 16) (sector : Byte) (buffer : Addr)
  /-- The snapshot write of the query in `entry` ends: without error, or with one after `n` bytes (R185). -/
  | snapshotWriteEnd (entry : Nat) (error : Option Nat)
  /-- QI starts the next record write of a channel (R164). -/
  | recordWriteStart (channel : Nat)
  /-- The record write in flight of a channel ends (R165). -/
  | recordWriteEnd (channel : Nat) (error : Bool)
  | readTransferComplete (entry : Nat)
  /-- The read transfer of `entry` ends with an error after `written` bytes were written (R61). -/
  | readTransferError (entry : Nat) (written : Nat)
  /-- The host transfer of the WRITE in `entry` completes: `data` is what host memory returned (R64, R65). -/
  | writeTransferComplete (entry : Nat) (data : List Byte)
  /-- The host transfer of the WRITE in `entry` ends with an error after `placed` was placed in the staging slot (R66). -/
  | writeTransferError (entry : Nat) (placed : List Byte)
  /-- The entry writes of the SURVEY in `entry` end: without error, or with one after `n` bytes (R136). -/
  | surveyEntryWriteEnd (entry : Nat) (error : Option Nat)
  | setWaitDeadlineExpiry (entry : Nat)
  | recallDeadlineExpiry (episode : Nat)
  | unitResponseLimitExpiry (unit : Nat)
  | arrived (unit : Nat)
  | homeFound (unit : Nat)
  | positionFault (unit : Nat)
  /-- An index pass. `delivered` is the data bytes the unit delivered since its last event, in this and the next three
  commands (R117, R123; log 6). -/
  | index (unit : Nat) (delivered : List Byte)
  /-- A header as read: the five header bytes and the two check bytes (R117). -/
  | header (unit : Nat) (track : BitVec 16) (surface sector size : Byte) (check : BitVec 16) (delivered : List Byte)
  | dataMark (unit : Nat) (mark : Mark) (delivered : List Byte)
  /-- The end of a data field with its two check bytes as read (R117). -/
  | dataEnd (unit : Nat) (check : BitVec 16) (delivered : List Byte)
  | writeDone (unit : Nat)
  | writeFault (unit : Nat)
  | readyRise (unit : Nat)
  | readyFall (unit : Nat)
  | channelDrain (channel : Nat)
  | detachAwaitedReadsEnd (unit : Nat)
  | discardThirdStage (unit : Nat)
  | quiescedEntry
  deriving DecidableEq, Repr

end Sys2Proof
end

