-- ==== Sys2Proof/WellFormed.lean ====
section
/-! DEFINITION. Which commands the outside can send: numbers within the part's ranges, records and transfers of the lengths the
spec gives, and register writes under the command they are. -/

namespace Sys2Proof

/-- R190: whether an aligned 32-bit write at `offset` is taken by the part: PART_CONTROL, the two words of
BOOT_ADDRESS, SQ_TAIL and CQ_HEAD are the words a write can change. -/
def takesWrite (offset : BitVec 12) (bytes : Nat) : Bool :=
  bytes == 4 && [0x004, 0x010, 0x014, 0x018, 0x01C].contains offset

namespace WellFormed

/-- A channel number (R156). -/
def channel (c : Nat) : Bool := c < 16
/-- A unit number (R98). -/
def unit (u : Nat) : Bool := u < 4
/-- A request-table entry number (R138). -/
def entry (e : Nat) : Bool := e < 256
/-- An episode number (R36). -/
def episode (n : Nat) : Bool := n < 32
/-- A write that ended with an error after `n` bytes fell short of its `total` (R61, R66, R136, R185). -/
def cutShort (total : Nat) : Option Nat → Bool
  | none => true
  | some n => n < total

end WellFormed

/-- The check of a command's operands. (log 23) -/
def Instr.wellFormed : Instr → Bool
  | .run | .quiesce | .reset | .powerOnReset | .fetchGrant | .quiescedEntry => true
  | .invalidCommand v => !([1, 2, 3] : List (BitVec 32)).contains v
  | .bootAddressWrite _ _ | .sqTail _ | .cqHead _ => true
  | .registerWriteIgnored o n _ => !takesWrite o n
  | .bootReadEnd r | .fetchEnd r => r.all (fun bs => bs.length == 64)
  | .read _ _ _ _ _ _ _ | .write _ _ _ _ _ _ _ | .release _ _ _ _ _ _ | .flush _ _ | .survey _ _ _ _ _ => true
  | .barrier _ | .abandon _ _ | .channelOpen _ _ _ _ _ _ _ _ _ _ | .channelClose _ _ => true
  | .unitAttach _ _ _ _ _ _ | .unitDetach _ _ | .unitDiscard _ _ | .setParameters _ _ _ _ _ => true
  | .queryChannel _ _ _ | .queryUnit _ _ _ | .queryLine _ _ _ _ _ _ => true
  | .snapshotWriteEnd e err => WellFormed.entry e && WellFormed.cutShort 64 err
  | .recordWriteStart c | .recordWriteEnd c _ | .channelDrain c => WellFormed.channel c
  | .readTransferComplete e | .setWaitDeadlineExpiry e => WellFormed.entry e
  | .readTransferError e n => WellFormed.entry e && WellFormed.cutShort 1024 (some n)
  | .writeTransferComplete e data => WellFormed.entry e && data.length == 1024
  | .writeTransferError e placed => WellFormed.entry e && WellFormed.cutShort 1024 (some placed.length)
  | .surveyEntryWriteEnd e err => WellFormed.entry e && WellFormed.cutShort 512 err
  | .recallDeadlineExpiry n => WellFormed.episode n
  | .unitResponseLimitExpiry u | .arrived u | .homeFound u | .positionFault u => WellFormed.unit u
  | .index u _ | .header u _ _ _ _ _ _ | .dataMark u _ _ | .dataEnd u _ _ => WellFormed.unit u
  | .writeDone u | .writeFault u | .readyRise u | .readyFall u => WellFormed.unit u
  | .detachAwaitedReadsEnd u | .discardThirdStage u => WellFormed.unit u

end Sys2Proof
end

