-- ==== Sys2Proof/Machine/State.lean ====
section
/-! DEFINITION. Everything the part holds (plain data), the reasons a step can stop, and the state after reset. Fields marked
MODEL'S OWN are not the spec's: they are the model's account of time, of what left the part, and of its queue. -/

namespace Sys2Proof.Machine

/-- No command of this part faults: the spec gives each command an effect in every state (NOTES.md, Stops). -/
inductive Fault where
  deriving DecidableEq, Repr

/-- The one refusal is the dispatch's: a command that has no meaning yet (safe). No arm answers it now. -/
inductive Refusal where
  /-- Raised by an arm of exec for a command the model gives no meaning; safe, the machine stops. -/
  | notModelled (mnemonic : String)
  deriving DecidableEq, Repr

/-! ### Named values (R199) -/

/-- Record kinds (R142). -/
inductive Kind where
  | read | write | release | flush | survey | barrier | abandon
  | channelOpen | channelClose | unitAttach | unitDetach | unitDiscard | setParameters
  | queryChannel | queryUnit | queryLine
  deriving DecidableEq, Repr

/-- Completion statuses (7.8). -/
inductive Status where
  | success | badKind | badRecord | badAddress | unitDetached | unitNotReady | sectorNotFound | headerCheck | dataCheck
  | seekError | writeFault | writeProtected | hostTransferError | noLine | abandoned | tooLate | notFound | notHeld
  | fenced | channelClosing | incomplete | discarded | quiescing | channelState | unitBusy | unitState
  deriving DecidableEq, Repr

/-- Fence causes (R169). -/
inductive FenceCause where
  | none | revokeLimit | noticeOverrun | submitFetchError | completionPostError | badTail | badHead
  deriving DecidableEq, Repr

/-- Failure causes (R191). -/
inductive FailureCause where
  | none | bootInvalid | bootFetchError | adminFetchError | adminPostError | adminBadTail | adminBadHead
  deriving DecidableEq, Repr

/-- Last refused command (R191). -/
inductive Refused where
  | none | run | quiesce | invalid
  deriving DecidableEq, Repr

/-- Part states (R191). -/
inductive PartState where
  | halted | starting | running | quiescing | quiesced | failed
  deriving DecidableEq, Repr

/-- Line states (R4). -/
inductive LineState where
  | free | filling | loading | clean | dirty | flushing | reflush | stranded
  deriving DecidableEq, Repr

/-- Channel states (R157). -/
inductive ChannelState where
  | closed | open | closing | fencing | fenced
  deriving DecidableEq, Repr

/-- Unit states (R99). -/
inductive UnitState where
  | detached | notReady | ready
  deriving DecidableEq, Repr

/-- Sequencer states (R98). -/
inductive SeqState where
  | idle | homing | positioning | verifying | searching | transferring | surveying
  deriving DecidableEq, Repr

/-- Sweep direction (R98). -/
inductive Sweep where
  | up | down
  deriving DecidableEq, Repr

/-! ### Records -/

/-- The name of a line: one sector of one unit (R2). -/
structure Key where
  unit : Nat
  surface : Nat
  track : Nat
  sector : Nat
  deriving DecidableEq, Repr

/-- A submission record as read, by the offsets of 11.1 (R197). The fields of one offset share one name. -/
structure Record where
  /-- byte 0 -/
  kind : Byte := 0
  /-- byte 1: bit 0 hold, bit 1 episode-valid, bit 2 interrupt enable -/
  flags : Byte := 0
  /-- bytes 2, 3 -/
  tag : BitVec 16 := 0
  /-- byte 4: the unit or the channel -/
  subject : Byte := 0
  /-- byte 5 -/
  surface : Byte := 0
  /-- bytes 6, 7 -/
  track : BitVec 16 := 0
  /-- byte 8 -/
  sector : Byte := 0
  /-- byte 9 -/
  episode : Byte := 0
  /-- bytes 10, 11 -/
  target : BitVec 16 := 0
  /-- bytes 12 to 15, defined for no kind -/
  gap : List Byte := [0, 0, 0, 0]
  /-- bytes 16 to 23: the host buffer or the SQ base -/
  buffer : Addr := 0
  /-- bytes 24 to 31: the CQ base -/
  cqBase : Addr := 0
  /-- bytes 32, 33 -/
  p32 : BitVec 16 := 0
  /-- byte 34 -/
  p34 : Byte := 0
  /-- byte 35 -/
  p35 : Byte := 0
  /-- byte 36 -/
  p36 : Byte := 0
  /-- byte 37 -/
  p37 : Byte := 0
  /-- byte 38 -/
  p38 : Byte := 0
  /-- byte 39 -/
  p39 : Byte := 0
  /-- bytes 40 to 63, defined for no kind -/
  rest : List Byte := List.replicate 24 0
  deriving DecidableEq, Repr

/-- The lists a request may be PARKED on (R140). -/
inductive WaitList where
  | setWait | slotWait | lineWait | episode (n : Nat) | episodeWait | surveyQueue | barrierList | fetchHold
  deriving DecidableEq, Repr

/-- Where a request stands (R52, R140). -/
inductive Place where
  | routed | parked (list : WaitList) | active | done
  deriving DecidableEq, Repr

/-- The flags of a completion record (R153). -/
structure Flags where
  hit : Bool := false
  granted : Bool := false
  refused : Bool := false
  retired : Bool := false
  overflow : Bool := false
  deriving DecidableEq, Repr

/-- What a completion record says beside the request's tag, kind and arrival number (R152). -/
structure Completion where
  status : Status
  flags : Flags := {}
  count : Nat := 0
  epoch : Epoch := 0
  deriving DecidableEq, Repr

/-- One header as a survey records it (R133). -/
structure SurveyEntry where
  track : BitVec 16
  surface : Byte
  sector : Byte
  size : Byte
  check : BitVec 16
  good : Bool
  foreign : Bool
  deriving DecidableEq, Repr

/-- A survey's outcome, held by RT until the SURVEY completes (R135). -/
structure SurveyResult where
  entries : List SurveyEntry
  overflow : Bool
  deriving DecidableEq, Repr

/-- A held entry of the request table (R138) with the progress fields of R52. -/
structure Request where
  channel : Nat
  record : Record
  /-- the arrival number within the channel (R139) -/
  arrival : Nat
  place : Place
  /-- the line the request has arrived at (R52), as 4 × set + way -/
  line : Option Nat := none
  /-- the miss indicator (R52) -/
  miss : Bool := false
  /-- the set-wait deadline (R18), a moment in milliseconds -/
  deadline : Option Nat := none
  /-- MODEL'S OWN (log 7): when the request first joined a set wait list, as a number of the part's first joins. R18 orders a
  rejoining request by it. -/
  joined : Option Nat := none
  /-- the delivered slot of a READ -/
  delivered : Option Nat := none
  /-- the captured mark of a READ -/
  captured : Option Mark := none
  /-- the staging slot of a WRITE -/
  staging : Option Nat := none
  completion : Option Completion := none
  /-- the snapshot of a query while its write is in flight (R185) -/
  snapshot : Option (List Byte) := none
  /-- the outcome of a SURVEY whose media work has ended (R135) -/
  survey : Option SurveyResult := none
  deriving DecidableEq, Repr

/-- A line record (R1). The default is a FREE line. -/
structure Line where
  state : LineState := .free
  key : Option Key := none
  currentSlot : Option Nat := none
  flushSource : Option Nat := none
  mark : Mark := .data
  dirtyEpoch : Option Epoch := none
  sourceEpoch : Option Epoch := none
  failures : Nat := 0
  /-- the holder set, ascending -/
  holders : List Nat := []
  episode : Option Nat := none
  writer : Option Nat := none
  waitList : List Nat := []
  deriving DecidableEq, Repr

/-- An open recall episode record (R36). Its number is its place in the table. -/
structure Episode where
  key : Key
  line : Nat
  writer : Nat
  writerChannel : Nat
  recalled : List Nat
  waiting : List Nat
  deadline : Nat
  deriving DecidableEq, Repr

/-- A notice (R189 and the table of 2.7). -/
inductive Notice where
  | recall (key : Key) (episode : Nat)
  | revoked (key : Key) (episode : Nat)
  | holdsDropped (unit : Nat)
  | unitReady (unit : Nat)
  | unitNotReady (unit : Nat)
  | channelFenced (channel : Nat) (cause : FenceCause)
  | lineStranded (key : Key) (status : Status) (failures : Nat) (epoch : Epoch)
  deriving DecidableEq, Repr

/-- A record write in flight (R165): its bytes, where they go, and the entry of the request it completes (none for a notice). -/
structure RecordWrite where
  bytes : List Byte
  address : Nat
  entry : Option Nat
  deriving DecidableEq, Repr

/-- The rings of a channel (R156). -/
structure Rings where
  sqBase : Addr
  sqSize : Nat
  cqBase : Addr
  cqSize : Nat
  deriving DecidableEq, Repr

/-- A channel context (R156), with RU's fields of the channel (R47). The default is the context after either reset
(log 20 for the values that no rule states). -/
structure Channel where
  state : ChannelState := .closed
  cause : FenceCause := .none
  closePending : Bool := false
  rings : Option Rings := none
  sqHead : Nat := 0
  sqTail : Nat := 0
  cqTail : Nat := 0
  phase : Bool := true
  cqHead : Nat := 0
  /-- the index after the last entry of the posted region (R160) -/
  posted : Nat := 0
  reserved : Nat := 0
  inFlight : Nat := 0
  limit : Option Nat := none
  interrupt : Bool := false
  /-- the fetch hold: set with the BARRIER parked on it (R148) -/
  fetchHold : Option Nat := none
  /-- request-table entries whose completion records RT has handed over (R164) -/
  postQueue : List Nat := []
  backlog : List Notice := []
  lost : Nat := 0
  /-- the record write in flight (R164) -/
  writing : Option RecordWrite := none
  /-- whether the channel behaves as under COMPLETION_POST_ERROR (R170) -/
  postError : Bool := false
  /-- the CHANNEL_CLOSE that waits for the channel to drain (R172) -/
  closeEntry : Option Nat := none
  /-- the arrival counter (R139) -/
  arrivals : Nat := 0
  holdQuota : Nat := 0
  holdCount : Nat := 0
  revokeLimit : Nat := 0
  revokeCount : Nat := 0
  /-- whether the channel has been opened since the last reset (R186) -/
  opened : Bool := false
  deriving DecidableEq, Repr

/-- The geometry of a unit's attachment (R98). -/
structure Geometry where
  tracks : Nat
  surfaces : Nat
  sectors : Nat
  deriving DecidableEq, Repr

/-- What a media operation works on (R102). -/
inductive Subject where
  | fill (line : Nat) | flush (line : Nat) | survey (entry : Nat)
  deriving DecidableEq, Repr

/-- A data field being read (R122, R123): its mark, how many data bytes have come, and the check register so far. -/
structure DataField where
  mark : Mark
  received : Nat
  check : BitVec 16
  deriving DecidableEq, Repr

/-- The operation in flight (R102, R119, R131). -/
structure Operation where
  subject : Subject
  track : Nat
  surface : Nat
  /-- the target sector; a survey has none -/
  sector : Option Nat
  recalibrated : Bool := false
  /-- index passes of the verification or of the search -/
  indexCount : Nat := 0
  /-- the response deadline (R111) -/
  deadline : Nat
  checkMiss : Bool := false
  attempts : Nat := 0
  badData : Bool := false
  field : Option DataField := none
  /-- survey: in the recording phase (R132) -/
  recording : Bool := false
  entries : List SurveyEntry := []
  overflow : Bool := false
  deriving DecidableEq, Repr

/-- An entry of a flush list (R74). -/
structure FlushEntry where
  line : Nat
  key : Key
  deriving DecidableEq, Repr

/-- A barrier of a barrier list (R90). -/
structure Barrier where
  entry : Nat
  epoch : Epoch
  deriving DecidableEq, Repr

/-- A UNIT_DETACH that waits for its awaited read transfers (R179). -/
structure Detach where
  entry : Nat
  awaited : List Nat
  deriving DecidableEq, Repr

/-- A unit record (R98), with WB's state of the unit (Chapter 4), the write gate of its port (R100) and the
administration requests that wait on it. The default is the record after either reset. -/
structure UnitRec where
  state : UnitState := .detached
  geometry : Option Geometry := none
  retries : Option Nat := none
  believed : Option Nat := none
  verifyPending : Bool := false
  selectedSurface : Option Nat := none
  sweep : Sweep := .up
  lastHeader : Option Nat := none
  discarding : Bool := false
  readyLine : Bool := false
  fillQueue : List Nat := []
  surveyQueue : List Nat := []
  op : Option Operation := none
  seq : SeqState := .idle
  /-- the write gate is on (R100, R126) -/
  writeGate : Bool := false
  flushList : List FlushEntry := []
  epoch : Epoch := 1
  barriers : List Barrier := []
  /-- the number of STRANDED lines (R79) -/
  stranded : Nat := 0
  detach : Option Detach := none
  /-- the UNIT_DISCARD that waits (R181) -/
  discard : Option Nat := none
  deriving DecidableEq, Repr

/-- The part parameters (R184, R191). -/
structure Params where
  recallTimeout : Nat
  setWaitTimeout : Nat
  highMark : Nat
  lowMark : Nat
  deriving DecidableEq, Repr

/-- The fetch in flight (R162): its channel and the request-table entry set aside for it. -/
structure Fetch where
  channel : Nat
  entry : Nat
  deriving DecidableEq, Repr

/-- MODEL'S OWN (log 4): what the part puts out: writes to host memory, starts of reads of host memory, and the four
commands of a unit port (R100). -/
inductive Output where
  | hostWrite (address : Nat) (data : List Byte)
  | hostRead (address : Nat) (length : Nat)
  | select (unit surface : Nat)
  | move (unit track : Nat)
  | home (unit : Nat)
  | writeGateOn (unit : Nat) (stream : List Byte)
  | writeGateOff (unit : Nat)
  deriving DecidableEq, Repr

/-- MODEL'S OWN (log 3): a piece of work that a step has set in motion and that runs within the same step. -/
inductive Work where
  /-- a slot whose count fell to 0 goes to a request of the slot wait list (R22) -/
  | slotGiven (entry slot : Nat)
  /-- an entry of a failed fill's wait list is handed on (R26, R58) -/
  | handOn (entry : Nat) (status : Status)
  /-- an entry of a failed load's wait list is re-dispatched (R26, R55) -/
  | redispatch (entry : Nat)
  /-- a set's waiters re-attempt allocation (R19) -/
  | reattempt (set : Nat)
  /-- a line may have become evictable (R16) -/
  | evictCheck (line : Nat)
  /-- a line's wait list is served (R25) -/
  | serve (line : Nat)
  /-- an episode's pending set may have become empty (R32, R40) -/
  | episodeCheck (episode : Nat)
  /-- an episode record has become free (R39) -/
  | episodeFreed
  /-- the writer of a line on the episode wait list may have no one left to recall (R32, R39) -/
  | episodeWaitCheck (line : Nat)
  /-- a channel's parked BARRIER is tested (R148) -/
  | barrierTest (channel : Nat)
  /-- a channel may have drained (R157) -/
  | drainCheck (channel : Nat)
  /-- the quiesce condition is tested (R194) -/
  | quiesceCheck
  /-- a waiting detach has no awaited transfer left (R179) -/
  | detachTest (unit : Nat)
  /-- a waiting discard may run its third stage (R182) -/
  | discardTest (unit : Nat)
  /-- a sequencer runs a selection (R105) -/
  | select (unit : Nat)
  | fillOutcome (line : Nat) (status : Status) (mark : Mark)
  | flushOutcome (line : Nat) (status : Status)
  /-- a line has gone to STRANDED (R85) -/
  | stranded (line : Nat) (status : Status)
  /-- a unit's barriers are re-tested (R91) -/
  | retest (unit : Nat)
  /-- what follows the swap of a WRITE (R65, steps 2 to 4) -/
  | afterSwap (entry : Nat)
  | endWritePhase (line : Nat)
  | complete (entry : Nat) (completion : Completion)
  /-- a request that was PARKED is ended, if it still is (R112, R149) -/
  | endParked (entry : Nat) (status : Status)
  | notice (channel : Nat) (notice : Notice)
  deriving DecidableEq, Repr

/-- The part's whole state. -/
structure State where
  /-- the part state (R191) -/
  part : PartState
  failure : FailureCause
  lastFailure : FailureCause
  lastRefused : Refused
  bootAddress : Addr
  /-- the part parameters, absent until RUN puts them in force (R191) -/
  params : Option Params
  /-- the channel contexts, 0 to 15 (R156) -/
  channels : SMap Channel
  /-- the fetch in flight (R162) -/
  fetch : Option Fetch
  /-- the data channel last granted (R162) -/
  lastGranted : Nat
  /-- EVENT_SET, ascending (R168) -/
  eventSet : List Nat
  /-- the request table (R138) -/
  table : SMap (Option Request)
  /-- the line records by 4 × set + way (R1); an unlisted line is FREE -/
  lines : SMap Line
  /-- each set's ways, most recent first (R15); an unlisted set has 0, 1, 2, 3 -/
  recency : SMap (List Nat)
  /-- the set wait lists (R18) -/
  setWait : SMap (List Nat)
  /-- the slots' reference counts (R12); a slot of count 0 is in the free pool -/
  refs : SMap Nat
  /-- the slots' contents by 1024 × slot + offset (R12), as Host.Cell pairs -/
  store : List Host.Cell
  /-- the slot wait list (R22) -/
  slotWait : List Nat
  /-- the 32 episode records (R36); an unlisted record is free -/
  episodes : SMap (Option Episode)
  /-- the episode wait list (R39) -/
  episodeWait : List Nat
  /-- the part-wide dirty count (R79) -/
  dirtyCount : Nat
  /-- pressure (R80) -/
  pressure : Bool
  /-- the unit records, 0 to 3 (R98) -/
  units : SMap UnitRec
  /-- MODEL'S OWN (log 8): the time in milliseconds, against which deadlines are set and expire -/
  now : Nat
  /-- MODEL'S OWN (log 7): how many first joins of a set wait list there have been -/
  joins : Nat
  /-- MODEL'S OWN (log 2): how often a protect line has been sampled -/
  protectSamples : Nat
  /-- MODEL'S OWN (log 4): the entries, ascending, whose writes to host memory have ended in a FAILED part, where their requests stay
  ACTIVE (R71, R154); such a transfer does not end twice -/
  endedInFailed : List Nat
  /-- MODEL'S OWN (log 3): work set in motion by the step that runs; empty between steps -/
  agenda : List Work
  /-- MODEL'S OWN (log 4): what the part has put out, newest first -/
  outbox : List Output
  /-- MODEL'S OWN: the commands that wait, first in first out -/
  pending : List Instr
  deriving DecidableEq, Repr

/-- The part right after power-on reset (R191, R174, R155, R27, R28, R51, R97, R116). The ready lines are inactive (log 1). -/
def State.reset : State where
  part := .halted
  failure := .none
  lastFailure := .none
  lastRefused := .none
  bootAddress := 0
  params := none
  channels := []
  fetch := none
  lastGranted := 15
  eventSet := []
  table := []
  lines := []
  recency := []
  setWait := []
  refs := []
  store := []
  slotWait := []
  episodes := []
  episodeWait := []
  dirtyCount := 0
  pressure := false
  units := []
  now := 0
  joins := 0
  protectSamples := 0
  endedInFailed := []
  agenda := []
  outbox := []
  pending := []

end Sys2Proof.Machine
end

