-- ==== Sys2Proof/Machine/Sparse.lean ====
section
/-! DEFINITION. Sparse tables (reading, writing, their canonical form), the line store's bytes over them, and the small list
functions the other files share. -/

namespace Sys2Proof

namespace SMap

variable {α : Type}

/-- The value at `k`: the first listed one, else the default `d`. -/
def get (d : α) : SMap α → Nat → α
  | [], _ => d
  | (a, v) :: m, k => if k = a then v else get d m k

/-- Every entry of `k` removed. -/
def erase (m : SMap α) (k : Nat) : SMap α := m.filter (fun p => p.1 != k)

/-- An entry placed before the first entry with a greater number. -/
def insert (k : Nat) (v : α) : SMap α → SMap α
  | [] => [(k, v)]
  | (a, w) :: m => if k < a then (k, v) :: (a, w) :: m else (a, w) :: insert k v m

/-- The table with `v` at `k`; a number with the default value is not listed. -/
def set [DecidableEq α] (d : α) (m : SMap α) (k : Nat) (v : α) : SMap α :=
  if v = d then erase m k else insert k v (erase m k)

/-- The numbers rise strictly from above `low` (when given). -/
def rising : Option Nat → SMap α → Bool
  | _, [] => true
  | low, (a, _) :: m => (match low with | none => true | some l => decide (l < a)) && rising (some a) m

/-- The canonical form: numbers strictly rising and no entry equal to the default. -/
def wf [DecidableEq α] (d : α) (m : SMap α) : Bool := rising none m && m.all (fun p => decide (p.2 ≠ d))

end SMap

namespace Machine

/-! ### The line store (R12) -/

/-- DESIGN CHOICE (log 9): what a byte of the line store that nothing has written reads as. R28 leaves it undefined and R12 says that every
use writes a slot before anything is taken from it. -/
def storeDefault : Byte := 0

/-- The store byte at an address, 1024 × slot + offset. -/
def Memory.read (m : List Host.Cell) (a : Nat) : Byte := SMap.get storeDefault m a

/-- The store with one byte written. -/
def Memory.write (m : List Host.Cell) (a : Nat) (b : Byte) : List Host.Cell := SMap.set storeDefault m a b

/-- The store with bytes written at rising addresses from `a`. -/
def Memory.writeBytes (m : List Host.Cell) (a : Nat) : List Byte → List Host.Cell
  | [] => m
  | b :: bs => Memory.writeBytes (Memory.write m a b) (a + 1) bs

/-- `n` bytes of the store from `a`. -/
def Memory.readBytes (m : List Host.Cell) (a n : Nat) : List Byte := (List.range' a n).map (Memory.read m)

/-- The canonical form of the store. -/
def Memory.wf (m : List Host.Cell) : Bool := SMap.wf storeDefault m

/-! ### Shared list functions -/

/-- The first number from `k` on, of `n` numbers, that satisfies `p`. -/
def firstFrom (p : Nat → Bool) : (n k : Nat) → Option Nat
  | 0, _ => none
  | n + 1, k => if p k then some k else firstFrom p n (k + 1)

/-- A number joined to an ascending set. (log 28) -/
def joinSet (x : Nat) : List Nat → List Nat
  | [] => [x]
  | y :: ys => if x < y then x :: y :: ys else if x = y then y :: ys else y :: joinSet x ys

/-- A number removed from a list. -/
def leaveList (x : Nat) (l : List Nat) : List Nat := l.filter (· != x)

/-- `a` placed before the first member that `before a` says it precedes. -/
def insertBy {α : Type} (before : α → α → Bool) (a : α) : List α → List α
  | [] => [a]
  | b :: bs => if before a b then a :: b :: bs else b :: insertBy before a bs

/-- A list in ascending order of `before`, by insertion. -/
def sortBy {α : Type} (before : α → α → Bool) (l : List α) : List α := l.foldr (insertBy before) []

/-- The member that `better` prefers, the earlier one where neither is better. -/
def bestBy {α : Type} (better : α → α → Bool) : List α → Option α
  | [] => none
  | a :: as =>
    match bestBy better as with
    | none => some a
    | some b => if better b a then some b else some a

end Machine
end Sys2Proof
end

