-- ==== Sys2Proof/Machine/Flags.lean ====
section
/-! DEFINITION. The computations the spec gives on bits: the 16-bit check (R118), epoch comparison (R78), and bytes and little-endian
fields (R197). -/

namespace Sys2Proof.Machine

/-! ### The check of headers and data fields (R118) -/

/-- R118: `n` left shifts of the check register, each combined with 0x1021 when the bit shifted out is 1. -/
def checkShifts : Nat → BitVec 16 → BitVec 16
  | 0, r => r
  | n + 1, r => checkShifts n (if r.msb then (r <<< 1) ^^^ 0x1021 else r <<< 1)

/-- R118: the check register after one more byte. -/
def checkByte (r : BitVec 16) (b : Byte) : BitVec 16 := checkShifts 8 (r ^^^ (b.zeroExtend 16 <<< 8))

/-- R118: the preset of the check register. -/
def checkPreset : BitVec 16 := 0xFFFF

/-- R118: the check register after a list of bytes. -/
def checkBytes (r : BitVec 16) (bs : List Byte) : BitVec 16 := bs.foldl checkByte r

/-! ### Bytes -/

/-- The more significant byte of a 16-bit value. -/
def highByte (w : BitVec 16) : Byte := w.extractLsb' 8 8

/-- The less significant byte of a 16-bit value. -/
def lowByte (w : BitVec 16) : Byte := w.extractLsb' 0 8

/-- The bytes of a number, less significant first (R197). -/
def leBytes : (n : Nat) → Nat → List Byte
  | 0, _ => []
  | n + 1, v => BitVec.ofNat 8 v :: leBytes n (v / 256)

/-- Byte `i` of a record, 0 beyond its end. -/
def byteAt (bs : List Byte) (i : Nat) : Byte := bs.getD i 0

/-- The little-endian number in the `n` bytes from offset `i` (R197). -/
def leAt (bs : List Byte) (i : Nat) : Nat → Nat
  | 0 => 0
  | n + 1 => (byteAt bs i).toNat + 256 * leAt bs (i + 1) n

/-- Whether all bytes are zero. -/
def allZero (bs : List Byte) : Bool := bs.all (· == 0)

/-- A byte from flags, the first being bit 0. -/
def flagByte : List Bool → Byte
  | [] => 0
  | b :: bs => (flagByte bs <<< 1) ||| (if b then 1 else 0)

/-! ### Headers and data fields (R117) -/

/-- R117, R118: the check of a header. -/
def headerCheckOf (track : BitVec 16) (surface sector size : Byte) : BitVec 16 :=
  checkBytes checkPreset [highByte track, lowByte track, surface, sector, size]

/-- R117: the mark byte. -/
def markByte : Mark → Byte
  | .data => 0xFB
  | .retired => 0xF8

/-- R117: the size code of a sector of 1024 bytes. -/
def ownSizeCode : Byte := 3

/-- R126: the 1027 bytes of a data field write: mark, data, and the check, more significant byte first. -/
def dataFieldStream (mark : Mark) (data : List Byte) : List Byte :=
  let check := checkBytes checkPreset (markByte mark :: data)
  markByte mark :: data ++ [highByte check, lowByte check]

/-! ### Epochs (R78, 0.6) -/

/-- Epoch `a` is at most epoch `b`: `b - a`, as a signed 32-bit value, is zero or positive. -/
def epochAtMost (a b : Epoch) : Bool := decide (0 ≤ (b - a).toInt)

/-- R78: how far behind its unit's counter an epoch may lie. -/
def epochReach : Int := 2 ^ 30

/-- R78: an epoch more than 2^30 behind the counter `c` is set to `c - 2^30`. -/
def adjustEpoch (c e : Epoch) : Epoch := if epochReach < (c - e).toInt then c - BitVec.ofInt 32 epochReach else e

/-! ### Rings (R156, R161) -/

/-- The distance from index `a` forward to index `b` in a ring of `size` entries. -/
def ringDistance (size a b : Nat) : Nat := (b + size - a) % size

/-- Whether a number is a power of two (R176, R193). -/
def isPowerOfTwo (n : Nat) : Bool := n != 0 && n &&& (n - 1) == 0

/-- R144: an address is a multiple of 64 and its buffer of `size` bytes ends within the 64-bit host space. -/
def addressFits (a : Addr) (size : Nat) : Bool := a.toNat % 64 == 0 && decide (a.toNat + size ≤ Config.hostSpace)

end Sys2Proof.Machine
end

