-- ==== Sys2Proof/Machine/Operands.lean ====
section
/-! DEFINITION. Records: the codes of R199, reading a submission record and a boot record from its bytes (R197), the record each record
kind's command stands for, and the bytes of the records the part writes (R198). -/

namespace Sys2Proof.Machine

/-! ### Codes (R199) -/

/-- R199: the code of a kind. -/
def Kind.code : Kind → Byte
  | .read => 0x01 | .write => 0x02 | .release => 0x03 | .flush => 0x04 | .survey => 0x05 | .barrier => 0x06
  | .abandon => 0x07 | .channelOpen => 0x40 | .channelClose => 0x41 | .unitAttach => 0x42 | .unitDetach => 0x43
  | .unitDiscard => 0x44 | .setParameters => 0x45 | .queryChannel => 0x46 | .queryUnit => 0x47 | .queryLine => 0x48

/-- All kinds. -/
def Kind.all : List Kind :=
  [.read, .write, .release, .flush, .survey, .barrier, .abandon, .channelOpen, .channelClose, .unitAttach, .unitDetach,
   .unitDiscard, .setParameters, .queryChannel, .queryUnit, .queryLine]

/-- R142, R199: the kind a code names, if it names one. -/
def Kind.ofCode (b : Byte) : Option Kind := Kind.all.find? (fun k => k.code == b)

/-- R142: the administration kinds. -/
def Kind.isAdmin : Kind → Bool
  | .channelOpen | .channelClose | .unitAttach | .unitDetach | .unitDiscard | .setParameters | .queryChannel | .queryUnit
  | .queryLine => true
  | .read | .write | .release | .flush | .survey | .barrier | .abandon => false

/-- R199: the code of a status. -/
def Status.code : Status → Byte
  | .success => 0x00 | .badKind => 0x01 | .badRecord => 0x02 | .badAddress => 0x03 | .unitDetached => 0x04
  | .unitNotReady => 0x05 | .sectorNotFound => 0x06 | .headerCheck => 0x07 | .dataCheck => 0x08 | .seekError => 0x09
  | .writeFault => 0x0A | .writeProtected => 0x0B | .hostTransferError => 0x0C | .noLine => 0x0D | .abandoned => 0x0E
  | .tooLate => 0x0F | .notFound => 0x10 | .notHeld => 0x11 | .fenced => 0x12 | .channelClosing => 0x13
  | .incomplete => 0x14 | .discarded => 0x15 | .quiescing => 0x16 | .channelState => 0x17 | .unitBusy => 0x18
  | .unitState => 0x19

/-- R199: the code of a fence cause. -/
def FenceCause.code : FenceCause → Byte
  | .none => 0 | .revokeLimit => 1 | .noticeOverrun => 2 | .submitFetchError => 3 | .completionPostError => 4
  | .badTail => 5 | .badHead => 6

/-- R199: the code of a failure cause. -/
def FailureCause.code : FailureCause → Nat
  | .none => 0 | .bootInvalid => 1 | .bootFetchError => 2 | .adminFetchError => 3 | .adminPostError => 4
  | .adminBadTail => 5 | .adminBadHead => 6

/-- R199: the code of a last refused command. -/
def Refused.code : Refused → Nat
  | .none => 0 | .run => 1 | .quiesce => 2 | .invalid => 3

/-- R199: the code of a part state. -/
def PartState.code : PartState → Nat
  | .halted => 0 | .starting => 1 | .running => 2 | .quiescing => 3 | .quiesced => 4 | .failed => 5

/-- R199: the code of a line state. -/
def LineState.code : LineState → Byte
  | .free => 0 | .filling => 1 | .loading => 2 | .clean => 3 | .dirty => 4 | .flushing => 5 | .reflush => 6 | .stranded => 7

/-- R199: the code of a channel state. -/
def ChannelState.code : ChannelState → Byte
  | .closed => 0 | .open => 1 | .closing => 2 | .fencing => 3 | .fenced => 4

/-- R199: the code of a unit state. -/
def UnitState.code : UnitState → Byte
  | .detached => 0 | .notReady => 1 | .ready => 2

/-- R199: the code of a sequencer state. -/
def SeqState.code : SeqState → Byte
  | .idle => 0 | .homing => 1 | .positioning => 2 | .verifying => 3 | .searching => 4 | .transferring => 5 | .surveying => 6

/-- 11.2: the code of a mark in a QUERY_LINE snapshot. -/
def markCode : Mark → Byte
  | .data => 0 | .retired => 1

/-! ### Reading a submission record (R197) -/

/-- R197: the record in the bytes of a ring entry. -/
def Record.parse (bs : List Byte) : Record where
  kind := byteAt bs 0
  flags := byteAt bs 1
  tag := BitVec.ofNat 16 (leAt bs 2 2)
  subject := byteAt bs 4
  surface := byteAt bs 5
  track := BitVec.ofNat 16 (leAt bs 6 2)
  sector := byteAt bs 8
  episode := byteAt bs 9
  target := BitVec.ofNat 16 (leAt bs 10 2)
  gap := [byteAt bs 12, byteAt bs 13, byteAt bs 14, byteAt bs 15]
  buffer := BitVec.ofNat 64 (leAt bs 16 8)
  cqBase := BitVec.ofNat 64 (leAt bs 24 8)
  p32 := BitVec.ofNat 16 (leAt bs 32 2)
  p34 := byteAt bs 34
  p35 := byteAt bs 35
  p36 := byteAt bs 36
  p37 := byteAt bs 37
  p38 := byteAt bs 38
  p39 := byteAt bs 39
  rest := (List.range 24).map (fun i => byteAt bs (40 + i))

/-- The bytes of a record, in the places R197 gives them. -/
def Record.bytes (r : Record) : List Byte :=
  [r.kind, r.flags, lowByte r.tag, highByte r.tag, r.subject, r.surface, lowByte r.track, highByte r.track,
   r.sector, r.episode, lowByte r.target, highByte r.target] ++ r.gap ++ leBytes 8 r.buffer.toNat
  ++ leBytes 8 r.cqBase.toNat ++ [lowByte r.p32, highByte r.p32, r.p34, r.p35, r.p36, r.p37, r.p38, r.p39] ++ r.rest

/-- 11.1, flags: bit 0 hold. -/
def Record.hold (r : Record) : Bool := r.flags.getLsbD 0
/-- 11.1, flags: bit 1 episode-valid. -/
def Record.episodeValid (r : Record) : Bool := r.flags.getLsbD 1
/-- 11.1, flags: bit 2 interrupt enable. -/
def Record.interrupt (r : Record) : Bool := r.flags.getLsbD 2
/-- 11.1: the unit at byte 4. -/
def Record.unit (r : Record) : Nat := r.subject.toNat
/-- 11.1: the channel at byte 4. -/
def Record.channel (r : Record) : Nat := r.subject.toNat
/-- 11.1: the key a READ, WRITE, RELEASE or QUERY_LINE names. -/
def Record.key (r : Record) : Key := ⟨r.subject.toNat, r.surface.toNat, r.track.toNat, r.sector.toNat⟩
/-- 11.1: the two bytes 34 and 35 as one field. -/
def Record.w34 (r : Record) : Nat := r.p34.toNat + 256 * r.p35.toNat
/-- 11.1: the two bytes 36 and 37 as one field. -/
def Record.w36 (r : Record) : Nat := r.p36.toNat + 256 * r.p37.toNat
/-- 11.1: the two bytes 38 and 39 as one field. -/
def Record.w38 (r : Record) : Nat := r.p38.toNat + 256 * r.p39.toNat
/-- R142: the kind a record names. -/
def Record.kindOf (r : Record) : Option Kind := Kind.ofCode r.kind
/-- The kind of a held request. -/
def Request.kind (r : Request) : Option Kind := r.record.kindOf
/-- The key of a held READ or WRITE. -/
def Request.key (r : Request) : Key := r.record.key

/-! ### The records of the record-kind commands (11.1) -/

/-- The record of a READ. -/
def readRecord (tag : BitVec 16) (hold : Bool) (unit surface : Byte) (track : BitVec 16) (sector : Byte) (buffer : Addr) : Record :=
  { kind := Kind.read.code, flags := flagByte [hold], tag, subject := unit, surface, track, sector, buffer }
/-- The record of a WRITE. -/
def writeRecord (tag : BitVec 16) (hold : Bool) (unit surface : Byte) (track : BitVec 16) (sector : Byte) (buffer : Addr) : Record :=
  { kind := Kind.write.code, flags := flagByte [hold], tag, subject := unit, surface, track, sector, buffer }
/-- The record of a RELEASE; with an episode number the episode-valid flag is set. -/
def releaseRecord (tag : BitVec 16) (episode : Option Byte) (unit surface : Byte) (track : BitVec 16) (sector : Byte) : Record :=
  { kind := Kind.release.code, flags := flagByte [false, episode.isSome], tag, subject := unit, surface, track, sector,
    episode := episode.getD 0 }
/-- The record of a FLUSH. -/
def flushRecord (tag : BitVec 16) (unit : Byte) : Record := { kind := Kind.flush.code, tag, subject := unit }
/-- The record of a SURVEY. -/
def surveyRecord (tag : BitVec 16) (unit surface : Byte) (track : BitVec 16) (buffer : Addr) : Record :=
  { kind := Kind.survey.code, tag, subject := unit, surface, track, buffer }
/-- The record of a BARRIER. -/
def barrierRecord (tag : BitVec 16) : Record := { kind := Kind.barrier.code, tag }
/-- The record of an ABANDON. -/
def abandonRecord (tag target : BitVec 16) : Record := { kind := Kind.abandon.code, tag, target }
/-- The record of a CHANNEL_OPEN. -/
def channelOpenRecord (tag : BitVec 16) (interrupt : Bool) (channel : Byte) (sqBase cqBase : Addr) (sqSize cqSize : BitVec 16)
    (inFlightLimit holdQuota revokeLimit : Byte) : Record :=
  { kind := Kind.channelOpen.code, flags := flagByte [false, false, interrupt], tag, subject := channel, buffer := sqBase, cqBase,
    p32 := sqSize, p34 := lowByte cqSize, p35 := highByte cqSize, p36 := inFlightLimit, p37 := holdQuota, p38 := revokeLimit }
/-- The record of a CHANNEL_CLOSE. -/
def channelCloseRecord (tag : BitVec 16) (channel : Byte) : Record := { kind := Kind.channelClose.code, tag, subject := channel }
/-- The record of a UNIT_ATTACH. -/
def unitAttachRecord (tag : BitVec 16) (unit : Byte) (tracks : BitVec 16) (surfaces sectors retries : Byte) : Record :=
  { kind := Kind.unitAttach.code, tag, subject := unit, p32 := tracks, p34 := surfaces, p35 := sectors, p36 := retries }
/-- The record of a UNIT_DETACH. -/
def unitDetachRecord (tag : BitVec 16) (unit : Byte) : Record := { kind := Kind.unitDetach.code, tag, subject := unit }
/-- The record of a UNIT_DISCARD. -/
def unitDiscardRecord (tag : BitVec 16) (unit : Byte) : Record := { kind := Kind.unitDiscard.code, tag, subject := unit }
/-- The record of a SET_PARAMETERS. -/
def setParametersRecord (tag recallTimeout setWaitTimeout highMark lowMark : BitVec 16) : Record :=
  { kind := Kind.setParameters.code, tag, p32 := recallTimeout, p34 := lowByte setWaitTimeout, p35 := highByte setWaitTimeout,
    p36 := lowByte highMark, p37 := highByte highMark, p38 := lowByte lowMark, p39 := highByte lowMark }
/-- The record of a QUERY_CHANNEL. -/
def queryChannelRecord (tag : BitVec 16) (channel : Byte) (buffer : Addr) : Record :=
  { kind := Kind.queryChannel.code, tag, subject := channel, buffer }
/-- The record of a QUERY_UNIT. -/
def queryUnitRecord (tag : BitVec 16) (unit : Byte) (buffer : Addr) : Record :=
  { kind := Kind.queryUnit.code, tag, subject := unit, buffer }
/-- The record of a QUERY_LINE. -/
def queryLineRecord (tag : BitVec 16) (unit surface : Byte) (track : BitVec 16) (sector : Byte) (buffer : Addr) : Record :=
  { kind := Kind.queryLine.code, tag, subject := unit, surface, track, sector, buffer }

/-! ### The field check (R143, R176 to R188) -/

/-- R143: the flag bits a kind defines. -/
def Kind.flagMask : Kind → Byte
  | .read | .write => 1
  | .release => 2
  | .channelOpen => 4
  | .flush | .survey | .barrier | .abandon | .channelClose | .unitAttach | .unitDetach | .unitDiscard | .setParameters
  | .queryChannel | .queryUnit | .queryLine => 0

/-- R143: the record with the fields its kind defines set to zero (beside kind and tag). What is left must be zero. -/
def Record.withoutDefined (r : Record) (k : Kind) : Record :=
  let r := { r with kind := 0, tag := 0, flags := r.flags &&& ~~~k.flagMask }
  match k with
  | .read | .write | .queryLine => { r with subject := 0, surface := 0, track := 0, sector := 0, buffer := 0 }
  | .release => { r with subject := 0, surface := 0, track := 0, sector := 0, episode := 0 }
  | .flush | .channelClose | .unitDetach | .unitDiscard => { r with subject := 0 }
  | .survey => { r with subject := 0, surface := 0, track := 0, buffer := 0 }
  | .barrier => r
  | .abandon => { r with target := 0 }
  | .channelOpen =>
    { r with subject := 0, buffer := 0, cqBase := 0, p32 := 0, p34 := 0, p35 := 0, p36 := 0, p37 := 0, p38 := 0 }
  | .unitAttach => { r with subject := 0, p32 := 0, p34 := 0, p35 := 0, p36 := 0 }
  | .setParameters => { r with p32 := 0, p34 := 0, p35 := 0, p36 := 0, p37 := 0, p38 := 0, p39 := 0 }
  | .queryChannel | .queryUnit => { r with subject := 0, buffer := 0 }

/-- R176, R193: a ring size in range. -/
def ringSizeOk (least most n : Nat) : Bool := isPowerOfTwo n && decide (least ≤ n) && decide (n ≤ most)

/-- R184, R193: part parameters in range; the low mark is tested against the high mark given with it. -/
def Params.ok (p : Params) : Bool :=
  decide (1 ≤ p.recallTimeout ∧ p.recallTimeout ≤ 60000 ∧ 1 ≤ p.setWaitTimeout ∧ p.setWaitTimeout ≤ 60000
    ∧ 1 ≤ p.highMark ∧ p.highMark ≤ 4096 ∧ p.lowMark < p.highMark)

/-- R184: the parameters a SET_PARAMETERS record gives. -/
def Record.params (r : Record) : Params := ⟨r.p32.toNat, r.w34, r.w36, r.w38⟩

/-- R143, R176 to R187: the ranges of the fields a kind defines. -/
def Record.rangesOk (r : Record) (k : Kind) : Bool :=
  match k with
  | .read | .write | .flush | .survey | .unitDetach | .unitDiscard | .queryUnit | .queryLine => decide (r.unit ≤ 3)
  | .release => decide (r.unit ≤ 3) && (if r.episodeValid then decide (r.episode.toNat ≤ 31) else r.episode == 0)
  | .barrier | .abandon => true
  | .channelOpen =>
    decide (1 ≤ r.channel ∧ r.channel ≤ 15) && ringSizeOk 16 4096 r.p32.toNat && ringSizeOk 16 4096 r.w34
    && decide (1 ≤ r.p36.toNat ∧ r.p36.toNat ≤ 64) && decide (r.p37.toNat ≤ 64) && decide (r.p38.toNat ≤ 15)
  | .channelClose => decide (1 ≤ r.channel ∧ r.channel ≤ 15)
  | .unitAttach =>
    decide (r.unit ≤ 3) && decide (1 ≤ r.p32.toNat ∧ r.p32.toNat ≤ 2048) && decide (1 ≤ r.p34.toNat ∧ r.p34.toNat ≤ 2)
    && decide (1 ≤ r.p35.toNat ∧ r.p35.toNat ≤ 32) && decide (r.p36.toNat ≤ 3)
  | .setParameters => r.params.ok
  | .queryChannel => decide (r.channel ≤ 15)

/-- R143: the whole field check. -/
def Record.fieldsOk (r : Record) (k : Kind) : Bool := decide (r.withoutDefined k = {}) && r.rangesOk k

/-- R144: the address check; the buffers and rings a kind names. -/
def Record.addressesOk (r : Record) (k : Kind) : Bool :=
  match k with
  | .read | .write => addressFits r.buffer 1024
  | .survey => addressFits r.buffer 512
  | .queryChannel | .queryUnit | .queryLine => addressFits r.buffer 64
  | .channelOpen => addressFits r.buffer (r.p32.toNat * 64) && addressFits r.cqBase (r.w34 * 32)
  | .release | .flush | .barrier | .abandon | .channelClose | .unitAttach | .unitDetach | .unitDiscard | .setParameters => true

/-! ### The boot record (R193, R197) -/

/-- The boot record as read (11.1). -/
structure Boot where
  version : Byte
  flags : Byte
  sqBase : Addr
  cqBase : Addr
  sqSize : Nat
  cqSize : Nat
  params : Params
  undefinedZero : Bool
  deriving DecidableEq, Repr

/-- R197: the boot record in 64 bytes. -/
def parseBoot (bs : List Byte) : Boot where
  version := byteAt bs 0
  flags := byteAt bs 1
  sqBase := BitVec.ofNat 64 (leAt bs 8 8)
  cqBase := BitVec.ofNat 64 (leAt bs 16 8)
  sqSize := leAt bs 24 2
  cqSize := leAt bs 26 2
  params := ⟨leAt bs 28 2, leAt bs 30 2, leAt bs 32 2, leAt bs 34 2⟩
  undefinedZero := allZero ((bs.drop 2).take 6) && allZero ((bs.drop 36).take 28)

/-- R193: the check RUN makes of the boot record. -/
def Boot.ok (b : Boot) : Bool :=
  b.version == 1 && (b.flags &&& 0xFE) == 0 && ringSizeOk 16 256 b.sqSize && ringSizeOk 16 256 b.cqSize
  && addressFits b.sqBase (b.sqSize * 64) && addressFits b.cqBase (b.cqSize * 32) && b.params.ok && b.undefinedZero

/-! ### Records the part writes (R198) -/

/-- A byte of a number below 256. -/
def byteOf (n : Nat) : Byte := BitVec.ofNat 8 n

/-- 11.2, byte 5 of a completion. -/
def Flags.byte (f : Flags) : Byte := flagByte [f.hit, f.granted, f.refused, f.retired, f.overflow]

/-- R198: the 32 bytes of a completion record. -/
def completionBytes (phase : Bool) (sqHead : Nat) (r : Request) (c : Completion) : List Byte :=
  [flagByte [phase, false], c.status.code] ++ [lowByte r.record.tag, highByte r.record.tag] ++ [r.record.kind, c.flags.byte]
  ++ leBytes 2 sqHead ++ leBytes 4 r.arrival ++ leBytes 4 c.count ++ leBytes 4 c.epoch.toNat ++ List.replicate 12 0

/-- R199: the code of a notice's type. -/
def Notice.code : Notice → Byte
  | .recall _ _ => 0x01 | .revoked _ _ => 0x02 | .holdsDropped _ => 0x03 | .unitReady _ => 0x10 | .unitNotReady _ => 0x11
  | .channelFenced _ _ => 0x12 | .lineStranded _ _ _ _ => 0x13

/-- 11.2: bytes 4, 5 and 8 to 19 of a notice. -/
def Notice.fields : Notice → List Byte × List Byte
  | .recall k n | .revoked k n =>
    ([byteOf k.unit, byteOf k.surface], leBytes 2 k.track ++ [byteOf k.sector, byteOf n] ++ List.replicate 8 0)
  | .holdsDropped u | .unitReady u | .unitNotReady u => ([byteOf u, 0], List.replicate 12 0)
  | .channelFenced c cause => ([0, 0], [0, 0, 0, 0, byteOf c, cause.code] ++ List.replicate 6 0)
  | .lineStranded k st n e =>
    ([byteOf k.unit, byteOf k.surface],
     leBytes 2 k.track ++ [byteOf k.sector, 0, 0, 0, st.code, byteOf n] ++ leBytes 4 e.toNat)

/-- R198: the 32 bytes of a notice record. -/
def noticeBytes (phase : Bool) (sqHead lost : Nat) (n : Notice) : List Byte :=
  [flagByte [phase, true], n.code] ++ leBytes 2 lost ++ n.fields.1 ++ leBytes 2 sqHead ++ n.fields.2 ++ List.replicate 12 0

/-- 11.2: the 8 bytes of a survey entry. -/
def SurveyEntry.bytes (e : SurveyEntry) : List Byte :=
  [highByte e.track, lowByte e.track, e.surface, e.sector, e.size, highByte e.check, lowByte e.check, flagByte [e.good, e.foreign]]

/-- R135: the bytes of a survey's entries, entry i at offset 8 × i. -/
def SurveyResult.bytes (r : SurveyResult) : List Byte := r.entries.flatMap SurveyEntry.bytes

end Sys2Proof.Machine
end

