-- ==== Sys2Proof/Decode.lean ====
section
/-! DEFINITION. From bits to commands: the table's words (no row of spec/opcode_table.json gives bits), a register write to the command it
is (R190, R192, R200), and the submission record each record-kind command stands for (R197). -/

namespace Sys2Proof

/-- The command that a table word spells. No row of the table gives bits (98_reader.md), so no word spells one. -/
def decodeTableWord (_nbits _w : Nat) : Option Instr := none

/-- R190, R192: the command of a write of `bytes` bytes at an offset of the register window. -/
def decodeWrite (offset : BitVec 12) (bytes : Nat) (value : BitVec 32) : Instr :=
  if bytes ≠ 4 then .registerWriteIgnored offset bytes value
  else if offset = 0x004 then
    if value = 1 then .run
    else if value = 2 then .quiesce
    else if value = 3 then .reset
    else .invalidCommand value
  else if offset = 0x010 then .bootAddressWrite false value
  else if offset = 0x014 then .bootAddressWrite true value
  else if offset = 0x018 then .sqTail value
  else if offset = 0x01C then .cqHead value
  else .registerWriteIgnored offset bytes value

open Machine in
/-- R197: the submission record of a record-kind command; other commands have none. -/
def Instr.record : Instr → Option Record
  | .read tag hold unit surface track sector buffer => some (readRecord tag hold unit surface track sector buffer)
  | .write tag hold unit surface track sector buffer => some (writeRecord tag hold unit surface track sector buffer)
  | .release tag episode unit surface track sector => some (releaseRecord tag episode unit surface track sector)
  | .flush tag unit => some (flushRecord tag unit)
  | .survey tag unit surface track buffer => some (surveyRecord tag unit surface track buffer)
  | .barrier tag => some (barrierRecord tag)
  | .abandon tag target => some (abandonRecord tag target)
  | .channelOpen tag interrupt channel sqBase cqBase sqSize cqSize inFlightLimit holdQuota revokeLimit =>
    some (channelOpenRecord tag interrupt channel sqBase cqBase sqSize cqSize inFlightLimit holdQuota revokeLimit)
  | .channelClose tag channel => some (channelCloseRecord tag channel)
  | .unitAttach tag unit tracks surfaces sectors retries => some (unitAttachRecord tag unit tracks surfaces sectors retries)
  | .unitDetach tag unit => some (unitDetachRecord tag unit)
  | .unitDiscard tag unit => some (unitDiscardRecord tag unit)
  | .setParameters tag recallTimeout setWaitTimeout highMark lowMark =>
    some (setParametersRecord tag recallTimeout setWaitTimeout highMark lowMark)
  | .queryChannel tag channel buffer => some (queryChannelRecord tag channel buffer)
  | .queryUnit tag unit buffer => some (queryUnitRecord tag unit buffer)
  | .queryLine tag unit surface track sector buffer => some (queryLineRecord tag unit surface track sector buffer)
  | .run | .quiesce | .reset | .invalidCommand _ | .powerOnReset | .bootAddressWrite _ _ | .sqTail _ | .cqHead _
  | .registerWriteIgnored _ _ _ | .bootReadEnd _ | .fetchGrant | .fetchEnd _ | .snapshotWriteEnd _ _ | .recordWriteStart _
  | .recordWriteEnd _ _ | .readTransferComplete _ | .readTransferError _ _ | .writeTransferComplete _ _
  | .writeTransferError _ _ | .surveyEntryWriteEnd _ _ | .setWaitDeadlineExpiry _ | .recallDeadlineExpiry _
  | .unitResponseLimitExpiry _ | .arrived _ | .homeFound _ | .positionFault _ | .index _ _ | .header _ _ _ _ _ _ _
  | .dataMark _ _ _ | .dataEnd _ _ _ | .writeDone _ | .writeFault _ | .readyRise _ | .readyFall _ | .channelDrain _
  | .detachAwaitedReadsEnd _ | .discardThirdStage _ | .quiescedEntry => none

end Sys2Proof
end

