-- ==== Sys2Proof/Machine/Ops.lean ====
section
/-! DEFINITION. The shared operations nearest to the state: reading and writing each table, the agenda of a step, slot references,
the changes of a line record with WB's bookkeeping, the hand-over of completions, and time. -/

namespace Sys2Proof.Machine

/-! ### Reading the tables -/

/-- The context of a channel (R156). -/
def State.channel (s : State) (c : Nat) : Channel := SMap.get {} s.channels c
/-- The record of a unit (R98). -/
def State.unit (s : State) (u : Nat) : UnitRec := SMap.get {} s.units u
/-- The record of a line (R1), named by 4 × set + way. -/
def State.line (s : State) (k : Nat) : Line := SMap.get {} s.lines k
/-- The request held by an entry (R138). -/
def State.request (s : State) (e : Nat) : Option Request := SMap.get none s.table e
/-- The reference count of a slot (R12). -/
def State.refCount (s : State) (slot : Nat) : Nat := SMap.get 0 s.refs slot
/-- The episode record of a number (R36). -/
def State.episode (s : State) (n : Nat) : Option Episode := SMap.get none s.episodes n
/-- A set's wait list (R18). -/
def State.waiters (s : State) (set : Nat) : List Nat := SMap.get [] s.setWait set
/-- The recency order of every set after a reset (R15). -/
def initialOrder : List Nat := [0, 1, 2, 3]
/-- A set's ways, most recent first (R15). -/
def State.order (s : State) (set : Nat) : List Nat := SMap.get initialOrder s.recency set

/-! ### Writing the tables -/

/-- A channel context replaced. -/
def State.setChannel (s : State) (c : Nat) (x : Channel) : State := { s with channels := SMap.set {} s.channels c x }
/-- A unit record replaced. -/
def State.setUnit (s : State) (u : Nat) (x : UnitRec) : State := { s with units := SMap.set {} s.units u x }
/-- A line record replaced, without WB's bookkeeping. -/
def State.setLine (s : State) (k : Nat) (x : Line) : State := { s with lines := SMap.set {} s.lines k x }
/-- A request-table entry replaced or freed. -/
def State.setRequest (s : State) (e : Nat) (x : Option Request) : State := { s with table := SMap.set none s.table e x }
/-- A reference count replaced. -/
def State.setRef (s : State) (slot n : Nat) : State := { s with refs := SMap.set 0 s.refs slot n }
/-- An episode record replaced or freed. -/
def State.setEpisode (s : State) (n : Nat) (x : Option Episode) : State := { s with episodes := SMap.set none s.episodes n x }
/-- A set's wait list replaced. -/
def State.setWaiters (s : State) (set : Nat) (l : List Nat) : State := { s with setWait := SMap.set [] s.setWait set l }
/-- A set's recency order replaced. -/
def State.setOrder (s : State) (set : Nat) (l : List Nat) : State := { s with recency := SMap.set initialOrder s.recency set l }
/-- The part state replaced (R191). -/
def State.setPart (s : State) (x : PartState) : State := { s with part := x }
/-- The fetch in flight replaced (R162). -/
def State.setFetch (s : State) (x : Option Fetch) : State := { s with fetch := x }
/-- The part parameters replaced (R184, R193). -/
def State.setParams (s : State) (x : Option Params) : State := { s with params := x }
/-- EVENT_SET replaced (R168). -/
def State.setEventSet (s : State) (x : List Nat) : State := { s with eventSet := x }
/-- The line records replaced, all at once. -/
def State.setLines (s : State) (x : SMap Line) : State := { s with lines := x }
/-- The line store replaced (R12). -/
def State.setStore (s : State) (x : List Host.Cell) : State := { s with store := x }
/-- The slot wait list replaced (R22). -/
def State.setSlotWait (s : State) (x : List Nat) : State := { s with slotWait := x }
/-- The episode wait list replaced (R39). -/
def State.setEpisodeWait (s : State) (x : List Nat) : State := { s with episodeWait := x }
/-- The dirty count replaced (R79). -/
def State.setDirtyCount (s : State) (x : Nat) : State := { s with dirtyCount := x }
/-- Pressure replaced (R80). -/
def State.setPressure (s : State) (x : Bool) : State := { s with pressure := x }
/-- The number of first joins replaced (log 7). -/
def State.setJoins (s : State) (x : Nat) : State := { s with joins := x }
/-- The entries whose writes have ended in FAILED replaced (log 4). -/
def State.setEndedInFailed (s : State) (x : List Nat) : State := { s with endedInFailed := x }
/-- The agenda replaced (log 3). -/
def State.setAgenda (s : State) (x : List Work) : State := { s with agenda := x }
/-- A channel context changed. -/
def State.updChannel (s : State) (c : Nat) (f : Channel → Channel) : State := s.setChannel c (f (s.channel c))
/-- A unit record changed. -/
def State.updUnit (s : State) (u : Nat) (f : UnitRec → UnitRec) : State := s.setUnit u (f (s.unit u))
/-- A line record changed in fields that WB does not follow. -/
def State.updLine (s : State) (k : Nat) (f : Line → Line) : State := s.setLine k (f (s.line k))
/-- A held request changed; a free entry stays free. -/
def State.updRequest (s : State) (e : Nat) (f : Request → Request) : State := s.setRequest e ((s.request e).map f)
/-- The held entries with their numbers, ascending. -/
def State.held (s : State) : List (Nat × Request) := s.table.filterMap (fun p => p.2.map (fun r => (p.1, r)))
/-- Output put out (log 4). -/
def State.emit (s : State) (o : Output) : State := { s with outbox := o :: s.outbox }


/-- R12, R59, R126: the contents of a slot. -/
def State.slotData (s : State) (slot : Nat) : List Byte := Memory.readBytes s.store (slot * Config.slotBytes) Config.slotBytes

/-- The bytes of a write to host memory that got `error` bytes far, or to its end; nothing is put out for none (log 4). -/
def State.emitWrite (s : State) (address : Nat) (data : List Byte) (error : Option Nat) : State :=
  let sent := match error with
    | none => data
    | some n => data.take n
  if sent.isEmpty then s else s.emit (.hostWrite address sent)

/-! ### The agenda of a step (log 3) -/

/-- Work that runs before what is already on the agenda. -/
def State.soon (s : State) (w : List Work) : State := { s with agenda := w ++ s.agenda }
/-- Work that runs after what is already on the agenda. -/
def State.later (s : State) (w : List Work) : State := { s with agenda := s.agenda ++ w }
/-- `f` applied with the work it sets in motion placed after what is already on the agenda, in the order set in motion. -/
def State.inOrder (s : State) (f : State → State) : State :=
  let t := f (s.setAgenda [])
  t.setAgenda (s.agenda ++ t.agenda)
/-- An operation applied to each member of a list in turn, the work each sets in motion in that order. -/
def State.forEach {α : Type} (s : State) (l : List α) (f : α → State → State) : State :=
  l.foldl (fun t a => t.inOrder (f a)) s

/-! ### Keys, sets and ways (R1, R2) -/

/-- The set of a line. -/
def setOfLine (k : Nat) : Nat := k / Config.ways
/-- The way of a line. -/
def wayOfLine (k : Nat) : Nat := k % Config.ways
/-- The line at a set and way. -/
def lineAt (set way : Nat) : Nat := Config.ways * set + way

/-- R2: the linear sector number of a key under a geometry. -/
def linearSector (g : Geometry) (k : Key) : Nat := (k.track * g.surfaces + k.surface) * g.sectors + k.sector

/-- R2: the set a key maps to under the geometry of its unit's attachment (a unit without one has no key). -/
def State.setOfKey (s : State) (k : Key) : Nat :=
  match (s.unit k.unit).geometry with
  | some g => (linearSector g k + 257 * k.unit) % Config.sets
  | none => 0

/-- R3: the way that holds a key, if one does. -/
def State.lookup (s : State) (key : Key) : Option Nat :=
  let set := s.setOfKey key
  (firstFrom (fun w => (s.line (lineAt set w)).state != .free && (s.line (lineAt set w)).key == some key) Config.ways 0).map (lineAt set)

/-- R15: a way moves to the most recent position of its set. -/
def State.touch (s : State) (k : Nat) : State :=
  s.setOrder (setOfLine k) (wayOfLine k :: leaveList (wayOfLine k) (s.order (setOfLine k)))

/-- R16: whether a line is evictable. -/
def State.evictable (s : State) (k : Nat) : Bool :=
  let ln := s.line k
  ln.state == .clean && ln.holders.isEmpty && ln.waitList.isEmpty && ln.episode.isNone && ln.writer.isNone
  && (match ln.currentSlot with | some slot => s.refCount slot == 1 | none => false)

/-- R15, R17: the least recent way of a set whose line satisfies `p`. -/
def State.leastRecent (s : State) (set : Nat) (p : Nat → Bool) : Option Nat :=
  ((s.order set).reverse.map (lineAt set)).find? p

/-! ### Slot references (R12 to R14) -/

/-- R14: a slot of the free pool, if it is not empty; any member may be taken (R12), this takes the lowest (log 10). -/
def State.freeSlot (s : State) : Option Nat := firstFrom (fun k => s.refCount k == 0) Config.slots 0

/-- R13: a reference taken. -/
def State.takeRef (s : State) (slot : Nat) : State := s.setRef slot (s.refCount slot + 1)

/-- R13, R14: a reference dropped. At 0 the slot goes to the head of the slot wait list, which holds it in hand (count 1) until
it goes on; otherwise the slot is in the free pool. -/
def State.dropRef (s : State) (slot : Nat) : State :=
  if s.refCount slot ≤ 1 then
    match s.slotWait with
    | [] => s.setRef slot 0
    | e :: rest => ((s.setSlotWait rest).setRef slot 1).soon [.slotGiven e slot]
  else s.setRef slot (s.refCount slot - 1)

/-- A reference dropped if there is a slot. -/
def State.dropSlot (s : State) : Option Nat → State
  | none => s
  | some slot => s.dropRef slot

/-! ### Checks set in motion -/

/-- R16, R19: a line that may have become evictable is offered to its set's waiters. -/
def State.noteEvictable (s : State) (k : Nat) : State :=
  if (s.waiters (setOfLine k)).isEmpty then s else s.later [.evictCheck k]

/-- R25: a line's wait list, if not empty, is to be served. -/
def State.noteServe (s : State) (k : Nat) : State :=
  if (s.line k).waitList.isEmpty then s else s.later [.serve k]

/-- R157: a channel that is CLOSING or FENCING may have drained. -/
def State.noteDrain (s : State) (c : Nat) : State :=
  match (s.channel c).state with
  | .closing | .fencing => s.later [.drainCheck c]
  | .closed | .open | .fenced => s

/-- R194: an event after which the quiesce condition is tested. -/
def State.noteQuiesce (s : State) : State := if s.part = .quiescing then s.later [.quiesceCheck] else s

/-- R182: an event after which a waiting discard looks at its conditions. (log 27) -/
def State.noteDiscard (s : State) (u : Nat) : State :=
  if (s.unit u).discard.isSome then s.later [.discardTest u] else s

/-- R148: a request of the channel has become DONE, so a BARRIER parked on its fetch hold is tested. -/
def State.noteDone (s : State) (c : Nat) : State :=
  if (s.channel c).fetchHold.isSome then s.later [.barrierTest c] else s

/-! ### Line changes with WB's bookkeeping (R11, R74, R79, R80) -/

/-- R80: pressure against the marks in force. -/
def State.comparePressure (s : State) : State :=
  match s.params with
  | none => s
  | some p =>
    if s.pressure then (if s.dirtyCount ≤ p.lowMark then s.setPressure false else s)
    else (if p.highMark ≤ s.dirtyCount then s.setPressure true else s)

/-- R79: the states the dirty count counts. -/
def LineState.inDirtyGroup : LineState → Bool
  | .dirty | .flushing | .reflush | .stranded | .loading => true
  | .free | .filling | .clean => false

/-- R194: the states of a READY unit's line that hold back the quiesce condition. -/
def LineState.holdsQuiesce : LineState → Bool
  | .dirty | .flushing | .reflush | .loading => true
  | .free | .filling | .clean | .stranded => false

/-- R74: the order of a flush list: track, then surface, then sector. -/
def FlushEntry.before (a b : FlushEntry) : Bool :=
  decide (a.key.track < b.key.track ∨ a.key.track = b.key.track ∧
    (a.key.surface < b.key.surface ∨ a.key.surface = b.key.surface ∧ a.key.sector < b.key.sector))

/-- R74: a line leaves its unit's flush list when it leaves DIRTY. -/
def State.leaveFlushList (s : State) (k : Nat) (old new : Line) : State :=
  if old.state = .dirty ∧ new.state ≠ .dirty then
    match old.key with
    | some key => s.updUnit key.unit (fun x => { x with flushList := x.flushList.filter (·.line != k) })
    | none => s
  else s

/-- R74: a line joins its unit's flush list when it enters DIRTY, and the sequencer is told of the work. -/
def State.joinFlushList (s : State) (k : Nat) (old new : Line) : State :=
  if old.state ≠ .dirty ∧ new.state = .dirty then
    match new.key with
    | some key =>
      (s.updUnit key.unit (fun x => { x with flushList := insertBy FlushEntry.before ⟨k, key⟩ x.flushList })).later [.select key.unit]
    | none => s
  else s

/-- R79: the unit's STRANDED count follows its lines. -/
def State.countStranded (s : State) (old new : Line) : State :=
  if old.state = .stranded ∧ new.state ≠ .stranded then
    match old.key with
    | some key => s.updUnit key.unit (fun x => { x with stranded := x.stranded - 1 })
    | none => s
  else if old.state ≠ .stranded ∧ new.state = .stranded then
    match new.key with
    | some key => s.updUnit key.unit (fun x => { x with stranded := x.stranded + 1 })
    | none => s
  else s

/-- R79, R80: the dirty count follows the line's entry to or departure from the group, and pressure follows the count. -/
def State.countDirty (s : State) (old new : Line) : State :=
  match old.state.inDirtyGroup, new.state.inDirtyGroup with
  | false, true => (s.setDirtyCount (s.dirtyCount + 1)).comparePressure
  | true, false => (s.setDirtyCount (s.dirtyCount - 1)).comparePressure
  | true, true | false, false => s

/-- R11: a line record replaced, with everything WB and PC follow in the same step. -/
def State.putLine (s : State) (k : Nat) (new : Line) : State :=
  let old := s.line k
  let t := (((s.setLine k new).leaveFlushList k old new).joinFlushList k old new).countStranded old new
  let t := t.countDirty old new
  if old.state.holdsQuiesce ∧ ¬ new.state.holdsQuiesce then t.noteQuiesce else t

/-- R10: a line freed: its record becomes FREE and its references are dropped. -/
def State.freeLine (s : State) (k : Nat) : State :=
  let ln := s.line k
  ((s.putLine k {}).dropSlot ln.flushSource).dropSlot ln.currentSlot

/-! ### The end of a request (R152, R154) -/

/-- The four kinds whose requests the quiesce condition waits for (R194). -/
def Kind.heldByQuiesce : Kind → Bool
  | .read | .write | .survey | .flush => true
  | .release | .barrier | .abandon | .channelOpen | .channelClose | .unitAttach | .unitDetach | .unitDiscard | .setParameters
  | .queryChannel | .queryUnit | .queryLine => false

/-- R154, R165: an entry freed, with the channel's in-flight count lowered. -/
def State.freeEntry (s : State) (e : Nat) : State :=
  match s.request e with
  | none => s
  | some r =>
    let t := (s.setRequest e none).updChannel r.channel (fun x => { x with inFlight := x.inFlight - 1 })
    let t := t.noteDrain r.channel
    match r.kind with
    | some k => if k.heldByQuiesce then t.noteQuiesce else t
    | none => t

/-- R169, R170: a completion record discarded: its entry freed and both counts lowered. -/
def State.discardRecord (s : State) (e : Nat) : State :=
  match s.request e with
  | none => s
  | some r => (s.updChannel r.channel (fun x => { x with reserved := x.reserved - 1 })).freeEntry e

/-- R52, R140, R152: the entry of a request that has ended. Its progress fields are absent. -/
def Request.ended (r : Request) (c : Completion) : Request :=
  { r with place := .done, line := none, deadline := none, delivered := none, captured := none, staging := none,
           snapshot := none, survey := none, completion := some c }

/-- R152, R154: a request completes. RT builds its record, which is not changed after, and hands it to QI, which queues it, or discards it on
a channel that behaves as under COMPLETION_POST_ERROR (R170). A request that is DONE has its record already. -/
def State.complete (s : State) (e : Nat) (c : Completion) : State :=
  match s.request e with
  | none => s
  | some r =>
    if r.place = .done then s
    else
      let t := s.setRequest e (some (r.ended c))
      let t := if (t.channel r.channel).postError then t.discardRecord e
        else t.updChannel r.channel (fun x => { x with postQueue := x.postQueue ++ [e] })
      t.noteDone r.channel

/-- R149: the state of a parked request after it is told where it now waits. -/
def State.park (s : State) (e : Nat) (w : WaitList) : State := s.updRequest e (fun r => { r with place := .parked w })

/-! ### Failure and time -/

/-- R195: the part enters FAILED; a second cause has no effect. -/
def State.fail (s : State) (cause : FailureCause) : State :=
  if s.part = .failed then s else { s with part := .failed, failure := cause }

/-- R42, R18, R111 (0.6, Time; log 8): whether a deadline may expire now. -/
def State.due (s : State) (deadline : Nat) : Bool := decide (deadline ≤ s.now)

/-- R156: the two sizes of a channel's rings, 0 while they are absent. -/
def Channel.sqSize (x : Channel) : Nat := (x.rings.map Rings.sqSize).getD 0
/-- See `Channel.sqSize`. -/
def Channel.cqSize (x : Channel) : Nat := (x.rings.map Rings.cqSize).getD 0
/-- The ring bases as numbers, 0 while they are absent. -/
def Channel.sqBase (x : Channel) : Nat := (x.rings.map (fun r => r.sqBase.toNat)).getD 0
/-- See `Channel.sqBase`. -/
def Channel.cqBase (x : Channel) : Nat := (x.rings.map (fun r => r.cqBase.toNat)).getD 0

/-- R161: the free space of the completion ring. -/
def Channel.freeSpace (x : Channel) : Nat := x.cqSize - 1 - ringDistance x.cqSize x.cqHead x.cqTail
/-- R161: the margin is the free space less the reserved count; this tests that it is at least 1. -/
def Channel.hasMargin (x : Channel) : Bool := decide (x.reserved < x.freeSpace)
/-- R160: the length of the posted region. -/
def Channel.postedLength (x : Channel) : Nat := ringDistance x.cqSize x.cqHead x.posted

/-- R168: the interrupt line is asserted while EVENT_SET is not empty. -/
def State.interruptLine (s : State) : Bool := !s.eventSet.isEmpty

end Sys2Proof.Machine
end

