-- ==== Sys2Proof/Machine/Holds.lean ====
section
/-! DEFINITION. RU's holds (Chapter 2): granting and dropping a hold, the end of a write phase, the close of a recall episode, and a
writer going on to its host transfer. -/

namespace Sys2Proof.Machine

/-- R24: the write phase of a line ends without a swap: it has no writer, and its wait list is served. -/
def State.endWritePhase (s : State) (k : Nat) : State :=
  ((s.updLine k (fun x => { x with writer := none })).noteServe k).noteEvictable k

/-! ### Host transfers of a WRITE (R24, R63) -/

/-- R63, R64: a WRITE's host transfer starts into a slot that already has its transfer reference. -/
def State.startWriteTransfer (s : State) (e slot : Nat) : State :=
  match s.request e with
  | none => s
  | some r =>
    (s.setRequest e (some { r with place := .active, staging := some slot })).emit
      (.hostRead r.record.buffer.toNat Config.slotBytes)

/-- R24, R63: a writer that RU lets proceed takes a staging slot and starts, or joins the slot wait list. -/
def State.proceed (s : State) (e : Nat) : State :=
  match s.freeSlot with
  | some slot => (s.takeRef slot).startWriteTransfer e slot
  | none => (s.setSlotWait (s.slotWait ++ [e])).park e .slotWait

/-! ### Recall sets and episodes (R36 to R41) -/

/-- R37: the recall set of a writer of channel `c` on a line: the holder set less the channel. -/
def State.recallSet (s : State) (k c : Nat) : List Nat := leaveList c (s.line k).holders

/-- R40: whether a notice is a RECALL of episode `n`. -/
def Notice.isRecallOf (n : Nat) : Notice → Bool
  | .recall _ m => m == n
  | .revoked _ _ | .holdsDropped _ | .unitReady _ | .unitNotReady _ | .channelFenced _ _ | .lineStranded _ _ _ _ => false

/-- R40: the unposted RECALL notices of an episode withdrawn, the other notices keeping their order. -/
def State.withdrawRecalls (s : State) (n : Nat) (recalled : List Nat) : State :=
  recalled.foldl (fun t c => t.updChannel c (fun x => { x with backlog := x.backlog.filter (fun m => !m.isRecallOf n) })) s

/-- R40, R41: an episode record becomes free: its line has no open episode, its deadline is cancelled with it, its unposted
RECALLs are withdrawn, and the episode wait list is told. -/
def State.freeEpisode (s : State) (n : Nat) : State :=
  match s.episode n with
  | none => s
  | some ep =>
    let t := ((s.setEpisode n none).updLine ep.line (fun x => { x with episode := none })).withdrawRecalls n ep.recalled
    if t.episodeWait.isEmpty then t else t.later [.episodeFreed]

/-- R40: an episode whose pending set is empty closes, and its writer proceeds. -/
def State.closeEpisode (s : State) (n : Nat) : State :=
  match s.episode n with
  | none => s
  | some ep => (s.freeEpisode n).proceed ep.writer

/-- R32, R40: the close of an episode whose pending set has become empty. -/
def State.episodeCheck (s : State) (n : Nat) : State :=
  match s.episode n with
  | none => s
  | some ep => if ep.waiting.isEmpty then s.closeEpisode n else s

/-- R32, R39: the writer of a line leaves the episode wait list and proceeds when it has no one left to recall. -/
def State.episodeWaitCheck (s : State) (k : Nat) : State :=
  match (s.line k).writer with
  | none => s
  | some w =>
    match s.request w with
    | none => s
    | some r =>
      if s.episodeWait.contains w ∧ (s.recallSet k r.channel).isEmpty then
        (s.setEpisodeWait (leaveList w s.episodeWait)).proceed w
      else s

/-! ### Dropping a hold (R32) -/

/-- R32, step 2: the channel leaves the pending set of the line's open episode. -/
def State.leavePending (s : State) (c : Nat) : Option Nat → State
  | none => s
  | some n =>
    match s.episode n with
    | none => s
    | some ep =>
      if ep.waiting.contains c then
        (s.setEpisode n (some { ep with waiting := leaveList c ep.waiting })).later [.episodeCheck n]
      else s

/-- R32: a channel's hold on a line is dropped. The close of an emptied episode, the writer that has no one left to recall and the offer of an
evictable line follow within the step, in this order, after the rest of what dropped the hold (at a fence or a close, after the channel's PARKED
requests have ended: log 32). -/
def State.dropHold (s : State) (c k : Nat) : State :=
  let ln := s.line k
  let t := s.updLine k (fun x => { x with holders := leaveList c x.holders })
  let t := t.updChannel c (fun x => { x with holdCount := x.holdCount - 1 })
  let t := t.leavePending c ln.episode
  let t := match ln.writer with
    | some w => if t.episodeWait.contains w then t.later [.episodeWaitCheck k] else t
    | none => t
  t.noteEvictable k

/-- R46: every hold of a channel is dropped. -/
def State.dropAllHolds (s : State) (c : Nat) : State :=
  s.forEach ((s.lines.filter (fun p => p.2.holders.contains c)).map (·.1)) (fun k t => t.dropHold c k)

/-! ### Deciding a hold (R30, R31) -/

/-- What RU decides on a request with the hold flag. -/
inductive Hold where
  /-- HOLD_REFUSED -/
  | refused
  /-- HOLD_GRANTED, the channel holds the line already -/
  | confirmed
  /-- HOLD_GRANTED, the channel joins the holder set -/
  | granted
  deriving DecidableEq, Repr

/-- R30, R31: the last test: the hold count against the quota. -/
def Channel.quotaHold (x : Channel) : Hold := if x.holdQuota ≤ x.holdCount then .refused else .granted

/-- R30: the decision for a READ on line `k`, by the tests in their order. -/
def State.readHold (s : State) (r : Request) (k : Nat) : Hold :=
  let ln := s.line k
  if (s.channel r.channel).state ≠ .open then .refused
  else if (s.unit r.key.unit).discarding then .refused
  else if ln.state = .free ∨ ln.key ≠ some r.key then .refused
  else if ln.holders.contains r.channel then .confirmed
  else if ln.writer.isSome ∨ ln.currentSlot ≠ r.delivered then .refused
  else (s.channel r.channel).quotaHold

/-- R31: the decision for a WRITE on line `k`: the tests of R30 without the third and the fifth. -/
def State.writeHold (s : State) (r : Request) (k : Nat) : Hold :=
  if (s.channel r.channel).state ≠ .open then .refused
  else if (s.unit r.key.unit).discarding then .refused
  else if (s.line k).holders.contains r.channel then .confirmed
  else (s.channel r.channel).quotaHold

/-- R30, R31: the effect of a decision. -/
def State.applyHold (s : State) (c k : Nat) : Hold → State
  | .refused | .confirmed => s
  | .granted =>
    (s.updLine k (fun x => { x with holders := joinSet c x.holders })).updChannel c
      (fun x => { x with holdCount := x.holdCount + 1 })

/-- R153: the two hold flags of a decision. -/
def Hold.flags (f : Flags) : Hold → Flags
  | .refused => { f with refused := true }
  | .confirmed | .granted => { f with granted := true }

end Sys2Proof.Machine
end

