-- ==== Sys2Proof/Machine/Ending.lean ====
section
/-! DEFINITION. Ending parked requests (R149), a channel leaving OPEN (R169, R172), fences (R169, R170), notices (R166, R167), and
recall episodes opening (R37, R38). -/

namespace Sys2Proof.Machine

/-! ### Ending parked requests (R149) -/

/-- R26: a request taken off a line's wait list; if it was the head, the list is served. -/
def State.leaveLineList (s : State) (e k : Nat) : State :=
  let wasHead := (s.line k).waitList.head? == some e
  let t := s.updLine k (fun x => { x with waitList := leaveList e x.waitList })
  let t := if wasHead then t.noteServe k else t
  t.noteEvictable k

/-- R21, R22, R26, R39, R41, R93, R104, R148: a parked request leaves its list, by the departure rule of the list. -/
def State.depart (s : State) (e : Nat) (r : Request) : State :=
  match r.place with
  | .routed | .active | .done => s
  | .parked .setWait =>
    let set := s.setOfKey r.key
    s.setWaiters set (leaveList e (s.waiters set))
  | .parked .slotWait =>
    let t := s.setSlotWait (leaveList e s.slotWait)
    match r.line with
    | some k => t.endWritePhase k
    | none => t
  | .parked .lineWait =>
    match r.line with
    | some k => s.leaveLineList e k
    | none => s
  | .parked (.episode n) =>
    match r.line with
    | some k => (s.freeEpisode n).endWritePhase k
    | none => s.freeEpisode n
  | .parked .episodeWait =>
    let t := s.setEpisodeWait (leaveList e s.episodeWait)
    match r.line with
    | some k => t.endWritePhase k
    | none => t
  | .parked .surveyQueue => s.updUnit r.record.unit (fun x => { x with surveyQueue := leaveList e x.surveyQueue })
  | .parked .barrierList => s.updUnit r.record.unit (fun x => { x with barriers := x.barriers.filter (·.entry != e) })
  | .parked .fetchHold => s.updChannel r.channel (fun x => { x with fetchHold := none })

/-- R92: the epoch a parked request carries when it is ended: a FLUSH its barrier epoch, any other request 0. -/
def State.barrierEpoch (s : State) (e : Nat) (r : Request) : Epoch :=
  match r.place with
  | .parked .barrierList => (((s.unit r.record.unit).barriers.find? (·.entry == e)).map Barrier.epoch).getD 0
  | .parked .setWait | .parked .slotWait | .parked .lineWait | .parked (.episode _) | .parked .episodeWait | .parked .surveyQueue
  | .parked .fetchHold | .routed | .active | .done => 0

/-- Whether a request is PARKED (R140). -/
def Request.isParked (r : Request) : Bool :=
  match r.place with
  | .parked _ => true
  | .routed | .active | .done => false

/-- R149: one parked request taken off its list and completed. -/
def State.endParked (s : State) (e : Nat) (status : Status) : State :=
  match s.request e with
  | none => s
  | some r => if r.isParked then (s.depart e r).complete e { status, epoch := s.barrierEpoch e r } else s

/-- R149: the order of ending: ascending channel, then order of arrival. -/
def endsBefore (a b : Nat × Request) : Bool :=
  decide (a.2.channel < b.2.channel ∨ a.2.channel = b.2.channel ∧ a.2.arrival < b.2.arrival)

/-- R149: the parked requests that satisfy `p`, in the order of ending. -/
def State.parkedWhere (s : State) (p : Request → Bool) : List Nat :=
  (sortBy endsBefore (s.held.filter (fun x => x.2.isParked && p x.2))).map (·.1)

/-- R149: every parked request that satisfies `p` is ended; what the departures set in motion runs after the last of them. -/
def State.endAllParked (s : State) (p : Request → Bool) (status : Status) : State :=
  s.forEach (s.parkedWhere p) (fun e t => t.endParked e status)

/-! ### A channel leaving OPEN, and fences -/

/-- R169, step 5; R170: a channel behaves as under COMPLETION_POST_ERROR, and the records of its post queue are discarded. -/
def State.enterPostError (s : State) (c : Nat) : State :=
  let queue := (s.channel c).postQueue
  (s.updChannel c (fun x => { x with postError := true, postQueue := [] })).forEach queue (fun e t => t.discardRecord e)

/-- R169, steps 2 to 4; R172: the holds dropped, the backlog emptied, the parked requests ended. What the drops set in motion (R19, R39, R40)
runs after step 4, before what the departures of step 4 set in motion (log 32). -/
def State.stopService (s : State) (c : Nat) (status : Status) : State :=
  let t := s.dropAllHolds c
  let t := t.updChannel c (fun x => { x with backlog := [] })
  t.endAllParked (fun r => r.channel == c) status

/-- R169, R170: a fence cause is taken for a data channel. Channel 0 is never fenced (R158). -/
def State.fence (s : State) (c : Nat) (cause : FenceCause) : State :=
  if c = 0 then s else
  match (s.channel c).state with
  | .open =>
    let t := s.updChannel c (fun x => { x with state := .fencing, cause })
    let t := t.stopService c .fenced
    (if cause = .completionPostError then t.enterPostError c else t).noteDrain c
  | .closing =>
    if cause = .completionPostError ∨ cause = .badHead then
      let t := s.updChannel c (fun x => { x with state := .fencing, cause, closePending := true })
      (if cause = .completionPostError then t.enterPostError c else t).noteDrain c
    else s
  | .fencing => if cause = .completionPostError then (s.enterPostError c).noteDrain c else s
  | .closed | .fenced => s

/-! ### Notices (R166, R167) -/

/-- R167: the number of entries at which a channel's backlog is full. -/
def backlogLimit (c : Nat) : Nat := if c = 0 then Config.adminBacklog else Config.dataBacklog

/-- R166, R167: a notice joins the tail of a channel's backlog; on a full backlog a data channel is fenced with NOTICE_OVERRUN, and channel 0
drops the notice and counts it. -/
def State.queueNotice (s : State) (c : Nat) (n : Notice) : State :=
  if s.part = .failed ∨ (s.channel c).state ≠ .open then s
  else if (s.channel c).backlog.length < backlogLimit c then
    s.updChannel c (fun x => { x with backlog := x.backlog ++ [n] })
  else if c = 0 then s.updChannel 0 (fun x => { x with lost := min Config.lostLimit (x.lost + 1) })
  else s.fence c .noticeOverrun

/-- R43, R48, R49: a notice for each of some channels, in the order given. -/
def State.queueToEach (s : State) (cs : List Nat) (n : Notice) : State := s.forEach cs (fun c t => t.queueNotice c n)

/-! ### Opening an episode (R37 to R39) -/

/-- R42: the recall timeout in force. -/
def State.recallTimeout (s : State) : Nat := (s.params.map Params.recallTimeout).getD 0

/-- R37, R38: an episode opens with record `n` for the writer in `e`; the RECALLs are queued in ascending channel order, and if no one is
left in the pending set the episode closes at once. -/
def State.openEpisode (s : State) (e k n : Nat) (r : Request) (others : List Nat) : State :=
  let ep : Episode := { key := r.key, line := k, writer := e, writerChannel := r.channel, recalled := others, waiting := others,
                        deadline := s.now + s.recallTimeout }
  let t := ((s.setEpisode n (some ep)).updLine k (fun x => { x with episode := some n })).park e (.episode n)
  (t.queueToEach others (.recall r.key n)).episodeCheck n

/-- R37: the lowest-numbered free episode record. -/
def State.freeEpisodeRecord (s : State) : Option Nat := firstFrom (fun n => (s.episode n).isNone) Config.episodes 0

/-- R37: RU takes a new writer of a line that is not LOADING. -/
def State.takeWriter (s : State) (e k : Nat) : State :=
  match s.request e with
  | none => s
  | some r =>
    let others := s.recallSet k r.channel
    if others.isEmpty then s.proceed e
    else match s.freeEpisodeRecord with
      | some n => s.openEpisode e k n r others
      | none => (s.setEpisodeWait (s.episodeWait ++ [e])).park e .episodeWait

/-- R39: a record has become free: the head of the episode wait list leaves it and opens an episode, its recall set formed afresh. A head
whose recall set a drop of this step has emptied leaves by the second way and uses no record, so the next head is taken for it. -/
def State.episodeFreed (s : State) : State :=
  match s.episodeWait with
  | [] => s
  | e :: rest =>
    match s.freeEpisodeRecord, s.request e with
    | some _, some r =>
      match r.line with
      | some k =>
        let t := s.setEpisodeWait rest
        if (s.recallSet k r.channel).isEmpty then (t.proceed e).soon [.episodeFreed] else t.takeWriter e k
      | none => s
    | _, _ => s

/-- R24: a WRITE becomes the writer of a line that is not LOADING, and RU takes it. -/
def State.becomeWriter (s : State) (e k : Nat) : State :=
  ((s.updLine k (fun x => { x with writer := some e })).updRequest e (fun r => { r with line := some k })).takeWriter e k

/-! ### Revocation (R43, R44) -/

/-- R43: one channel still pending is revoked. -/
def State.revoke (s : State) (n : Nat) (ep : Episode) (c : Nat) : State :=
  let t := s.dropHold c ep.line
  let t := t.queueNotice c (.revoked ep.key n)
  let count := min Config.revokeCeiling ((t.channel c).revokeCount + 1)
  let reached := decide ((t.channel c).revokeCount < count ∧ (t.channel c).revokeLimit ≠ 0 ∧ count = (t.channel c).revokeLimit)
  let t := t.updChannel c (fun x => { x with revokeCount := count })
  if reached then t.fence c .revokeLimit else t

/-- R43: the deadline of an open episode expires. Every pending channel is revoked, in ascending order, before what a fence of one of them has
set in motion runs (log 29). -/
def State.expireEpisode (s : State) (n : Nat) : State :=
  match s.episode n with
  | none => s
  | some ep => s.forEach ep.waiting (fun c t => t.revoke n ep c)

end Sys2Proof.Machine
end

