-- ==== Sys2Proof/Machine/Directory.lean ====
section
/-! DEFINITION. LD's way of a READ or WRITE through the directory (Chapters 1 and 3): arrival at a line, read transfers, allocation and
eviction, the three wait lists, service of a line, re-dispatch, and the outcomes of fills and of host transfers. -/

namespace Sys2Proof.Machine

/-! ### At a line (R23, R25, R59) -/

/-- R59: a READ's read transfer starts from a line's current slot. -/
def State.startRead (s : State) (e k : Nat) : State :=
  match s.request e, (s.line k).currentSlot with
  | some r, some slot =>
    let started := { r with place := .active, line := some k, delivered := some slot, captured := some (s.line k).mark }
    ((s.takeRef slot).setRequest e (some started)).touch k
  | some _, none | none, _ => s

/-- R23, R52: a request joins the tail of a line's wait list; on a FILLING line its miss indicator is set. -/
def State.joinLine (s : State) (e k : Nat) : State :=
  let filling := (s.line k).state == .filling
  (s.updLine k (fun x => { x with waitList := x.waitList ++ [e] })).updRequest e
    (fun r => { r with place := .parked .lineWait, line := some k, miss := r.miss || filling })

/-- R4: whether READs are not served from a line yet. -/
def LineState.loadsData : LineState → Bool
  | .filling | .loading => true
  | .free | .clean | .dirty | .flushing | .reflush | .stranded => false

/-- R23: a READ or WRITE arrives at a line. -/
def State.arrive (s : State) (e k : Nat) : State :=
  let ln := s.line k
  let waits := ln.state.loadsData || !ln.waitList.isEmpty
  match (s.request e).bind Request.kind with
  | some .read => if waits then s.joinLine e k else s.startRead e k
  | some .write => if waits || ln.writer.isSome then s.joinLine e k else s.becomeWriter e k
  | _ => s

/-- R25: service of the entries `ws` of a line's wait list, in their order. -/
def State.serveList (k : Nat) : List Nat → State → State
  | [], s => s.updLine k (fun x => { x with waitList := [] })
  | e :: ws, s =>
    let t := s.updLine k (fun x => { x with waitList := ws })
    match (s.request e).bind Request.kind with
    | some .read => State.serveList k ws (t.startRead e k)
    | some .write => t.becomeWriter e k
    | _ => State.serveList k ws t

/-- R25: LD serves a line's wait list, when its three conditions hold. -/
def State.serveLine (s : State) (k : Nat) : State :=
  let ln := s.line k
  if ln.state = .free ∨ ln.state.loadsData ∨ ln.writer.isSome ∨ ln.waitList.isEmpty then s
  else State.serveList k ln.waitList s

/-! ### Wait lists of sets (R18, R20) -/

/-- R18: whether request `a` of a set wait list first joined after the join numbered `j`. -/
def State.joinedAfter (s : State) (j a : Nat) : Bool :=
  match (s.request a).bind Request.joined with
  | some i => decide (j < i)
  | none => false

/-- R18: a request joins, or rejoins, its set's wait list. -/
def State.joinSetWait (s : State) (e : Nat) (r : Request) : State :=
  let set := s.setOfKey r.key
  match r.joined with
  | none =>
    let timeout := (s.params.map Params.setWaitTimeout).getD 0
    let waiting := { r with place := .parked .setWait, deadline := some (s.now + timeout), joined := some s.joins }
    ((s.setWaiters set (s.waiters set ++ [e])).setRequest e (some waiting)).setJoins (s.joins + 1)
  | some j =>
    if r.deadline.any s.due then s.complete e { status := .noLine }
    else (s.setWaiters set (insertBy (fun _ a => s.joinedAfter j a) e (s.waiters set))).park e .setWait

/-- R20: the requests of a set's wait list with a key join the new line for it, in their order; their deadlines no longer apply. (log 13) -/
def State.moveSameKey (s : State) (set k : Nat) (key : Key) : State :=
  let same := fun e => (s.request e).any (fun r => r.key == key)
  let movers := (s.waiters set).filter same
  movers.foldl (fun t e => (t.joinLine e k).updRequest e (fun r => { r with deadline := none }))
    (s.setWaiters set ((s.waiters set).filter (fun e => !same e)))

/-! ### Allocation (R17) -/

/-- R5, R17: a READ's new line: the way goes to FILLING and joins its unit's fill queue. -/
def State.claimFill (s : State) (e k slot : Nat) (r : Request) : State :=
  let t := s.putLine k { state := .filling, key := some r.key, currentSlot := some slot, waitList := [e] }
  let t := (t.setRef slot 1).setRequest e
    (some { r with place := .parked .lineWait, line := some k, miss := true, deadline := none })
  let t := (t.touch k).updUnit r.key.unit (fun x => { x with fillQueue := x.fillQueue ++ [k] })
  (t.later [.select r.key.unit]).moveSameKey (setOfLine k) k r.key

/-- R6, R17: a WRITE's new line: the way goes to LOADING with the WRITE as its writer, and its host transfer starts. -/
def State.claimLoad (s : State) (e k slot : Nat) (r : Request) : State :=
  let t := s.putLine k { state := .loading, key := some r.key, currentSlot := some slot, writer := some e }
  let t := (t.setRef slot 2).setRequest e (some { r with line := some k, miss := true, deadline := none })
  ((t.startWriteTransfer e slot).touch k).moveSameKey (setOfLine k) k r.key

/-- R17: a FREE way, or a way just evicted, and a slot are taken for a request. -/
def State.claim (s : State) (e k slot : Nat) (r : Request) : State :=
  if r.kind = some .read then s.claimFill e k slot r else s.claimLoad e k slot r

/-- R17, R53: whether a READ meets a unit that is not READY where the medium is needed. (log 24) -/
def State.needsUnit (s : State) (r : Request) : Bool :=
  r.kind == some .read && (s.unit r.key.unit).state != .ready

/-- R17: allocation for a request whose key missed; `hand` is a slot given to it by the slot wait list (R22). -/
def State.allocate (s : State) (e : Nat) (hand : Option Nat) (r : Request) : State :=
  let set := s.setOfKey r.key
  if s.needsUnit r then (s.complete e { status := .unitNotReady }).dropSlot hand
  else
    let freeWay := s.leastRecent set (fun k => (s.line k).state == .free)
    match freeWay, hand.or s.freeSlot with
    | some k, some slot => s.claim e k slot r
    | _, _ =>
      match s.leastRecent set s.evictable with
      | some k =>
        match (s.line k).currentSlot with
        | some slot => ((s.putLine k {}).claim e k slot r).dropSlot hand
        | none => s.dropSlot hand
      | none =>
        if freeWay.isSome then (s.setSlotWait (s.slotWait ++ [e])).park e .slotWait
        else (s.joinSetWait e r).dropSlot hand

/-- R53, R54, R55, R22: a READ or WRITE performs its lookup and arrives at the line or goes to allocation. -/
def State.toDirectory (s : State) (e : Nat) (hand : Option Nat) : State :=
  match s.request e with
  | none => s.dropSlot hand
  | some r =>
    match s.lookup r.key with
    | some k => (s.arrive e k).dropSlot hand
    | none => s.allocate e hand r

/-- R55: a request of a failed line performs its lookup afresh. -/
def State.redispatch (s : State) (e : Nat) : State :=
  (s.updRequest e (fun r => { r with place := .routed, line := none })).toDirectory e none

/-- R19: the head of a set wait list re-attempts allocation; if it leaves the list, the new head follows. -/
def State.reattempt (s : State) (set : Nat) : State :=
  match s.waiters set with
  | [] => s
  | e :: rest =>
    match s.request e with
    | none => (s.setWaiters set rest).soon [.reattempt set]
    | some r =>
      if s.needsUnit r ∨ (s.leastRecent set (fun k => (s.line k).state == .free)).isSome ∨ (s.leastRecent set s.evictable).isSome then
        ((s.setWaiters set rest).soon [.reattempt set]).allocate e none r
      else s

/-- R16, R19: if a line is evictable, its set's waiters re-attempt. -/
def State.evictCheck (s : State) (k : Nat) : State := if s.evictable k then s.reattempt (setOfLine k) else s

/-- R22: a slot is given to a request that left the slot wait list for it: a writer starts its host transfer, an allocation runs again from
its lookup. A request that has ended in between leaves the slot to the next. -/
def State.slotGiven (s : State) (e slot : Nat) : State :=
  match s.request e with
  | none => s.dropRef slot
  | some r =>
    if r.place ≠ .parked .slotWait then s.dropRef slot
    else if r.line.isSome then s.startWriteTransfer e slot
    else s.toDirectory e (some slot)

/-! ### Fill outcomes (R5, R26, R56 to R58) -/

/-- R26: the entries of a line's wait list handed on: until its turn comes each is between lists, and counts as ROUTED (log 31). -/
def State.unparkAll (s : State) (es : List Nat) : State :=
  es.foldl (fun t e => t.updRequest e (fun r => { r with place := .routed, line := none })) s

/-- R5: LD takes a fill's outcome. -/
def State.fillOutcome (s : State) (k : Nat) (status : Status) (mark : Mark) : State :=
  let ln := s.line k
  if ln.state ≠ .filling then s
  else if status = .success then
    (((s.putLine k { ln with state := .clean, mark }).touch k).serveLine k).noteEvictable k
  else
    ((s.unparkAll ln.waitList).soon (ln.waitList.map (fun e => Work.handOn e status) ++ [.reattempt (setOfLine k)])).freeLine k

/-- R58: an entry of a failed fill is handed on: a READ completes with the fill's status, a WRITE is re-dispatched. -/
def State.handOn (s : State) (e : Nat) (status : Status) : State :=
  match (s.request e).bind Request.kind with
  | some .read => s.complete e { status }
  | some .write => s.redispatch e
  | _ => s

/-! ### Host transfers (R60, R61, R65, R66) -/

/-- R67, R153: the flags of a READ or WRITE that completes with SUCCESS, before the hold flags. -/
def Request.successFlags (r : Request) : Flags := { hit := !r.miss, retired := r.captured == some .retired }

/-- R30, R31, R153: the flags with those of a hold decision, if the request carried the hold flag. -/
def Request.holdFlags (r : Request) (h : Hold) (f : Flags) : Flags := if r.record.hold then h.flags f else f

/-- R179: an awaited read transfer of a waiting detach has ended. -/
def State.endAwaited (s : State) (u e : Nat) : State :=
  match (s.unit u).detach with
  | none => s
  | some d =>
    if d.awaited.contains e then
      let t := s.updUnit u (fun x => { x with detach := some { d with awaited := leaveList e d.awaited } })
      if (leaveList e d.awaited).isEmpty then t.later [.detachTest u] else t
    else s

/-- R60, R61, R182: what the end of a READ or WRITE of a unit means to a detach or a discard that waits. -/
def State.noteTransferEnd (s : State) (e u : Nat) : State := (s.endAwaited u e).noteDiscard u

/-- R59, R60, R61: the writes of a read transfer to the host buffer, which got `error` bytes far, or to their end (log 4). -/
def State.deliver (s : State) (r : Request) (slot : Nat) (error : Option Nat) : State :=
  s.emitWrite r.record.buffer.toNat (s.slotData slot) error

/-- R60: a read transfer has completed: the hold is decided, the reference dropped, and the READ completes. -/
def State.readComplete (s : State) (e : Nat) (r : Request) (k slot : Nat) : State :=
  let hold := if r.record.hold then s.readHold r k else .refused
  let t := s.applyHold r.channel k hold
  let t := t.soon [.complete e { status := .success, flags := r.holdFlags hold r.successFlags }, .evictCheck k]
  (t.dropRef slot).noteTransferEnd e r.key.unit

/-- R61: a read transfer has ended with an error: the reference is dropped, and the READ completes without a hold. -/
def State.readError (s : State) (e : Nat) (r : Request) (k slot : Nat) : State :=
  let t := s.soon [.complete e { status := .hostTransferError }, .evictCheck k]
  (t.dropRef slot).noteTransferEnd e r.key.unit

/-- R6, R7: the record of a line after a swap has installed `slot`, with the unit's current epoch. -/
def Line.swapped (ln : Line) (slot : Nat) (epoch : Epoch) : Line :=
  let ln' := { ln with currentSlot := some slot, mark := .data }
  match ln.state with
  | .clean | .stranded | .loading => { ln' with state := .dirty, dirtyEpoch := some epoch, failures := 0, flushSource := none }
  | .flushing => { ln' with state := .reflush, dirtyEpoch := some epoch, sourceEpoch := ln.dirtyEpoch }
  | .free | .filling | .dirty | .reflush => ln'

/-- R7, R65, step 1: the swap. On a LOADING line the staging slot, already current, loses its transfer reference; on any other the slot
that was current loses its reference and the staging slot's transfer reference becomes its current-slot reference. -/
def State.swap (s : State) (k slot : Nat) (epoch : Epoch) : State :=
  let ln := s.line k
  let t := (s.putLine k (ln.swapped slot epoch)).touch k
  if ln.state = .loading then t.dropRef slot else t.dropSlot ln.currentSlot

/-- R65: a WRITE's host transfer has completed with `data` in its staging slot. -/
def State.writeComplete (s : State) (e : Nat) (r : Request) (k slot : Nat) (data : List Byte) : State :=
  let t := s.setStore (Memory.writeBytes s.store (slot * Config.slotBytes) (data.take Config.slotBytes))
  let t := t.soon [.afterSwap e]
  (t.swap k slot (s.unit r.key.unit).epoch).noteTransferEnd e r.key.unit

/-- R65, steps 2 to 4: the hold is decided, the WRITE completes, and the write phase ends. -/
def State.afterSwap (s : State) (e : Nat) : State :=
  match s.request e with
  | none => s
  | some r =>
    match r.line with
    | none => s
    | some k =>
      let hold := if r.record.hold then s.writeHold r k else .refused
      let t := s.applyHold r.channel k hold
      let t := t.complete e { status := .success, flags := r.holdFlags hold { hit := !r.miss } }
      (t.updLine k (fun x => { x with writer := none })).serveLine k

/-- R66: a WRITE's host transfer has ended with an error after `placed` was placed in its staging slot. (log 18) -/
def State.writeError (s : State) (e : Nat) (r : Request) (k slot : Nat) (placed : List Byte) : State :=
  let ln := s.line k
  let t := s.setStore (Memory.writeBytes s.store (slot * Config.slotBytes) (placed.take Config.slotBytes))
  let failed : Work := .complete e { status := .hostTransferError }
  let t := if ln.state = .loading then
      let t := (t.unparkAll ln.waitList).soon (failed :: ln.waitList.map Work.redispatch ++ [.reattempt (setOfLine k)])
      (t.dropRef slot).freeLine k
    else (t.soon [failed, .endWritePhase k]).dropRef slot
  t.noteTransferEnd e r.key.unit

end Sys2Proof.Machine
end

