-- ==== Sys2Proof/Machine/WriteBack.lean ====
section
/-! DEFINITION. WB (Chapter 4): the outcome of a flush, FLUSH and its barriers, epochs kept within reach of their counter, and urgency. -/

namespace Sys2Proof.Machine

/-! ### Flush outcomes (R9, R82 to R85) -/

/-- R82: the classes of a flush outcome. -/
inductive FlushClass where
  | success | counted | shielded | notReady
  deriving DecidableEq, Repr

/-- R82: the class of a status. A flush reports no status but those of R130. -/
def flushClass : Status → FlushClass
  | .success => .success
  | .writeProtected => .shielded
  | .unitNotReady => .notReady
  | _ => .counted

/-- R9: the epoch a line keeps when its flush has not succeeded: the epoch of the data that did not reach the medium. -/
def Line.unflushedEpoch (ln : Line) : Option Epoch := if ln.state = .reflush then ln.sourceEpoch else ln.dirtyEpoch

/-- R9, R84: the record of a line after a flush outcome of a class. -/
def Line.afterFlush (ln : Line) (c : FlushClass) : Line :=
  let ended := { ln with flushSource := none, sourceEpoch := none }
  match c with
  | .success =>
    if ln.state = .reflush then { ended with state := .dirty, failures := 0 }
    else { ended with state := .clean, dirtyEpoch := none, failures := 0 }
  | .counted =>
    { ended with state := if ln.failures + 1 < 3 then .dirty else .stranded, failures := ln.failures + 1,
                 dirtyEpoch := ln.unflushedEpoch }
  | .shielded => { ended with state := .stranded, dirtyEpoch := ln.unflushedEpoch }
  | .notReady => { ended with state := .dirty, dirtyEpoch := ln.unflushedEpoch }

/-- R83: WB takes a flush outcome. -/
def State.flushOutcome (s : State) (k : Nat) (status : Status) : State :=
  let ln := s.line k
  if ln.state = .flushing ∨ ln.state = .reflush then
    let new := ln.afterFlush (flushClass status)
    let u := (ln.key.map Key.unit).getD 0
    let t := s.soon ((if new.state = .stranded then [.stranded k status] else []) ++ [.retest u, .evictCheck k])
    (t.putLine k new).dropSlot ln.flushSource
  else s

/-- R85: LINE_STRANDED is queued to channel 0 for a line that has gone to STRANDED. -/
def State.noteStranded (s : State) (k : Nat) (status : Status) : State :=
  let ln := s.line k
  match ln.key with
  | some key => s.queueNotice 0 (.lineStranded key status ln.failures (ln.dirtyEpoch.getD 0))
  | none => s

/-! ### Barriers (R78, R89 to R92) -/

/-- R81, R89: whether a line's dirty epoch is at most `e`. -/
def Line.coveredBy (ln : Line) (e : Epoch) : Bool := ln.dirtyEpoch.any (fun d => epochAtMost d e)

/-- R89, step 3: whether a line of unit `u` makes a barrier of epoch `e` wait. -/
def Line.delays (ln : Line) (u : Nat) (e : Epoch) : Bool :=
  ln.key.any (·.unit == u) &&
  match ln.state with
  | .dirty | .flushing => ln.coveredBy e
  | .reflush => ln.coveredBy e || ln.sourceEpoch.any (fun d => epochAtMost d e)
  | .free | .filling | .loading | .clean | .stranded => false

/-- R89: whether any line of unit `u` makes a barrier of epoch `e` wait. -/
def State.barrierWaits (s : State) (u : Nat) (e : Epoch) : Bool := s.lines.any (fun p => p.2.delays u e)

/-- R89, R92: the number of STRANDED lines of unit `u` with an epoch at most `e`. -/
def State.strandedUnder (s : State) (u : Nat) (e : Epoch) : Nat :=
  (s.lines.filter (fun p => p.2.state == .stranded && p.2.key.any (·.unit == u) && p.2.coveredBy e)).length

/-- R89, R92: the completion of a FLUSH of epoch `e` that no line makes wait. -/
def State.flushCompletion (s : State) (u : Nat) (e : Epoch) : Completion :=
  let n := s.strandedUnder u e
  { status := if n = 0 then .success else .incomplete, count := n, epoch := e }

/-- R91: the re-test of the barriers `bs` of unit `u`, from the oldest, up to the first that does not complete. -/
def State.retestList (u : Nat) : List Barrier → State → State
  | [], s => s
  | b :: bs, s =>
    if s.barrierWaits u b.epoch then s
    else
      let t := s.updUnit u (fun x => { x with barriers := bs })
      State.retestList u bs (t.complete b.entry (t.flushCompletion u b.epoch))

/-- R91: WB re-tests a unit's barrier list. -/
def State.retest (s : State) (u : Nat) : State := State.retestList u (s.unit u).barriers s

/-- R78: the epochs of a line of unit `u` kept within reach of the counter. -/
def Line.adjustEpochs (ln : Line) (u : Nat) (c : Epoch) : Line :=
  if ln.key.any (·.unit == u) then
    match ln.state with
    | .dirty | .flushing | .reflush | .stranded =>
      { ln with dirtyEpoch := ln.dirtyEpoch.map (adjustEpoch c), sourceEpoch := ln.sourceEpoch.map (adjustEpoch c) }
    | .free | .filling | .loading | .clean => ln
  else ln

/-- R78: every epoch held on unit `u` kept within 2^30 of its counter. -/
def State.adjustEpochs (s : State) (u : Nat) : State :=
  let c := (s.unit u).epoch
  let t := s.updUnit u (fun x => { x with barriers := x.barriers.map (fun b => { b with epoch := adjustEpoch c b.epoch }) })
  t.setLines (t.lines.map (fun p => (p.1, p.2.adjustEpochs u c)))

/-- R89: WB takes a FLUSH for unit `u`. -/
def State.takeFlush (s : State) (e u : Nat) : State :=
  let epoch := (s.unit u).epoch
  let t := (s.updUnit u (fun x => { x with epoch := x.epoch + 1 })).adjustEpochs u
  if t.barrierWaits u epoch then
    (t.updUnit u (fun x => { x with barriers := x.barriers ++ [⟨e, epoch⟩] })).park e .barrierList
  else t.complete e (t.flushCompletion u epoch)

/-! ### Urgency (R81) -/

/-- R81: whether a line of a flush list is urgent now. -/
def State.urgent (s : State) (u : Nat) (f : FlushEntry) : Bool :=
  !(s.waiters (setOfLine f.line)).isEmpty
  || (match (s.unit u).barriers with | b :: _ => (s.line f.line).coveredBy b.epoch | [] => false)
  || s.part == .quiescing
  || s.pressure

end Sys2Proof.Machine
end

