-- ==== Sys2Proof/Machine/Sequencer.lean ====
section
/-! DEFINITION. The unit sequencers (Chapters 5 and 6): the end of an operation, selection of work, positioning and verification, the
header search, reading and writing a data field, and surveys. -/

namespace Sys2Proof.Machine

/-! ### The operation in flight (R102, R111) -/

/-- The operation in flight changed, if there is one. -/
def State.updOp (s : State) (u : Nat) (f : Operation → Operation) : State :=
  s.updUnit u (fun x => { x with op := x.op.map f })

/-- R111: the response deadline set, counted from now. -/
def State.setDeadline (s : State) (u : Nat) : State :=
  s.updOp u (fun o => { o with deadline := s.now + Config.responseLimit })

/-- R98: the sequencer enters a state; R111: the response deadline is set. -/
def State.enter (s : State) (u : Nat) (q : SeqState) : State := (s.updUnit u (fun x => { x with seq := q })).setDeadline u

/-- R100: the write gate turned off if it is on. -/
def State.closeGate (s : State) (u : Nat) : State :=
  if (s.unit u).writeGate then (s.updUnit u (fun x => { x with writeGate := false })).emit (.writeGateOff u) else s

/-- R101, R110, R111: the position is no longer known. -/
def State.loseHead (s : State) (u : Nat) : State := s.updUnit u (fun x => { x with believed := none, lastHeader := none })

/-- R102, R135: the outcome of an operation goes to LD, WB or RT. -/
def State.report (s : State) (u : Nat) (op : Operation) (status : Status) (mark : Mark) : State :=
  match op.subject with
  | .fill k => s.soon [.fillOutcome k status mark, .select u]
  | .flush k => s.soon [.flushOutcome k status, .select u]
  | .survey e =>
    if status = .success then
      (s.updRequest e (fun r => { r with survey := some ⟨op.entries, op.overflow⟩ })).soon [.select u]
    else s.soon [.complete e { status }, .select u]

/-- R102, R115: the operation in flight ends with a status (and, for a fill that succeeds, a mark). In FAILED its outcome is not taken. -/
def State.endOp (s : State) (u : Nat) (status : Status) (mark : Mark := .data) : State :=
  match (s.unit u).op with
  | none => s
  | some op =>
    let t := (s.closeGate u).updUnit u
      (fun x => { x with op := none, seq := .idle, verifyPending := x.verifyPending || status != .success })
    if s.part = .failed then t else (t.report u op status mark).noteDiscard u

/-- R108 to R111, R121: an operation ends with SEEK_ERROR and the position is no longer known. -/
def State.seekError (s : State) (u : Nat) : State := (s.loseHead u).endOp u .seekError

/-! ### Positioning (R107 to R110) -/

/-- R108: the sequencer enters HOMING and issues HOME, in FAILED too (log 30). -/
def State.startHoming (s : State) (u : Nat) : State :=
  ((s.updUnit u (fun x => { x with lastHeader := none })).enter u .homing).emit (.home u)

/-- R109: the sequencer enters POSITIONING and issues MOVE to the target track, in FAILED too (log 30). -/
def State.startMove (s : State) (u track : Nat) : State :=
  ((s.updUnit u (fun x => { x with lastHeader := none })).enter u .positioning).emit (.move u track)

/-- R110: the sequencer enters VERIFYING with no index pass counted. -/
def State.startVerify (s : State) (u : Nat) : State := (s.updOp u (fun o => { o with indexCount := 0 })).enter u .verifying

/-- R119, R131: the position is established: the search, or the survey's waiting phase, begins. -/
def State.startSearch (s : State) (u : Nat) (op : Operation) : State :=
  match op.subject with
  | .fill _ | .flush _ => (s.updOp u (fun o => { o with indexCount := 0, checkMiss := false })).enter u .searching
  | .survey _ => (s.updOp u (fun o => { o with recording := false })).enter u .surveying

/-- R107: an operation starts: the surface is selected, then the first condition that applies decides. -/
def State.beginOp (s : State) (u : Nat) (op : Operation) : State :=
  let x := s.unit u
  let t := if x.selectedSurface = some op.surface then s
    else (s.updUnit u (fun y => { y with selectedSurface := some op.surface })).emit (.select u op.surface)
  match x.believed with
  | none => t.startHoming u
  | some track =>
    if track ≠ op.track then t.startMove u op.track
    else if x.verifyPending then t.startVerify u
    else t.startSearch u op

/-! ### Selection of work (R105, R106) -/

/-- R106: the rotational distance from a last header seen `h` to a sector. -/
def rotationalDistance (sectors h sector : Nat) : Int :=
  if h < sector then (sector : Int) - h else (sector : Int) - h + sectors

/-- R106, step 2: the better of two candidates on the believed track. -/
def onTrackBetter (sectors : Nat) (lastHeader : Option Nat) (a b : FlushEntry) : Bool :=
  match lastHeader with
  | some h =>
    let da := rotationalDistance sectors h a.key.sector
    let db := rotationalDistance sectors h b.key.sector
    decide (da < db ∨ da = db ∧ a.key.surface < b.key.surface)
  | none => decide (a.key.sector < b.key.sector ∨ a.key.sector = b.key.sector ∧ a.key.surface < b.key.surface)

/-- R106, step 3: the candidate on the nearest track ahead in a direction, the lowest surface and sector within it. -/
def ahead (track : Nat) (d : Sweep) (l : List FlushEntry) : Option FlushEntry :=
  match d with
  | .up => bestBy FlushEntry.before (l.filter (fun f => decide (track < f.key.track)))
  | .down =>
    bestBy (fun a b => decide (b.key.track < a.key.track ∨ a.key.track = b.key.track ∧
        (a.key.surface < b.key.surface ∨ a.key.surface = b.key.surface ∧ a.key.sector < b.key.sector)))
      (l.filter (fun f => decide (f.key.track < track)))

/-- The other direction. -/
def Sweep.reverse : Sweep → Sweep
  | .up => .down
  | .down => .up

/-- R106: the candidate chosen in a class, and the sweep direction after the choice. -/
def chooseFlush (x : UnitRec) (l : List FlushEntry) : Option (FlushEntry × Sweep) :=
  match x.believed with
  | none => (bestBy FlushEntry.before l).map (fun f => (f, Sweep.up))
  | some track =>
    let sectors := (x.geometry.map Geometry.sectors).getD 0
    match bestBy (onTrackBetter sectors x.lastHeader) (l.filter (fun f => f.key.track == track)) with
    | some f => some (f, x.sweep)
    | none =>
      match ahead track x.sweep l with
      | some f => some (f, x.sweep)
      | none => (ahead track x.sweep.reverse l).map (fun f => (f, x.sweep.reverse))

/-- R125, R187: a sample of unit `u`'s protect line: a free value (log 2). -/
def State.protectLevel (s : State) (u : Nat) : Bool := Config.protectLine u s.protectSamples

/-- One sample of a protect line has been taken (log 2). -/
def State.countSample (s : State) : State := { s with protectSamples := s.protectSamples + 1 }

/-- R102: a new operation record. -/
def State.newOp (s : State) (subject : Subject) (track surface : Nat) (sector : Option Nat) : Operation :=
  { subject, track, surface, sector, deadline := s.now + Config.responseLimit }

/-- R8, R105, R125: a flush is selected: the line goes to FLUSHING and its slot takes a flush-source reference. With the protect line active it
ends with WRITE_PROTECTED; otherwise it starts. (log 14) -/
def State.startFlush (s : State) (u : Nat) (f : FlushEntry) (sweep : Sweep) : State :=
  let ln := s.line f.line
  let op := s.newOp (.flush f.line) f.key.track f.key.surface (some f.key.sector)
  let t := s.putLine f.line { ln with state := .flushing, flushSource := ln.currentSlot }
  let t := match ln.currentSlot with
    | some slot => t.takeRef slot
    | none => t
  let t := (t.updUnit u (fun x => { x with op := some op })).countSample
  if s.protectLevel u then t.endOp u .writeProtected
  else (t.updUnit u (fun x => { x with sweep })).beginOp u op

/-- R105: the fill at the head of the fill queue is selected. -/
def State.startFill (s : State) (u k : Nat) (rest : List Nat) : State :=
  let key := ((s.line k).key).getD ⟨u, 0, 0, 0⟩
  let op := s.newOp (.fill k) key.track key.surface (some key.sector)
  (s.updUnit u (fun x => { x with fillQueue := rest, op := some op })).beginOp u op

/-- R105, R131: the SURVEY at the head of the survey queue is selected and becomes ACTIVE. -/
def State.startSurvey (s : State) (u e : Nat) (rest : List Nat) : State :=
  match s.request e with
  | none => s.updUnit u (fun x => { x with surveyQueue := rest })
  | some r =>
    let op := s.newOp (.survey e) r.record.track.toNat r.record.surface.toNat none
    let t := (s.updUnit u (fun x => { x with surveyQueue := rest, op := some op })).updRequest e (fun r => { r with place := .active })
    t.beginOp u op

/-- R105: when a sequencer may run a selection. -/
def State.maySelect (s : State) (u : Nat) : Bool :=
  let x := s.unit u
  x.seq == .idle && x.op.isNone && x.state == .ready && !x.discarding && s.part != .failed

/-- R105: the sequencer runs a selection: the first of the four classes that offers anything. -/
def State.select (s : State) (u : Nat) : State :=
  if s.maySelect u then
    let x := s.unit u
    match chooseFlush x (x.flushList.filter (s.urgent u)) with
    | some (f, sweep) => s.startFlush u f sweep
    | none =>
      match x.fillQueue, x.surveyQueue with
      | k :: rest, _ => s.startFill u k rest
      | [], e :: rest => s.startSurvey u e rest
      | [], [] =>
        match chooseFlush x x.flushList with
        | some (f, sweep) => s.startFlush u f sweep
        | none => s
  else s

/-! ### The header search (R119 to R121) -/

/-- A header as a HEADER event carries it (R117). -/
structure Header where
  track : BitVec 16
  surface : Byte
  sector : Byte
  size : Byte
  check : BitVec 16
  deriving DecidableEq, Repr

/-- R118: whether a header's check is good. -/
def Header.good (h : Header) : Bool := headerCheckOf h.track h.surface h.sector h.size == h.check

/-- R120: whether a header matches the target of a search. -/
def Header.isTarget (h : Header) (o : Operation) : Bool :=
  h.track.toNat == o.track && h.surface.toNat == o.surface && o.sector == some h.sector.toNat && h.size == ownSizeCode

/-- R120, R132: the last header seen takes a good header's sector. -/
def State.seeHeader (s : State) (u : Nat) (h : Header) : State :=
  if h.good then s.updUnit u (fun x => { x with lastHeader := some h.sector.toNat }) else s

/-- R121: the status with which a search that has reached its limit ends its operation. -/
def Operation.searchStatus (o : Operation) : Status :=
  match o.subject with
  | .fill _ => if o.badData then .dataCheck else if o.checkMiss then .headerCheck else .sectorNotFound
  | .flush _ | .survey _ => if o.checkMiss then .headerCheck else .sectorNotFound

/-- R126: the write gate turned on with the data field of the line's flush source, in FAILED too (log 30). -/
def State.writeField (s : State) (u k : Nat) : State :=
  let ln := s.line k
  let t := (s.updUnit u (fun x => { x with writeGate := true })).enter u .transferring
  t.emit (.writeGateOn u (dataFieldStream ln.mark (s.slotData (ln.flushSource.getD 0))))

/-- R120: a header is examined in SEARCHING. -/
def State.examine (s : State) (u : Nat) (o : Operation) (h : Header) : State :=
  let t := s.seeHeader u h
  if h.isTarget o then
    if h.good then
      match o.subject with
      | .fill _ => (t.updOp u (fun x => { x with field := none })).enter u .transferring
      | .flush k => t.writeField u k
      | .survey _ => t.setDeadline u
    else (t.updOp u (fun x => { x with checkMiss := true })).setDeadline u
  else t.setDeadline u

/-- R121: the sequencer enters SEARCHING again; at the index limit the search ends at once, otherwise a header carried into it is examined. -/
def State.resumeSearch (s : State) (u : Nat) (h : Option Header) : State :=
  match (s.unit u).op with
  | none => s
  | some o =>
    if Config.indexLimit ≤ o.indexCount then s.endOp u o.searchStatus
    else
      let t := (s.updOp u (fun x => { x with field := none })).enter u .searching
      match h with
      | some h => t.examine u o h
      | none => t

/-! ### Reading a data field (R122 to R124) -/

/-- R123: data bytes of the open data field placed in the fill's slot and added to the check. Bytes beyond the 1024th are counted but not
placed. -/
def State.takeData (s : State) (u : Nat) (bs : List Byte) : State :=
  match (s.unit u).op with
  | none => s
  | some o =>
    match o.subject, o.field with
    | .fill k, some f =>
      let slot := (s.line k).currentSlot.getD 0
      let placed := bs.take (Config.slotBytes - f.received)
      let t := s.setStore (Memory.writeBytes s.store (slot * Config.slotBytes + f.received) placed)
      t.updOp u (fun x => { x with field := some { f with received := f.received + bs.length, check := checkBytes f.check bs } })
    | .fill _, none | .flush _, _ | .survey _, _ => s

/-- R124: a data field has been read with a bad check: the fill retries, examining a header that cut the field short, or ends. -/
def State.badRead (s : State) (u : Nat) (h : Option Header) : State :=
  match (s.unit u).op with
  | none => s
  | some o =>
    let t := s.updOp u (fun x => { x with attempts := x.attempts + 1, badData := true, indexCount := 0, field := none })
    if ((s.unit u).retries.getD 0) < o.attempts + 1 then t.endOp u .dataCheck
    else t.resumeSearch u h

/-! ### Events of the unit port (R101) -/

/-- R101, R115, R116: whether a sequencer acts on events of its port: not on a DETACHED unit, and in FAILED only while an operation is in
flight, which goes on in full, its commands included, until it ends (log 30). -/
def State.acts (s : State) (u : Nat) : Bool :=
  (s.unit u).state != .detached && (s.part != .failed || (s.unit u).op.isSome)

/-- R109: ARRIVED. -/
def State.onArrived (s : State) (u : Nat) : State :=
  match (s.unit u).seq, (s.unit u).op with
  | .positioning, some o => (s.updUnit u (fun x => { x with believed := some o.track })).startVerify u
  | _, _ => s

/-- R108: HOME_FOUND. -/
def State.onHomeFound (s : State) (u : Nat) : State :=
  match (s.unit u).seq, (s.unit u).op with
  | .homing, some o =>
    let t := s.updUnit u (fun x => { x with believed := some 0 })
    if o.track = 0 then t.startVerify u else t.startMove u o.track
  | _, _ => s

/-- R101, R108 to R110, R121, R122, R127, R132: POSITION_FAULT. -/
def State.onPositionFault (s : State) (u : Nat) : State := s.seekError u

/-- R110, R121, R122, R123, R132: INDEX. -/
def State.onIndex (s : State) (u : Nat) : State :=
  match (s.unit u).op with
  | none => s
  | some o =>
    let counted := s.updOp u (fun x => { x with indexCount := x.indexCount + 1 })
    let atLimit := decide (Config.indexLimit ≤ o.indexCount + 1)
    match (s.unit u).seq with
    | .idle | .homing | .positioning => s
    | .verifying => if atLimit then counted.seekError u else counted.setDeadline u
    | .searching => if atLimit then counted.endOp u o.searchStatus else counted.setDeadline u
    | .transferring =>
      match o.subject with
      | .fill _ =>
        if atLimit then (if o.field.isSome then counted.badRead u none else counted.resumeSearch u none)
        else counted.setDeadline u
      | .flush _ | .survey _ => s
    | .surveying =>
      if o.recording then s.endOp u .success
      else (s.updOp u (fun x => { x with recording := true })).setDeadline u

/-- R110: a header in VERIFYING. -/
def State.verifyHeader (s : State) (u : Nat) (o : Operation) (h : Header) : State :=
  if ¬ h.good then s
  else if h.track.toNat = o.track ∧ h.surface.toNat = o.surface then
    let t := (s.updUnit u (fun x => { x with verifyPending := false, lastHeader := some h.sector.toNat })).startSearch u o
    match o.subject with
    | .fill _ | .flush _ => t.examine u o h
    | .survey _ => t
  else if o.recalibrated then s.seekError u
  else (s.updOp u (fun x => { x with recalibrated := true })).startHoming u

/-- R133, R134: a header in the recording phase of a survey. -/
def Operation.record (o : Operation) (h : Header) : Operation :=
  if o.entries.length < Config.surveyEntries then
    { o with entries := o.entries ++ [⟨h.track, h.surface, h.sector, h.size, h.check, h.good, h.size != ownSizeCode⟩] }
  else { o with overflow := true }

/-- R101, R110, R120, R122, R123, R132: HEADER. -/
def State.onHeader (s : State) (u : Nat) (h : Header) : State :=
  match (s.unit u).seq, (s.unit u).op with
  | .idle, _ => s.seeHeader u h
  | .verifying, some o => s.verifyHeader u o h
  | .searching, some o => s.examine u o h
  | .transferring, some o =>
    match o.subject with
    | .fill _ => if o.field.isSome then s.badRead u (some h) else s.resumeSearch u (some h)
    | .flush _ | .survey _ => s
  | .surveying, some o =>
    ((s.seeHeader u h).updOp u (fun x => if o.recording then x.record h else x)).setDeadline u
  | _, _ => s

/-- R122, R123: DATA_MARK. -/
def State.onDataMark (s : State) (u : Nat) (mark : Mark) : State :=
  match (s.unit u).seq, (s.unit u).op with
  | .transferring, some o =>
    match o.subject with
    | .fill _ =>
      if o.field.isSome then s.badRead u none
      else (s.updOp u (fun x => { x with field := some ⟨mark, 0, checkByte checkPreset (markByte mark)⟩ })).setDeadline u
    | .flush _ | .survey _ => s
  | _, _ => s

/-- R123: DATA_END. -/
def State.onDataEnd (s : State) (u : Nat) (check : BitVec 16) : State :=
  match (s.unit u).seq, (s.unit u).op with
  | .transferring, some o =>
    match o.subject, o.field with
    | .fill _, some f =>
      if f.received = Config.slotBytes ∧ f.check = check then s.endOp u .success f.mark else s.badRead u none
    | _, _ => s
  | _, _ => s

/-- R127: the answer of the unit to a data field write. -/
def State.onWriteAnswer (s : State) (u : Nat) (status : Status) : State :=
  match (s.unit u).seq, (s.unit u).op with
  | .transferring, some o =>
    match o.subject with
    | .flush _ => s.endOp u status
    | .fill _ | .survey _ => s
  | _, _ => s

/-! ### Ready events (R99, R112, R113, R115) -/

/-- R112, steps 2, 3 and 5; R115: what a fall of a READY unit tells LD, RT and channel 0, which a FAILED part tells no one. -/
def State.tellFall (s : State) (u : Nat) (fills surveys : List Nat) : State :=
  if s.part = .failed then s
  else s.soon (fills.map (fun k => Work.fillOutcome k .unitNotReady .data)
    ++ surveys.map (fun e => Work.endParked e .unitNotReady) ++ [.notice 0 (.unitNotReady u)])

/-- R112: READY_FALL on a READY unit. -/
def State.fallFromReady (s : State) (u : Nat) : State :=
  let x := s.unit u
  let t := s.updUnit u (fun y => { y with state := .notReady, fillQueue := [], surveyQueue := [] })
  let t := t.tellFall u x.fillQueue x.surveyQueue
  let t := t.endOp u .unitNotReady
  let t := t.updUnit u (fun y => { y with believed := none, lastHeader := none, selectedSurface := none, verifyPending := true })
  t.noteQuiesce

/-- R99, R112, R115: READY_FALL. The level is recorded in every state. A sequencer that has stopped in FAILED does no more; one with an
operation in flight falls as ever, and then stops. (log 16) -/
def State.onReadyFall (s : State) (u : Nat) : State :=
  let t := s.updUnit u (fun y => { y with readyLine := false })
  if (s.unit u).state = .ready ∧ s.acts u then t.fallFromReady u else t

/-- R99, R113, R115: READY_RISE. The level is recorded in every state. -/
def State.onReadyRise (s : State) (u : Nat) : State :=
  let t := s.updUnit u (fun y => { y with readyLine := true })
  if s.part = .failed then t
  else if (s.unit u).state = .notReady then
    ((t.updUnit u (fun y => { y with state := .ready })).queueNotice 0 (.unitReady u)).later [.select u]
  else t

/-- R111: the response deadline of the operation in flight expires. -/
def State.expireResponse (s : State) (u : Nat) : State :=
  match (s.unit u).op with
  | none => s
  | some o => if s.due o.deadline then s.seekError u else s

/-! ### SURVEY requests (R104) -/

/-- R104: a SURVEY reaches its unit: it joins the survey queue, or completes. -/
def State.takeSurvey (s : State) (e u : Nat) : State :=
  if (s.unit u).discarding then s.complete e { status := .discarded }
  else if (s.unit u).state ≠ .ready then s.complete e { status := .unitNotReady }
  else ((s.updUnit u (fun x => { x with surveyQueue := x.surveyQueue ++ [e] })).park e .surveyQueue).later [.select u]

end Sys2Proof.Machine
end

