-- ==== Sys2Proof/Machine/Administration.lean ====
section
/-! DEFINITION. The administration requests (Chapter 9): channels opened, closed and drained, units attached, detached and discarded, the part
parameters, and the three snapshots (11.2). -/

namespace Sys2Proof.Machine

/-! ### Channels (R156, R171 to R173, R176, R177) -/

/-- R168: a channel leaves EVENT_SET. -/
def State.leaveEventSet (s : State) (c : Nat) : State := s.setEventSet (leaveList c s.eventSet)

/-- R156, R47: a channel context at open. -/
def openedChannel (rings : Rings) (limit : Nat) (interrupt : Bool) (quota revokeLimit : Nat) : Channel :=
  { state := .open, rings := some rings, limit := some limit, interrupt, holdQuota := quota, revokeLimit, opened := true }

/-- R176: CHANNEL_OPEN past validation. -/
def State.openChannel (s : State) (e : Nat) (r : Record) : State :=
  let c := r.channel
  if (s.channel c).state = .closed then
    (s.setChannel c (openedChannel ⟨r.buffer, r.p32.toNat, r.cqBase, r.w34⟩ r.p36.toNat r.interrupt r.p37.toNat r.p38.toNat)).complete e
      { status := .success }
  else s.complete e { status := .channelState }

/-- R171, R172: the CHANNEL_CLOSE that waits on a channel completes. -/
def State.completeClose (s : State) (c : Nat) : State :=
  match (s.channel c).closeEntry with
  | none => s
  | some e => (s.updChannel c (fun x => { x with closeEntry := none })).complete e { status := .success }

/-- R157, R171, R172: a channel that is CLOSING or FENCING goes on when it has drained. -/
def State.drainCheck (s : State) (c : Nat) : State :=
  let x := s.channel c
  if x.inFlight = 0 ∧ x.writing = none then
    match x.state with
    | .closing => ((s.updChannel c (fun x => { x with state := .closed })).leaveEventSet c).completeClose c
    | .fencing =>
      let t := (s.updChannel c (fun x => { x with state := .fenced })).leaveEventSet c
      let t := t.queueNotice 0 (.channelFenced c x.cause)
      if x.closePending then (t.updChannel c (fun x => { x with state := .closed })).completeClose c else t
    | .closed | .open | .fenced => s
  else s

/-- R177: CHANNEL_CLOSE past validation. -/
def State.closeChannel (s : State) (e : Nat) (r : Record) : State :=
  let c := r.channel
  match (s.channel c).state with
  | .fenced =>
    ((s.updChannel c (fun x => { x with state := .closed })).leaveEventSet c).complete e { status := .success }
  | .open =>
    let t := s.updChannel c (fun x => { x with state := .closing, closeEntry := some e })
    (t.stopService c .channelClosing).noteDrain c
  | .closed | .closing | .fencing => s.complete e { status := .channelState }

/-! ### Units attached and detached (R178 to R180) -/

/-- R178: UNIT_ATTACH past validation. -/
def State.attachUnit (s : State) (e : Nat) (r : Record) : State :=
  let u := r.unit
  let x := s.unit u
  if x.state = .detached then
    let y : UnitRec := { state := if x.readyLine then .ready else .notReady, readyLine := x.readyLine,
                         geometry := some ⟨r.p32.toNat, r.p34.toNat, r.p35.toNat⟩, retries := some r.p36.toNat }
    (s.setUnit u y).complete e { status := .success }
  else s.complete e { status := .unitState }

/-- Whether a request names unit `u` as its target (R146, R179). -/
def Request.names (r : Request) (u : Nat) : Bool :=
  r.record.unit == u &&
  match r.kind with
  | some .read | some .write | some .release | some .flush | some .survey => true
  | _ => false

/-- The ACTIVE requests of a kind that name unit `u`. -/
def State.activeOf (s : State) (u : Nat) (k : Kind) : List Nat :=
  (s.held.filter (fun p => p.2.place == .active && p.2.kind == some k && p.2.names u)).map (·.1)

/-- Whether a line is one of unit `u`'s. -/
def Line.ofUnit (ln : Line) (u : Nat) : Bool := ln.key.any (·.unit == u)

/-- The lines of unit `u`, ascending. -/
def State.linesOf (s : State) (u : Nat) : List Nat := (s.lines.filter (fun p => p.2.ofUnit u)).map (·.1)

/-- R179: the busy test, but for what it says of another UNIT_DETACH. -/
def State.unitBusy (s : State) (u : Nat) : Bool :=
  let x := s.unit u
  x.discarding
  || s.lines.any (fun p => p.2.ofUnit u && p.2.state != .clean && p.2.state != .free)
  || !x.fillQueue.isEmpty || !x.surveyQueue.isEmpty || x.op.isSome
  || s.held.any (fun p => p.2.names u && p.2.isParked)
  || !(s.activeOf u .write).isEmpty || !(s.activeOf u .survey).isEmpty

/-- R48, R49: the channels that hold a line of unit `u`, ascending. -/
def State.holdersOf (s : State) (u : Nat) : List Nat :=
  (List.range Config.channels).filter (fun c => s.lines.any (fun p => p.2.ofUnit u && p.2.holders.contains c))

/-- R48, R49, R180, R183: a line freed with the holds on it; its set's waiters then re-attempt (R19). -/
def State.freeHeldLine (s : State) (k : Nat) : State :=
  let t := s.forEach (s.line k).holders (fun c t => t.dropHold c k)
  let t := t.freeLine k
  if (t.waiters (setOfLine k)).isEmpty then t else t.later [.reattempt (setOfLine k)]

/-- R22: the requests that the head of the agenda gives a slot to continue at once, a slot that one of them drops going to the next (R14).
At most `n` of them. -/
def State.continueSlots : Nat → State → State
  | 0, s => s
  | n + 1, s =>
    match s.agenda with
    | .slotGiven e slot :: rest => State.continueSlots n ((s.setAgenda rest).slotGiven e slot)
    | _ => s

/-- R22, R180, R183: the turn of one line of unit `u`. It is freed, and the requests given its slot continue before the next line's turn; a line
that such a request has evicted in the meantime is the unit's no more. No request passes the slot wait list more than twice in this, once as an
allocation and once as a writer. (log 33) -/
def State.freeUnitLine (s : State) (u k : Nat) : State :=
  if (s.line k).ofUnit u then State.continueSlots (2 * (s.slotWait.length + 1)) (s.freeHeldLine k) else s

/-- R48, R49, R180, R183: every line of unit `u` freed, one after the other, and each channel that lost a hold told. -/
def State.freeUnit (s : State) (u : Nat) : State :=
  (s.forEach (s.linesOf u) (fun k t => t.freeUnitLine u k)).queueToEach (s.holdersOf u) (.holdsDropped u)

/-- R98: a unit record after UNIT_DETACH. -/
def UnitRec.detached (x : UnitRec) : UnitRec :=
  { x with state := .detached, geometry := none, retries := none, believed := none, verifyPending := false,
           selectedSurface := none, lastHeader := none, detach := none }

/-- R180: a detach is carried out. -/
def State.carryOutDetach (s : State) (e u : Nat) : State :=
  let t := (s.freeUnit u).retest u
  let t := (t.updUnit u UnitRec.detached).complete e { status := .success, count := (s.linesOf u).length }
  t.noteQuiesce

/-- R179: UNIT_DETACH past validation. -/
def State.detachUnit (s : State) (e : Nat) (r : Record) : State :=
  let u := r.unit
  if (s.unit u).state = .detached then s.complete e { status := .unitState }
  else if (s.unit u).detach.isSome ∨ s.unitBusy u then s.complete e { status := .unitBusy }
  else
    let reads := s.activeOf u .read
    if reads.isEmpty then s.carryOutDetach e u
    else s.updUnit u (fun x => { x with detach := some ⟨e, reads⟩ })

/-- R179: the last awaited transfer of a waiting detach has ended: the busy test is made again. -/
def State.detachTest (s : State) (u : Nat) : State :=
  match (s.unit u).detach with
  | none => s
  | some d =>
    if d.awaited.isEmpty then
      let t := s.updUnit u (fun x => { x with detach := none })
      if s.unitBusy u ∨ ¬ (s.activeOf u .read).isEmpty then t.complete d.entry { status := .unitBusy }
      else t.carryOutDetach d.entry u
    else s

/-! ### Discards (R181 to R183) -/

/-- R183, step 1: the number of unit `u`'s lines in the dirty group. -/
def State.dirtyOf (s : State) (u : Nat) : Nat := (s.lines.filter (fun p => p.2.ofUnit u && p.2.state.inDirtyGroup)).length

/-- R183: the third stage of a discard. -/
def State.thirdStage (s : State) (e u : Nat) : State :=
  let t := (s.freeUnit u).retest u
  let t := (t.updUnit u (fun x => { x with discarding := false, discard := none })).later [.select u]
  t.complete e { status := .success, count := s.dirtyOf u }

/-- R182: a waiting discard runs its third stage when the unit is quiet and no READ or WRITE naming it is ACTIVE. -/
def State.discardTest (s : State) (u : Nat) : State :=
  match (s.unit u).discard with
  | none => s
  | some e =>
    if (s.unit u).op.isNone ∧ (s.unit u).seq = .idle ∧ (s.activeOf u .read).isEmpty ∧ (s.activeOf u .write).isEmpty then s.thirdStage e u
    else s

/-- R181, step 1: a UNIT_DETACH that waits completes with UNIT_BUSY. -/
def State.refuseDetach (s : State) (u : Nat) : State :=
  match (s.unit u).detach with
  | none => s
  | some d => (s.updUnit u (fun x => { x with detach := none })).complete d.entry { status := .unitBusy }

/-- R181: UNIT_DISCARD past validation. -/
def State.discardUnit (s : State) (e : Nat) (r : Record) : State :=
  let u := r.unit
  if (s.unit u).state = .detached ∨ (s.unit u).discarding then s.complete e { status := .unitState }
  else
    let t := s.refuseDetach u
    let t := t.updUnit u (fun x => { x with discarding := true, fillQueue := [], surveyQueue := [], discard := some e })
    (t.endAllParked (fun r => r.names u) .discarded).later [.discardTest u]

/-! ### Parameters (R184) -/

/-- R184: SET_PARAMETERS past validation. -/
def State.setParameters (s : State) (e : Nat) (r : Record) : State :=
  (s.setParams (some r.params)).comparePressure.complete e { status := .success }

/-! ### Snapshots (R186 to R188, R198) -/

/-- A snapshot filled with zeros to its 64 bytes (R198). -/
def pad64 (bs : List Byte) : List Byte := bs ++ List.replicate (64 - bs.length) 0

/-- R186: the QUERY_CHANNEL snapshot. -/
def State.channelSnapshot (s : State) (c : Nat) : List Byte :=
  let x := s.channel c
  let held := fun (n : Nat) => byteOf (if c = 0 then 0 else n)
  pad64 ([x.state.code, x.cause.code, flagByte [x.closePending, x.interrupt, s.eventSet.contains c, x.fetchHold.isSome],
      byteOf x.backlog.length]
    ++ leBytes 2 x.sqSize ++ leBytes 2 x.sqHead ++ leBytes 2 x.sqTail ++ leBytes 2 x.cqSize ++ leBytes 2 x.cqHead
    ++ leBytes 2 x.cqTail
    ++ [flagByte [x.phase], byteOf x.inFlight, byteOf (x.limit.getD 0), held x.holdQuota, held x.holdCount, held x.revokeLimit,
        held x.revokeCount, 0]
    ++ leBytes 2 x.reserved ++ leBytes 2 (if c = 0 then x.lost else 0) ++ [0, 0, 0, 0] ++ leBytes 8 x.sqBase ++ leBytes 8 x.cqBase)

/-- 11.2: the code of the operation in flight. -/
def operationCode : Option Operation → Byte
  | none => 0
  | some o => match o.subject with | .fill _ => 1 | .flush _ => 2 | .survey _ => 3

/-- R187: the QUERY_UNIT snapshot. -/
def State.unitSnapshot (s : State) (u : Nat) : List Byte :=
  let x := s.unit u
  let g := x.geometry.getD ⟨0, 0, 0⟩
  pad64 ([x.state.code, flagByte [x.discarding, x.readyLine, s.protectLevel u, s.pressure],
      (match x.sweep with | .up => 0 | .down => 1), x.seq.code, operationCode x.op, byteOf g.surfaces, byteOf g.sectors,
      byteOf (x.retries.getD 0)]
    ++ leBytes 2 g.tracks ++ leBytes 2 (x.believed.getD 0xFFFF) ++ leBytes 2 x.fillQueue.length ++ leBytes 2 x.surveyQueue.length
    ++ leBytes 2 x.flushList.length ++ leBytes 2 x.stranded ++ leBytes 4 x.epoch.toNat ++ leBytes 2 x.barriers.length
    ++ leBytes 2 s.dirtyCount)

/-- 11.2: the holder set as bits, bit c for channel c. -/
def holderBits (holders : List Nat) : Nat := (holders.map (fun c => 2 ^ c)).sum

/-- R188: the QUERY_LINE snapshot. -/
def State.lineSnapshot (s : State) (key : Key) : List Byte :=
  let name := [byteOf key.unit, byteOf key.surface] ++ leBytes 2 key.track ++ [byteOf key.sector]
  match s.lookup key with
  | none => pad64 (List.replicate 16 0 ++ name)
  | some k =>
    let ln := s.line k
    pad64 ([flagByte [true, ln.episode.isSome, ln.dirtyEpoch.isSome, ln.writer.isSome], ln.state.code, markCode ln.mark,
        byteOf ln.failures]
      ++ leBytes 2 (setOfLine k) ++ [byteOf (wayOfLine k), byteOf (ln.episode.getD 0)]
      ++ leBytes 2 (if ln.state.loadsData then 0 else holderBits ln.holders)
      ++ leBytes 2 ln.waitList.length ++ leBytes 4 ((ln.dirtyEpoch.map BitVec.toNat).getD 0) ++ name)

/-- R185: a query's snapshot is taken, and its write to host memory is in flight. -/
def State.holdSnapshot (s : State) (e : Nat) (bs : List Byte) : State := s.updRequest e (fun r => { r with snapshot := some bs })

/-- R186: QUERY_CHANNEL past validation. -/
def State.queryChannel (s : State) (e : Nat) (r : Record) : State :=
  if (s.channel r.channel).opened then s.holdSnapshot e (s.channelSnapshot r.channel)
  else s.complete e { status := .channelState }

/-- R187: QUERY_UNIT past validation. The snapshot samples the protect line. -/
def State.queryUnit (s : State) (e : Nat) (r : Record) : State :=
  if (s.unit r.unit).state = .detached then s.complete e { status := .unitState }
  else (s.holdSnapshot e (s.unitSnapshot r.unit)).countSample

/-- R146: whether a key lies within a geometry. -/
def Geometry.holds (g : Geometry) (k : Key) : Bool :=
  decide (k.track < g.tracks ∧ k.surface < g.surfaces ∧ k.sector < g.sectors)

/-- R188: QUERY_LINE past validation. -/
def State.queryLine (s : State) (e : Nat) (r : Record) : State :=
  let x := s.unit r.unit
  if x.state = .detached then s.complete e { status := .unitState }
  else if ¬ x.geometry.any (fun g => g.holds r.key) then s.complete e { status := .badRecord }
  else s.holdSnapshot e (s.lineSnapshot r.key)

end Sys2Proof.Machine
end

