-- ==== Sys2Proof/Machine/Requests.lean ====
section
/-! DEFINITION. RT (Chapter 7): validation, routing, RELEASE, BARRIER and ABANDON, and the end of a submission record read (R163). -/

namespace Sys2Proof.Machine

/-! ### Validation (R141 to R146) -/

/-- R142: whether a kind is accepted on a channel. -/
def Kind.acceptedOn (k : Kind) (c : Nat) : Bool := if c = 0 then k.isAdmin || k == .barrier else !k.isAdmin

/-- R146: the kinds whose unit must be attached. -/
def Kind.namesUnit : Kind → Bool
  | .read | .write | .release | .flush | .survey => true
  | .barrier | .abandon | .channelOpen | .channelClose | .unitAttach | .unitDetach | .unitDiscard | .setParameters | .queryChannel
  | .queryUnit | .queryLine => false

/-- R146: the geometry check of a kind. -/
def Record.withinGeometry (r : Record) (k : Kind) (g : Geometry) : Bool :=
  match k with
  | .read | .write | .release => g.holds r.key
  | .survey => decide (r.track.toNat < g.tracks ∧ r.surface.toNat < g.surfaces)
  | .flush | .barrier | .abandon | .channelOpen | .channelClose | .unitAttach | .unitDetach | .unitDiscard | .setParameters
  | .queryChannel | .queryUnit | .queryLine => true

/-- R146: the three unit checks. -/
def State.unitChecks (s : State) (r : Record) (k : Kind) : Option Status :=
  if k.namesUnit then
    let x := s.unit r.unit
    if x.state = .detached then some .unitDetached
    else if ¬ x.geometry.any (r.withinGeometry k) then some .badRecord
    else if x.discarding then some .discarded
    else none
  else none

/-- R141: validation of a record taken on channel `c`: the status of the first check that fails, if one does. -/
def State.validate (s : State) (c : Nat) (r : Record) : Option Status :=
  match r.kindOf with
  | none => some .badKind
  | some k =>
    if ¬ k.acceptedOn c then some .badKind
    else if ¬ r.fieldsOk k then some .badRecord
    else if ¬ r.addressesOk k then some .badAddress
    else if s.part = .quiescing ∧ k.heldByQuiesce then some .quiescing
    else s.unitChecks r k

/-! ### RELEASE (R33 to R35) -/

/-- R34: a RELEASE that names an episode. -/
def State.releaseEpisode (s : State) (e c n : Nat) (key : Key) : State :=
  match s.episode n with
  | some ep =>
    if ep.key = key ∧ ep.waiting.contains c then (s.dropHold c ep.line).complete e { status := .success }
    else s.complete e { status := .tooLate }
  | none => s.complete e { status := .tooLate }

/-- R33: a RELEASE that names none. -/
def State.releaseKey (s : State) (e c : Nat) (key : Key) : State :=
  match s.lookup key with
  | some k =>
    if (s.line k).holders.contains c then (s.dropHold c k).complete e { status := .success }
    else s.complete e { status := .notHeld }
  | none => s.complete e { status := .notHeld }

/-- R35: RU carries out a RELEASE. -/
def State.takeRelease (s : State) (e c : Nat) (r : Record) : State :=
  if r.episodeValid then s.releaseEpisode e c r.episode.toNat r.key else s.releaseKey e c r.key

/-! ### BARRIER (R148) -/

/-- R148: whether an earlier request of a channel has not ended. -/
def State.earlierOutstanding (s : State) (c arrival : Nat) : Bool :=
  s.held.any (fun p => p.2.channel == c && decide (p.2.arrival < arrival) && p.2.place != .done)

/-- R148: RT takes a BARRIER. -/
def State.takeBarrier (s : State) (e : Nat) (r : Request) : State :=
  if s.earlierOutstanding r.channel r.arrival then
    (s.updChannel r.channel (fun x => { x with fetchHold := some e })).park e .fetchHold
  else s.complete e { status := .success }

/-- R148: the parked BARRIER of a channel completes once no earlier request of the channel is outstanding. -/
def State.barrierTest (s : State) (c : Nat) : State :=
  match (s.channel c).fetchHold with
  | none => s
  | some e =>
    match s.request e with
    | none => s
    | some r =>
      if s.earlierOutstanding c r.arrival then s
      else (s.updChannel c (fun x => { x with fetchHold := none })).complete e { status := .success }

/-! ### ABANDON (R150) -/

/-- R150: the earliest other request of the ABANDON's channel with the target tag. -/
def State.abandonTarget (s : State) (e c : Nat) (tag : BitVec 16) : Option (Nat × Request) :=
  bestBy (fun a b => decide (a.2.arrival < b.2.arrival))
    (s.held.filter (fun p => p.1 != e && p.2.channel == c && p.2.record.tag == tag))

/-- R150: RT carries out an ABANDON. -/
def State.takeAbandon (s : State) (e c : Nat) (r : Record) : State :=
  match s.abandonTarget e c r.target with
  | none => s.complete e { status := .notFound }
  | some (t, target) =>
    if target.isParked then (s.endParked t .abandoned).complete e { status := .success }
    else s.complete e { status := .tooLate }

/-! ### Routing (R147) -/

/-- R147: a request past validation goes to the block of its kind. -/
def State.route (s : State) (e : Nat) (r : Request) (k : Kind) : State :=
  let admin := s.setRequest e (some { r with place := .active })
  match k with
  | .read | .write => s.toDirectory e none
  | .release => s.takeRelease e r.channel r.record
  | .flush => s.takeFlush e r.record.unit
  | .survey => s.takeSurvey e r.record.unit
  | .barrier => s.takeBarrier e r
  | .abandon => s.takeAbandon e r.channel r.record
  | .channelOpen => admin.openChannel e r.record
  | .channelClose => admin.closeChannel e r.record
  | .unitAttach => admin.attachUnit e r.record
  | .unitDetach => admin.detachUnit e r.record
  | .unitDiscard => admin.discardUnit e r.record
  | .setParameters => admin.setParameters e r.record
  | .queryChannel => admin.queryChannel e r.record
  | .queryUnit => admin.queryUnit e r.record
  | .queryLine => admin.queryLine e r.record

/-! ### Taking a record (R138, R139, R163) -/

/-- The index after `i` in a ring of `size` entries (R156). -/
def nextIndex (size i : Nat) : Nat := (i + 1) % size

/-- R138, R139: the request a record becomes when it is taken. -/
def State.newRequest (s : State) (c : Nat) (rec : Record) : Request :=
  { channel := c, record := rec, arrival := (s.channel c).arrivals, place := .routed }

/-- R138, R139, R163: a record enters its entry, takes its arrival number and moves the SQ head. -/
def State.enterRecord (s : State) (c e : Nat) (rec : Record) : State :=
  (s.setRequest e (some (s.newRequest c rec))).updChannel c
    (fun x => { x with arrivals := x.arrivals + 1, sqHead := nextIndex x.sqSize x.sqHead })

/-- R138, R141, R147: a record is taken into entry `e`, validated and routed. -/
def State.takeRecord (s : State) (c e : Nat) (rec : Record) : State :=
  let t := s.enterRecord c e rec
  match t.validate c rec, rec.kindOf with
  | some status, _ => t.complete e { status }
  | none, some k => t.route e (s.newRequest c rec) k
  | none, none => t.complete e { status := .badKind }

/-- R163: a fetch ends without a record being taken: both counts fall, the SQ head is unchanged. -/
def State.returnFetch (s : State) (c : Nat) : State :=
  (s.updChannel c (fun x => { x with reserved := x.reserved - 1, inFlight := x.inFlight - 1 })).noteDrain c

/-- R162: whether the part is in a state in which records are taken. -/
def PartState.takesRecords : PartState → Bool
  | .running | .quiescing => true
  | .halted | .starting | .quiesced | .failed => false

/-- R163: the submission record read in flight ends, with an error (`none`) or with the record returned. With no fetch in flight nothing
ends (log 11, log 17). -/
def State.endFetch (s : State) (result : Option Record) : State :=
  match s.fetch with
  | none => s
  | some f =>
    let t := s.setFetch none
    if s.part = .failed then t
    else match result with
      | some rec =>
        if (s.channel f.channel).state = .open ∧ s.part.takesRecords then t.takeRecord f.channel f.entry rec
        else t.returnFetch f.channel
      | none =>
        if f.channel = 0 then (t.returnFetch 0).fail .adminFetchError
        else (t.returnFetch f.channel).fence f.channel .submitFetchError

end Sys2Proof.Machine
end

