-- ==== Sys2Proof/Machine/Settle.lean ====
section
/-! DEFINITION. The end of a step: the work it has set in motion runs, one piece after the other, until none is left (log 3). -/

namespace Sys2Proof.Machine

/-- R194: whether the request table holds no READ, WRITE, SURVEY or FLUSH. -/
def State.noDataRequest (s : State) : Bool := !s.held.any (fun p => p.2.kind.any Kind.heldByQuiesce)

/-- R194: whether a line of a READY unit is in DIRTY, FLUSHING, REFLUSH or LOADING. -/
def State.readyUnitDirty (s : State) : Bool :=
  s.lines.any (fun p => p.2.state.holdsQuiesce && p.2.key.any (fun k => (s.unit k.unit).state == .ready))

/-- R194: the quiesce condition. -/
def State.quiet (s : State) : Bool := s.noDataRequest && !s.readyUnitDirty

/-- R194: a QUIESCING part goes to QUIESCED when the quiesce condition holds. -/
def State.quiesceCheck (s : State) : State :=
  if s.part = .quiescing ∧ s.quiet then s.setPart .quiesced else s

/-- One piece of work carried out. -/
def runWork : Work → State → State
  | .slotGiven e slot, s => s.slotGiven e slot
  | .handOn e status, s => s.handOn e status
  | .redispatch e, s => s.redispatch e
  | .reattempt set, s => s.reattempt set
  | .evictCheck k, s => s.evictCheck k
  | .serve k, s => s.serveLine k
  | .episodeCheck n, s => s.episodeCheck n
  | .episodeFreed, s => s.episodeFreed
  | .episodeWaitCheck k, s => s.episodeWaitCheck k
  | .barrierTest c, s => s.barrierTest c
  | .drainCheck c, s => s.drainCheck c
  | .quiesceCheck, s => s.quiesceCheck
  | .detachTest u, s => s.detachTest u
  | .discardTest u, s => s.discardTest u
  | .select u, s => s.select u
  | .fillOutcome k status mark, s => s.fillOutcome k status mark
  | .flushOutcome k status, s => s.flushOutcome k status
  | .stranded k status, s => s.noteStranded k status
  | .retest u, s => s.retest u
  | .afterSwap e, s => s.afterSwap e
  | .endWritePhase k, s => s.endWritePhase k
  | .complete e c, s => s.complete e c
  | .endParked e status, s => s.endParked e status
  | .notice c n, s => s.queueNotice c n

/-- The agenda run from its head, at most `n` pieces of it. -/
def State.settle : Nat → State → State
  | 0, s => s
  | n + 1, s =>
    match s.agenda with
    | [] => s
    | w :: rest => State.settle n (runWork w (s.setAgenda rest))

/-- The end of a step: the agenda has run and is empty. -/
def State.finish (s : State) : State := (State.settle Config.settleFuel s).setAgenda []

end Sys2Proof.Machine
end

