-- ==== Sys2Proof/Machine/PartControl.lean ====
section
/-! DEFINITION. PC (Chapter 10): the commands RUN, QUIESCE and RESET, power-on reset, BOOT_ADDRESS, the end of the boot record read, and
what a read of the register window returns. -/

namespace Sys2Proof.Machine

/-! ### Commands (R192 to R194) -/

/-- R192: a refused command changes nothing but the last refused command. -/
def State.refuse (s : State) (r : Refused) : State := { s with lastRefused := r }

/-- R193: whether the 64-byte boot record at an address is aligned and ends within host space. -/
def bootAddressOk (a : Addr) : Bool := addressFits a 64

/-- R193: RUN taken in HALTED. -/
def State.start (s : State) : State :=
  if bootAddressOk s.bootAddress then (s.setPart .starting).emit (.hostRead s.bootAddress.toNat 64)
  else s.fail .bootInvalid

/-- R192, R193, R194: RUN. -/
def execRun (s : State) : Host.Outcome State Fault Refusal :=
  match s.part with
  | .halted => .next s.start
  | .quiesced => .next (s.setPart .running)
  | .starting | .running | .quiescing | .failed => .next (s.refuse .run)

/-- R192, R194: QUIESCE, with the test of the quiesce condition in its step. -/
def execQuiesce (s : State) : Host.Outcome State Fault Refusal :=
  match s.part with
  | .running => .next (s.setPart .quiescing).quiesceCheck
  | .halted | .starting | .quiescing | .quiesced | .failed => .next (s.refuse .quiesce)

/-- R192: a PART_CONTROL write whose value names no command. A value that names one is that command's and not this one's. -/
def execInvalidCommand (value : BitVec 32) (s : State) : Host.Outcome State Fault Refusal :=
  if ([1, 2, 3] : List (BitVec 32)).contains value then .next s else .next (s.refuse .invalid)

/-! ### Reset (R196) -/

/-- R100, R128 (log 4): the write gates that a reset turns off. -/
def State.gatesOff (s : State) : List Output :=
  ((List.range Config.units).filter (fun u => (s.unit u).writeGate)).map Output.writeGateOff

/-- R99, R116: the unit records after a reset. The ready line is a level of the port, which a reset does not change. -/
def State.unitsAfterReset (s : State) : SMap UnitRec :=
  (List.range Config.units).foldl (fun m u => SMap.set {} m u { readyLine := (s.unit u).readyLine }) []

/-- R196: every block takes its reset values. What is no state of the part stays: the time, the queue, what has been put out, and the
levels of the unit ports. (log 19) -/
def State.clear (s : State) : State :=
  { State.reset with
    units := s.unitsAfterReset, now := s.now, protectSamples := s.protectSamples, outbox := s.gatesOff ++ s.outbox, pending := s.pending }

/-- R191, R196: RESET keeps BOOT_ADDRESS, and keeps the last failure cause or, in FAILED, copies the failure cause into it. -/
def execReset (s : State) : Host.Outcome State Fault Refusal :=
  .next { s.clear with bootAddress := s.bootAddress, lastFailure := if s.part = .failed then s.failure else s.lastFailure }

/-- R196: power-on reset: BOOT_ADDRESS is 0 and the last failure cause NONE. -/
def execPowerOnReset (s : State) : Host.Outcome State Fault Refusal := .next s.clear

/-! ### BOOT_ADDRESS and the boot record (R190, R193) -/

/-- R190: one half of the boot address replaced. -/
def replaceHalf (a : Addr) (high : Bool) (v : BitVec 32) : Addr :=
  if high then v ++ a.extractLsb' 0 32 else a.extractLsb' 32 32 ++ v

/-- R190: in HALTED the half written is replaced; in any other state the write is ignored. -/
def execBootAddressWrite (high : Bool) (value : BitVec 32) (s : State) : Host.Outcome State Fault Refusal :=
  .next (if s.part = .halted then { s with bootAddress := replaceHalf s.bootAddress high value } else s)

/-- R156, R158, R193, step 3: channel 0 at open. -/
def Boot.channel0 (b : Boot) : Channel :=
  { state := .open, rings := some ⟨b.sqBase, b.sqSize, b.cqBase, b.cqSize⟩, limit := some Config.adminInFlight,
    interrupt := b.flags.getLsbD 0, opened := true }

/-- R193: the five steps of a boot record that passes its check. -/
def State.bootUp (s : State) (b : Boot) : State :=
  ((s.setParams (some b.params)).comparePressure.setChannel 0 b.channel0).setPart .running

/-- R193: the boot record read ends. With no boot read in flight nothing ends (log 11). -/
def execBootReadEnd (result : Option (List Byte)) (s : State) : Host.Outcome State Fault Refusal :=
  if s.part = .starting then
    match result with
    | none => .next (s.fail .bootFetchError)
    | some bs => .next (if (parseBoot bs).ok then s.bootUp (parseBoot bs) else s.fail .bootInvalid)
  else .next s

/-- R190: a write that the part does not take has no effect. -/
def execRegisterWriteIgnored (_offset : BitVec 12) (_bytes : Nat) (_value : BitVec 32) (s : State) :
    Host.Outcome State Fault Refusal := .next s

/-- R194 (log 12): the quiesce condition is tested; when it holds the part enters QUIESCED. -/
def execQuiescedEntry (s : State) : Host.Outcome State Fault Refusal := .next s.quiesceCheck

/-! ### Reading the register window (R190, R191, R200) -/

/-- R191: the retained dirty count that PART_STATE shows. -/
def State.retainedDirty (s : State) : Nat := if s.part = .quiesced then s.dirtyCount else 0

/-- R200: the PART_STATE word. -/
def State.partStateWord (s : State) : BitVec 32 :=
  BitVec.ofNat 32 (s.part.code + 2 ^ 4 * s.failure.code + 2 ^ 8 * s.lastFailure.code + 2 ^ 12 * s.lastRefused.code
    + 2 ^ 16 * s.retainedDirty)

/-- R200: the PART_ID word. -/
def partIdWord : BitVec 32 := 0x14A15A31

/-- R200: the EVENT_SET word, bit c for channel c. -/
def State.eventSetWord (s : State) : BitVec 32 :=
  BitVec.ofNat 32 (((List.range Config.channels).filter s.eventSet.contains).map (fun c => 2 ^ c)).sum

/-- R190: what a read of `bytes` bytes at an offset of the window returns. No read has an effect, so it is no command. (log 26) -/
def State.readRegister (s : State) (offset : BitVec 12) (bytes : Nat) : BitVec 32 :=
  if bytes ≠ 4 then 0
  else if offset = 0x000 then partIdWord
  else if offset = 0x008 then s.partStateWord
  else if offset = 0x010 then s.bootAddress.extractLsb' 0 32
  else if offset = 0x014 then s.bootAddress.extractLsb' 32 32
  else if offset = 0x020 then s.eventSetWord
  else 0

end Sys2Proof.Machine
end

