-- ==== Sys2Proof/Machine/QueueInterface.lean ====
section
/-! DEFINITION. QI (Chapter 8): index posts, the fetch arbiter, the end of a fetch, record writes, and the draining of a channel. -/

namespace Sys2Proof.Machine

/-! ### Index posts (R159, R160, R200) -/

/-- R200: the channel an index post names. -/
def postChannel (v : BitVec 32) : Nat := (v.extractLsb' 0 4).toNat

/-- R200: the index an index post gives. -/
def postIndex (v : BitVec 32) : Nat := (v.extractLsb' 16 12).toNat

/-- R158, R159, R160: what an invalid post does on a channel that takes it. -/
def State.badPost (s : State) (c : Nat) (cause : FenceCause) (failure : FailureCause) : State :=
  if c = 0 then s.fail failure else s.fence c cause

/-- R159: whether a tail post is valid. -/
def Channel.tailOk (x : Channel) (t : Nat) : Bool :=
  decide (t < x.sqSize) && decide (ringDistance x.sqSize x.sqHead x.sqTail ≤ ringDistance x.sqSize x.sqHead t)

/-- R159: a tail post of `t` for channel `c`, in a part that is not FAILED. -/
def State.postTail (s : State) (c t : Nat) : State :=
  if (s.channel c).state = .open then
    if (s.channel c).tailOk t then s.updChannel c (fun x => { x with sqTail := t })
    else s.badPost c .badTail .adminBadTail
  else s

/-- R159, R174: SQ_TAIL. -/
def execSqTail (value : BitVec 32) (s : State) : Host.Outcome State Fault Refusal :=
  if s.part = .failed then .next s else .next (s.postTail (postChannel value) (postIndex value)).finish

/-- R160: the channel states that take a head post. -/
def ChannelState.takesHead : ChannelState → Bool
  | .open | .closing | .fencing => true
  | .closed | .fenced => false

/-- R160: whether a head post is valid. -/
def Channel.headOk (x : Channel) (h : Nat) : Bool :=
  decide (h < x.cqSize) && decide (ringDistance x.cqSize x.cqHead h ≤ x.postedLength)

/-- R160, R168: a head post of `h` for channel `c`, in a part that is not FAILED. -/
def State.postHead (s : State) (c h : Nat) : State :=
  if (s.channel c).state.takesHead then
    if (s.channel c).headOk h then (s.updChannel c (fun x => { x with cqHead := h })).leaveEventSet c
    else s.badPost c .badHead .adminBadHead
  else s

/-- R160, R174: CQ_HEAD. -/
def execCqHead (value : BitVec 32) (s : State) : Host.Outcome State Fault Refusal :=
  if s.part = .failed then .next s else .next (s.postHead (postChannel value) (postIndex value)).finish

/-! ### The fetch arbiter (R162) -/

/-- R162: a free entry of the request table; the spec does not say which, this takes the lowest (log 10). -/
def State.freeTableEntry (s : State) : Option Nat := firstFrom (fun e => (s.request e).isNone) Config.tableEntries 0

/-- R162: whether a channel is eligible, but for the request table's free entry. -/
def Channel.eligible (x : Channel) : Bool :=
  x.state == .open && x.sqHead != x.sqTail && x.limit.any (fun l => decide (x.inFlight < l)) && x.hasMargin && x.fetchHold.isNone

/-- R162: the data channels in the order of the turn: from the one after the channel last granted, going from 15 back to 1. -/
def turnOrder (last : Nat) : List Nat := (List.range 15).map (fun i => (last + i) % 15 + 1)

/-- R162: the channel that is granted, if one is eligible. -/
def State.granted (s : State) : Option Nat :=
  if (s.channel 0).eligible then some 0 else (turnOrder s.lastGranted).find? (fun c => (s.channel c).eligible)

/-- R162, R163: a fetch granted to channel `c` with entry `e` set aside. -/
def State.grant (s : State) (c e : Nat) : State :=
  let t := s.updChannel c (fun x => { x with inFlight := x.inFlight + 1, reserved := x.reserved + 1 })
  let t := { t with fetch := some ⟨c, e⟩, lastGranted := if c = 0 then s.lastGranted else c }
  t.emit (.hostRead ((s.channel c).sqBase + 64 * (s.channel c).sqHead) 64)

/-- R162: FETCH_GRANT. With a fetch in flight, outside RUNNING and QUIESCING, or with no eligible channel, nothing is granted. (log 21) -/
def execFetchGrant (s : State) : Host.Outcome State Fault Refusal :=
  if s.fetch.isNone ∧ s.part.takesRecords then
    match s.granted, s.freeTableEntry with
    | some c, some e => .next (s.grant c e)
    | some _, none | none, _ => .next s
  else .next s

/-- R163: FETCH_END. -/
def execFetchEnd (result : Option (List Byte)) (s : State) : Host.Outcome State Fault Refusal :=
  .next (s.endFetch (result.map Record.parse)).finish

/-! ### Record writes (R164, R165, R166, R168) -/

/-- R165: the channel after a record write has started: the CQ tail advances, and the phase inverts when it passes to 0. -/
def Channel.startWrite (x : Channel) (w : RecordWrite) : Channel :=
  { x with writing := some w, cqTail := nextIndex x.cqSize x.cqTail,
           phase := if nextIndex x.cqSize x.cqTail = 0 then !x.phase else x.phase }

/-- R165: the address of the next entry of the completion ring. -/
def Channel.writeAddress (x : Channel) : Nat := x.cqBase + 32 * x.cqTail

/-- R164, R165: the completion record of entry `e`, at the head of the post queue, is being written. -/
def State.startCompletion (s : State) (c e : Nat) (rest : List Nat) : State :=
  match s.request e with
  | none => s
  | some r =>
    let x := s.channel c
    let bytes := completionBytes x.phase x.sqHead r (r.completion.getD { status := .success })
    s.setChannel c { x.startWrite ⟨bytes, x.writeAddress, some e⟩ with postQueue := rest, reserved := x.reserved - 1 }

/-- R164, R165, R166, R198: the notice at the head of the backlog is being written; on channel 0 it carries the lost-notice count, which
becomes 0. -/
def State.startNotice (s : State) (c : Nat) (n : Notice) (rest : List Notice) : State :=
  let x := s.channel c
  let bytes := noticeBytes x.phase x.sqHead (if c = 0 then x.lost else 0) n
  s.setChannel c { x.startWrite ⟨bytes, x.writeAddress, none⟩ with backlog := rest, lost := if c = 0 then 0 else x.lost }

/-- R164: whether QI starts record writes of a channel at all. -/
def Channel.mayWrite (x : Channel) : Bool := x.state.takesHead && x.writing.isNone && !x.postError

/-- R164: RECORD_WRITE_START: the head of the post queue, otherwise the head of the backlog when the margin is at least 1. (log 21) -/
def execRecordWriteStart (channel : Nat) (s : State) : Host.Outcome State Fault Refusal :=
  if s.part ≠ .failed ∧ (s.channel channel).mayWrite then
    match (s.channel channel).postQueue, (s.channel channel).backlog with
    | e :: rest, _ => .next (s.startCompletion channel e rest)
    | [], n :: rest => if (s.channel channel).hasMargin then .next (s.startNotice channel n rest) else .next s
    | [], [] => .next s
  else .next s

/-- The entry of a completion whose write has ended is freed (R154, R165); a notice has none. -/
def State.freeWritten (s : State) : Option Nat → State
  | none => s
  | some e => s.freeEntry e

/-- R165, R168: a record write has ended without error: the record is posted. (log 22) -/
def State.recordPosted (s : State) (c : Nat) (w : RecordWrite) : State :=
  let t := s.emit (.hostWrite w.address w.bytes)
  let t := t.updChannel c (fun x => { x with writing := none, posted := nextIndex x.cqSize x.posted })
  let t := if (s.channel c).interrupt then t.setEventSet (joinSet c t.eventSet) else t
  (t.freeWritten w.entry).noteDrain c

/-- R165, R169, R170, R158: a record write has ended with an error: the record is discarded, on channel 0 too, and the entry of
a completion is freed. -/
def State.recordFailed (s : State) (c : Nat) (w : RecordWrite) : State :=
  let t := s.updChannel c (fun x => { x with writing := none })
  if c = 0 then (t.freeWritten w.entry).fail .adminPostError
  else ((t.fence c .completionPostError).freeWritten w.entry).noteDrain c

/-- R174: the state after a record write of channel `c` has ended in a FAILED part: its 32 bytes stand in host memory unless it ended with an
error (log 4), and nothing that follows from its end happens. (log 17) -/
def State.recordEndsInFailed (s : State) (c : Nat) (w : RecordWrite) (error : Bool) : State :=
  let t := s.updChannel c (fun x => { x with writing := none })
  if error then t else t.emit (.hostWrite w.address w.bytes)

/-- R165, R174: RECORD_WRITE_END. -/
def execRecordWriteEnd (channel : Nat) (error : Bool) (s : State) : Host.Outcome State Fault Refusal :=
  match (s.channel channel).writing with
  | none => .next s
  | some w =>
    if s.part = .failed then .next (s.recordEndsInFailed channel w error)
    else .next (if error then s.recordFailed channel w else s.recordPosted channel w).finish

/-- R157, R171, R172 (log 12): CHANNEL_DRAIN. -/
def execChannelDrain (channel : Nat) (s : State) : Host.Outcome State Fault Refusal :=
  if s.part = .failed then .next s else .next (s.drainCheck channel).finish

end Sys2Proof.Machine
end

