-- ==== Sys2Proof/Machine/RecordKinds.lean ====
section
/-! DEFINITION. The record kinds as commands: the fetch in flight ends with a record of that kind (R138, R141, R147, R163; log 5). -/

namespace Sys2Proof.Machine

/-- R163: the step in which the fetch in flight ends with a record. -/
def State.fetchReturns (s : State) (r : Record) : State := (s.endFetch (some r)).finish

/-- R53: READ. -/
def execRead (tag : BitVec 16) (hold : Bool) (unit surface : Byte) (track : BitVec 16) (sector : Byte) (buffer : Addr) (s : State) :
    Host.Outcome State Fault Refusal :=
  .next (s.fetchReturns (readRecord tag hold unit surface track sector buffer))

/-- R54: WRITE. -/
def execWrite (tag : BitVec 16) (hold : Bool) (unit surface : Byte) (track : BitVec 16) (sector : Byte) (buffer : Addr) (s : State) :
    Host.Outcome State Fault Refusal :=
  .next (s.fetchReturns (writeRecord tag hold unit surface track sector buffer))

/-- R33, R34, R35: RELEASE. -/
def execRelease (tag : BitVec 16) (episode : Option Byte) (unit surface : Byte) (track : BitVec 16) (sector : Byte) (s : State) :
    Host.Outcome State Fault Refusal :=
  .next (s.fetchReturns (releaseRecord tag episode unit surface track sector))

/-- R89: FLUSH. -/
def execFlush (tag : BitVec 16) (unit : Byte) (s : State) : Host.Outcome State Fault Refusal :=
  .next (s.fetchReturns (flushRecord tag unit))

/-- R104: SURVEY. -/
def execSurvey (tag : BitVec 16) (unit surface : Byte) (track : BitVec 16) (buffer : Addr) (s : State) :
    Host.Outcome State Fault Refusal :=
  .next (s.fetchReturns (surveyRecord tag unit surface track buffer))

/-- R148: BARRIER. -/
def execBarrier (tag : BitVec 16) (s : State) : Host.Outcome State Fault Refusal := .next (s.fetchReturns (barrierRecord tag))

/-- R150: ABANDON. -/
def execAbandon (tag target : BitVec 16) (s : State) : Host.Outcome State Fault Refusal :=
  .next (s.fetchReturns (abandonRecord tag target))

/-- R176: CHANNEL_OPEN. -/
def execChannelOpen (tag : BitVec 16) (interrupt : Bool) (channel : Byte) (sqBase cqBase : Addr) (sqSize cqSize : BitVec 16)
    (inFlightLimit holdQuota revokeLimit : Byte) (s : State) : Host.Outcome State Fault Refusal :=
  .next (s.fetchReturns
    (channelOpenRecord tag interrupt channel sqBase cqBase sqSize cqSize inFlightLimit holdQuota revokeLimit))

/-- R177: CHANNEL_CLOSE. -/
def execChannelClose (tag : BitVec 16) (channel : Byte) (s : State) : Host.Outcome State Fault Refusal :=
  .next (s.fetchReturns (channelCloseRecord tag channel))

/-- R178: UNIT_ATTACH. -/
def execUnitAttach (tag : BitVec 16) (unit : Byte) (tracks : BitVec 16) (surfaces sectors retries : Byte) (s : State) :
    Host.Outcome State Fault Refusal :=
  .next (s.fetchReturns (unitAttachRecord tag unit tracks surfaces sectors retries))

/-- R179: UNIT_DETACH. -/
def execUnitDetach (tag : BitVec 16) (unit : Byte) (s : State) : Host.Outcome State Fault Refusal :=
  .next (s.fetchReturns (unitDetachRecord tag unit))

/-- R181: UNIT_DISCARD. -/
def execUnitDiscard (tag : BitVec 16) (unit : Byte) (s : State) : Host.Outcome State Fault Refusal :=
  .next (s.fetchReturns (unitDiscardRecord tag unit))

/-- R184: SET_PARAMETERS. -/
def execSetParameters (tag recallTimeout setWaitTimeout highMark lowMark : BitVec 16) (s : State) :
    Host.Outcome State Fault Refusal :=
  .next (s.fetchReturns (setParametersRecord tag recallTimeout setWaitTimeout highMark lowMark))

/-- R186: QUERY_CHANNEL. -/
def execQueryChannel (tag : BitVec 16) (channel : Byte) (buffer : Addr) (s : State) : Host.Outcome State Fault Refusal :=
  .next (s.fetchReturns (queryChannelRecord tag channel buffer))

/-- R187: QUERY_UNIT. -/
def execQueryUnit (tag : BitVec 16) (unit : Byte) (buffer : Addr) (s : State) : Host.Outcome State Fault Refusal :=
  .next (s.fetchReturns (queryUnitRecord tag unit buffer))

/-- R188: QUERY_LINE. -/
def execQueryLine (tag : BitVec 16) (unit surface : Byte) (track : BitVec 16) (sector : Byte) (buffer : Addr) (s : State) :
    Host.Outcome State Fault Refusal :=
  .next (s.fetchReturns (queryLineRecord tag unit surface track sector buffer))

end Sys2Proof.Machine
end

