-- ==== Sys2Proof/Machine/Transfers.lean ====
section
/-! DEFINITION. The ends of host transfers: of READs and WRITEs (Chapter 3), of a survey's entries (R135, R136) and of a query's snapshot
(R185). An end of a transfer that is not in flight has no effect (log 11). In FAILED the writes to host memory of a transfer in flight end,
and nothing else comes of it (R71, R154; log 4). -/

namespace Sys2Proof.Machine

/-! ### Which transfers are in flight -/

/-- Whether a request is ACTIVE with a kind (R52, R140). -/
def Request.activeAs (r : Request) (k : Kind) : Bool := r.place == .active && r.kind == some k

/-- The request in entry `e` if it satisfies `p`, unless its writes to host memory have ended in a FAILED part (R71, R154; log 4). -/
def State.outgoing (s : State) (e : Nat) (p : Request → Bool) : Option Request :=
  if s.part = .failed ∧ s.endedInFailed.contains e then none else (s.request e).filter p

/-- R59: the READ whose read transfer is in flight in entry `e`, with its line and its delivered slot. -/
def State.readInFlight (s : State) (e : Nat) : Option (Request × Nat × Nat) :=
  (s.outgoing e (fun r => r.activeAs .read)).bind (fun r => match r.line, r.delivered with
    | some k, some slot => some (r, k, slot)
    | some _, none | none, _ => none)

/-- R63, R64, R71: the WRITE whose host transfer is in flight in entry `e` of a part that is not FAILED, with its line and its staging slot. In
FAILED the end of a WRITE's transfer has no effect. -/
def State.writeInFlight (s : State) (e : Nat) : Option (Request × Nat × Nat) :=
  if s.part = .failed then none
  else ((s.request e).filter (fun r => r.activeAs .write)).bind (fun r => match r.line, r.staging with
    | some k, some slot => some (r, k, slot)
    | some _, none | none, _ => none)

/-- R71, R154: the writes of entry `e` to host memory end in a FAILED part, and nothing else comes of it. -/
def State.endInFailed (s : State) (e : Nat) : State := s.setEndedInFailed (joinSet e s.endedInFailed)

/-- The state after the writes of entry `e` to host memory have ended: `t` has them put out, and what follows from their end is `f`, but in a
FAILED part nothing is (R71, R154). -/
def State.afterWrites (t : State) (e : Nat) (f : State → State) : State := if t.part = .failed then t.endInFailed e else (f t).finish

/-! ### READs and WRITEs -/

/-- R59, R60: READ_TRANSFER_COMPLETE. -/
def execReadTransferComplete (entry : Nat) (s : State) : Host.Outcome State Fault Refusal :=
  match s.readInFlight entry with
  | some (r, k, slot) => .next ((s.deliver r slot none).afterWrites entry (fun t => t.readComplete entry r k slot))
  | none => .next s

/-- R59, R61: READ_TRANSFER_ERROR. -/
def execReadTransferError (entry written : Nat) (s : State) : Host.Outcome State Fault Refusal :=
  match s.readInFlight entry with
  | some (r, k, slot) => .next ((s.deliver r slot (some written)).afterWrites entry (fun t => t.readError entry r k slot))
  | none => .next s

/-- R65: WRITE_TRANSFER_COMPLETE. -/
def execWriteTransferComplete (entry : Nat) (data : List Byte) (s : State) : Host.Outcome State Fault Refusal :=
  match s.writeInFlight entry with
  | some (r, k, slot) => .next (s.writeComplete entry r k slot data).finish
  | none => .next s

/-- R66: WRITE_TRANSFER_ERROR. -/
def execWriteTransferError (entry : Nat) (placed : List Byte) (s : State) : Host.Outcome State Fault Refusal :=
  match s.writeInFlight entry with
  | some (r, k, slot) => .next (s.writeError entry r k slot placed).finish
  | none => .next s

/-! ### Surveys (R135, R136) -/

/-- R136: the completion of a SURVEY whose entry writes have ended. -/
def surveyCompletion (result : SurveyResult) : Option Nat → Completion
  | none => { status := .success, flags := { overflow := result.overflow }, count := result.entries.length }
  | some _ => { status := .hostTransferError }

/-- R136: the ACTIVE SURVEY in entry `e` whose entry writes are in flight, with its outcome. -/
def State.surveyInFlight (s : State) (e : Nat) : Option (Request × SurveyResult) :=
  (s.outgoing e (fun r => r.activeAs .survey)).bind (fun r => r.survey.map (fun result => (r, result)))

/-- R135, R136: SURVEY_ENTRY_WRITE_END. (log 15) -/
def execSurveyEntryWriteEnd (entry : Nat) (error : Option Nat) (s : State) : Host.Outcome State Fault Refusal :=
  match s.surveyInFlight entry with
  | some (r, result) => .next ((s.emitWrite r.record.buffer.toNat result.bytes error).afterWrites entry
      (fun t => t.complete entry (surveyCompletion result error)))
  | none => .next s

/-! ### Snapshots (R185) -/

/-- The ACTIVE request in entry `e` whose snapshot is being written, with the snapshot. -/
def State.snapshotInFlight (s : State) (e : Nat) : Option (Request × List Byte) :=
  (s.outgoing e (fun r => r.place == .active)).bind (fun r => r.snapshot.map (fun bs => (r, bs)))

/-- R185: the completion of a query whose snapshot write has ended. -/
def snapshotCompletion : Option Nat → Completion
  | none => { status := .success }
  | some _ => { status := .hostTransferError }

/-- R185: SNAPSHOT_WRITE_END. -/
def execSnapshotWriteEnd (entry : Nat) (error : Option Nat) (s : State) : Host.Outcome State Fault Refusal :=
  match s.snapshotInFlight entry with
  | some (r, bs) => .next ((s.emitWrite r.record.buffer.toNat bs error).afterWrites entry
      (fun t => t.complete entry (snapshotCompletion error)))
  | none => .next s

end Sys2Proof.Machine
end

