-- ==== Sys2Proof/Machine/Timers.lean ====
section
/-! DEFINITION. The three deadlines: of a set wait (R21), of a recall episode (R43) and of a unit's response (R111). A deadline's expiry has
its effect when its moment has come (log 8). -/

namespace Sys2Proof.Machine

/-- R21: the request in entry `e` whose set-wait deadline may expire: it is on a set wait list and its moment has come. -/
def State.setWaitDue (s : State) (e : Nat) : Option Request :=
  if s.part = .failed then none
  else (s.request e).filter (fun r => r.place == .parked .setWait && r.deadline.any s.due)

/-- R21: a request leaves its set wait list and completes with NO_LINE. -/
def State.expireSetWait (s : State) (e : Nat) (r : Request) : State := (s.depart e r).complete e { status := .noLine }

/-- R21: SET_WAIT_DEADLINE_EXPIRY. -/
def execSetWaitDeadlineExpiry (entry : Nat) (s : State) : Host.Outcome State Fault Refusal :=
  match s.setWaitDue entry with
  | some r => .next (s.expireSetWait entry r).finish
  | none => .next s

/-- R42, R43, R50: whether the deadline of episode `n` may expire: it is open, its moment has come, and the part is not FAILED. -/
def State.episodeDue (s : State) (n : Nat) : Bool :=
  s.part != .failed && (s.episode n).any (fun ep => s.due ep.deadline)

/-- R43: RECALL_DEADLINE_EXPIRY. -/
def execRecallDeadlineExpiry (episode : Nat) (s : State) : Host.Outcome State Fault Refusal :=
  if s.episodeDue episode then .next (s.expireEpisode episode).finish else .next s

/-- R111, R115: UNIT_RESPONSE_LIMIT_EXPIRY. It ends the operation in flight in FAILED too. -/
def execUnitResponseLimitExpiry (unit : Nat) (s : State) : Host.Outcome State Fault Refusal :=
  if s.acts unit then .next (s.expireResponse unit).finish else .next s

end Sys2Proof.Machine
end

