-- ==== Sys2Proof/Machine/UnitEvents.lean ====
section
/-! DEFINITION. The events of a unit port (R101), and the two steps in which a detach or a discard that waits goes on. -/

namespace Sys2Proof.Machine

/-! ### Events (R101, R108 to R110, R119 to R127, R131 to R134) -/

/-- R109: ARRIVED. -/
def execArrived (unit : Nat) (s : State) : Host.Outcome State Fault Refusal :=
  if s.acts unit then .next (s.onArrived unit).finish else .next s

/-- R108: HOME_FOUND. -/
def execHomeFound (unit : Nat) (s : State) : Host.Outcome State Fault Refusal :=
  if s.acts unit then .next (s.onHomeFound unit).finish else .next s

/-- R101: POSITION_FAULT. -/
def execPositionFault (unit : Nat) (s : State) : Host.Outcome State Fault Refusal :=
  if s.acts unit then .next (s.onPositionFault unit).finish else .next s

/-- R110, R121 to R123, R132: INDEX, after the data bytes delivered before it. -/
def execIndex (unit : Nat) (delivered : List Byte) (s : State) : Host.Outcome State Fault Refusal :=
  if s.acts unit then .next ((s.takeData unit delivered).onIndex unit).finish else .next s

/-- R110, R120, R122, R123, R132: HEADER, after the data bytes delivered before it. -/
def execHeader (unit : Nat) (track : BitVec 16) (surface sector size : Byte) (check : BitVec 16) (delivered : List Byte) (s : State) :
    Host.Outcome State Fault Refusal :=
  if s.acts unit then .next ((s.takeData unit delivered).onHeader unit ⟨track, surface, sector, size, check⟩).finish else .next s

/-- R122, R123: DATA_MARK, after the data bytes delivered before it. -/
def execDataMark (unit : Nat) (mark : Mark) (delivered : List Byte) (s : State) : Host.Outcome State Fault Refusal :=
  if s.acts unit then .next ((s.takeData unit delivered).onDataMark unit mark).finish else .next s

/-- R123: DATA_END, after the data bytes delivered before it. -/
def execDataEnd (unit : Nat) (check : BitVec 16) (delivered : List Byte) (s : State) : Host.Outcome State Fault Refusal :=
  if s.acts unit then .next ((s.takeData unit delivered).onDataEnd unit check).finish else .next s

/-- R127: WRITE_DONE. -/
def execWriteDone (unit : Nat) (s : State) : Host.Outcome State Fault Refusal :=
  if s.acts unit then .next (s.onWriteAnswer unit .success).finish else .next s

/-- R127: WRITE_FAULT. -/
def execWriteFault (unit : Nat) (s : State) : Host.Outcome State Fault Refusal :=
  if s.acts unit then .next (s.onWriteAnswer unit .writeFault).finish else .next s

/-- R113: READY_RISE. The part has four unit ports (R98). -/
def execReadyRise (unit : Nat) (s : State) : Host.Outcome State Fault Refusal :=
  if unit < Config.units then .next (s.onReadyRise unit).finish else .next s

/-- R112: READY_FALL. The part has four unit ports (R98). -/
def execReadyFall (unit : Nat) (s : State) : Host.Outcome State Fault Refusal :=
  if unit < Config.units then .next (s.onReadyFall unit).finish else .next s

/-! ### Administration that waits on a unit (R179, R182, R183; log 12) -/

/-- R179: DETACH_AWAITED_READS_END. -/
def execDetachAwaitedReadsEnd (unit : Nat) (s : State) : Host.Outcome State Fault Refusal :=
  if s.part = .failed then .next s else .next (s.detachTest unit).finish

/-- R182, R183: DISCARD_THIRD_STAGE. -/
def execDiscardThirdStage (unit : Nat) (s : State) : Host.Outcome State Fault Refusal :=
  if s.part = .failed then .next s else .next (s.discardTest unit).finish

end Sys2Proof.Machine
end

