-- ==== Sys2Proof/Machine/Clock.lean ====
section
/-! DEFINITION. The passing of time on an empty queue (0.6, Time; log 8). -/

namespace Sys2Proof.Machine

/-- 0.6: a deadline `d` must have expired by `d + 1` ms; this says that at a time `now` it has stood that long. -/
def overdue (now d : Nat) : Bool := decide (d + 1 ≤ now)

/-- R43: the open episodes that must expire now, ascending. -/
def State.overdueEpisodes (s : State) : List Instr :=
  if s.part = .failed then []
  else ((List.range Config.episodes).filter (fun n => (s.episode n).any (fun ep => overdue s.now ep.deadline))).map .recallDeadlineExpiry

/-- R21: the requests on set wait lists that must expire now, ascending by entry. -/
def State.overdueSetWaits (s : State) : List Instr :=
  if s.part = .failed then []
  else (s.held.filter (fun p => p.2.place == .parked .setWait && p.2.deadline.any (overdue s.now))).map
    (fun p => .setWaitDeadlineExpiry p.1)

/-- R111: the units whose operation in flight must expire now, ascending. -/
def State.overdueUnits (s : State) : List Instr :=
  ((List.range Config.units).filter (fun u => s.acts u && (s.unit u).op.any (fun o => overdue s.now o.deadline))).map
    .unitResponseLimitExpiry

/-- A millisecond passes: the expiries that must happen by now are put on the queue. -/
def State.tick (s : State) : State :=
  let t := { s with now := s.now + 1 }
  { t with pending := t.pending ++ t.overdueEpisodes ++ t.overdueSetWaits ++ t.overdueUnits }

end Sys2Proof.Machine
end

