-- ==== Sys2Proof/Machine/Dispatch.lean ====
section
/-! DEFINITION. The dispatch: one arm for each command, one direct call of its meaning. -/

namespace Sys2Proof.Machine

def exec (i : Instr) (s : State) : Host.Outcome State Fault Refusal :=
  match i with
  | .run => Sys2Proof.Machine.execRun s
  | .quiesce => Sys2Proof.Machine.execQuiesce s
  | .reset => Sys2Proof.Machine.execReset s
  | .invalidCommand value => Sys2Proof.Machine.execInvalidCommand value s
  | .powerOnReset => Sys2Proof.Machine.execPowerOnReset s
  | .bootAddressWrite high value => Sys2Proof.Machine.execBootAddressWrite high value s
  | .sqTail value => Sys2Proof.Machine.execSqTail value s
  | .cqHead value => Sys2Proof.Machine.execCqHead value s
  | .registerWriteIgnored offset bytes value => Sys2Proof.Machine.execRegisterWriteIgnored offset bytes value s
  | .bootReadEnd result => Sys2Proof.Machine.execBootReadEnd result s
  | .fetchGrant => Sys2Proof.Machine.execFetchGrant s
  | .fetchEnd result => Sys2Proof.Machine.execFetchEnd result s
  | .read tag hold unit surface track sector buffer => Sys2Proof.Machine.execRead tag hold unit surface track sector buffer s
  | .write tag hold unit surface track sector buffer => Sys2Proof.Machine.execWrite tag hold unit surface track sector buffer s
  | .release tag episode unit surface track sector => Sys2Proof.Machine.execRelease tag episode unit surface track sector s
  | .flush tag unit => Sys2Proof.Machine.execFlush tag unit s
  | .survey tag unit surface track buffer => Sys2Proof.Machine.execSurvey tag unit surface track buffer s
  | .barrier tag => Sys2Proof.Machine.execBarrier tag s
  | .abandon tag target => Sys2Proof.Machine.execAbandon tag target s
  | .channelOpen tag interrupt channel sqBase cqBase sqSize cqSize inFlightLimit holdQuota revokeLimit => Sys2Proof.Machine.execChannelOpen tag interrupt channel sqBase cqBase sqSize cqSize inFlightLimit holdQuota revokeLimit s
  | .channelClose tag channel => Sys2Proof.Machine.execChannelClose tag channel s
  | .unitAttach tag unit tracks surfaces sectors retries => Sys2Proof.Machine.execUnitAttach tag unit tracks surfaces sectors retries s
  | .unitDetach tag unit => Sys2Proof.Machine.execUnitDetach tag unit s
  | .unitDiscard tag unit => Sys2Proof.Machine.execUnitDiscard tag unit s
  | .setParameters tag recallTimeout setWaitTimeout highMark lowMark => Sys2Proof.Machine.execSetParameters tag recallTimeout setWaitTimeout highMark lowMark s
  | .queryChannel tag channel buffer => Sys2Proof.Machine.execQueryChannel tag channel buffer s
  | .queryUnit tag unit buffer => Sys2Proof.Machine.execQueryUnit tag unit buffer s
  | .queryLine tag unit surface track sector buffer => Sys2Proof.Machine.execQueryLine tag unit surface track sector buffer s
  | .snapshotWriteEnd entry error => Sys2Proof.Machine.execSnapshotWriteEnd entry error s
  | .recordWriteStart channel => Sys2Proof.Machine.execRecordWriteStart channel s
  | .recordWriteEnd channel error => Sys2Proof.Machine.execRecordWriteEnd channel error s
  | .readTransferComplete entry => Sys2Proof.Machine.execReadTransferComplete entry s
  | .readTransferError entry written => Sys2Proof.Machine.execReadTransferError entry written s
  | .writeTransferComplete entry data => Sys2Proof.Machine.execWriteTransferComplete entry data s
  | .writeTransferError entry placed => Sys2Proof.Machine.execWriteTransferError entry placed s
  | .surveyEntryWriteEnd entry error => Sys2Proof.Machine.execSurveyEntryWriteEnd entry error s
  | .setWaitDeadlineExpiry entry => Sys2Proof.Machine.execSetWaitDeadlineExpiry entry s
  | .recallDeadlineExpiry episode => Sys2Proof.Machine.execRecallDeadlineExpiry episode s
  | .unitResponseLimitExpiry unit => Sys2Proof.Machine.execUnitResponseLimitExpiry unit s
  | .arrived unit => Sys2Proof.Machine.execArrived unit s
  | .homeFound unit => Sys2Proof.Machine.execHomeFound unit s
  | .positionFault unit => Sys2Proof.Machine.execPositionFault unit s
  | .index unit delivered => Sys2Proof.Machine.execIndex unit delivered s
  | .header unit track surface sector size check delivered => Sys2Proof.Machine.execHeader unit track surface sector size check delivered s
  | .dataMark unit mark delivered => Sys2Proof.Machine.execDataMark unit mark delivered s
  | .dataEnd unit check delivered => Sys2Proof.Machine.execDataEnd unit check delivered s
  | .writeDone unit => Sys2Proof.Machine.execWriteDone unit s
  | .writeFault unit => Sys2Proof.Machine.execWriteFault unit s
  | .readyRise unit => Sys2Proof.Machine.execReadyRise unit s
  | .readyFall unit => Sys2Proof.Machine.execReadyFall unit s
  | .channelDrain channel => Sys2Proof.Machine.execChannelDrain channel s
  | .detachAwaitedReadsEnd unit => Sys2Proof.Machine.execDetachAwaitedReadsEnd unit s
  | .discardThirdStage unit => Sys2Proof.Machine.execDiscardThirdStage unit s
  | .quiescedEntry => Sys2Proof.Machine.execQuiescedEntry s

end Sys2Proof.Machine
end

