-- ==== Sys2Proof/Safety.lean ====
section
/-! DEFINITION. What a safe state of the part is: laws that the spec states of every moment, as predicates that later claims use. -/

namespace Sys2Proof.Machine

/-- Between steps no work waits (log 3). -/
def State.Settled (s : State) : Prop := s.agenda = []

/-- R166: no backlog holds more than its full number of entries. -/
def State.BacklogsBounded (s : State) : Prop := ∀ c, (s.channel c).backlog.length ≤ backlogLimit c

/-- R158: channel 0 is CLOSED or OPEN, and has no fence cause. -/
def State.AdminChannelWhole (s : State) : Prop :=
  ((s.channel 0).state = .closed ∨ (s.channel 0).state = .open) ∧ (s.channel 0).cause = .none

/-- R191: the failure cause is NONE in every state but FAILED, and in FAILED names a cause. -/
def State.CauseMatches (s : State) : Prop := s.part = .failed ↔ s.failure ≠ .none

/-- R44, R167: the two counts that stop at a ceiling. -/
def State.CountsCapped (s : State) : Prop := ∀ c, (s.channel c).revokeCount ≤ Config.revokeCeiling ∧ (s.channel c).lost ≤ Config.lostLimit

/-- The line store keeps its canonical form. -/
def State.StoreCanonical (s : State) : Prop := Memory.wf s.store = true

/-- The laws together. -/
structure State.Lawful (s : State) : Prop where
  backlogs : s.BacklogsBounded
  admin : s.AdminChannelWhole
  cause : s.CauseMatches
  counts : s.CountsCapped
  store : s.StoreCanonical

/-- R138: the number of entries of the request table that channel `c` holds. -/
def State.heldBy (s : State) (c : Nat) : Nat := ((List.range 256).filter (fun e => (s.request e).any (fun r => r.channel == c))).length

/-- R138, R154, R156, R157, R162, R163: in a part that is not FAILED each channel's in-flight count is the number of the entries it holds, with the
one set aside for the fetch in flight, and a channel that is CLOSED or FENCED has nothing in flight. -/
structure State.InFlightCounted (s : State) : Prop where
  counts : ∀ c, (s.channel c).inFlight = s.heldBy c + (if s.fetch.any (fun f => f.channel == c) then 1 else 0)
  aside : ∀ f, s.fetch = some f → f.entry < 256 ∧ s.request f.entry = none
  entries : ∀ e, 256 ≤ e → s.request e = none
  drained : ∀ c, (s.channel c).state = .closed ∨ (s.channel c).state = .fenced → (s.channel c).inFlight = 0
  /-- R158: channel 0 opens with the boot record -/
  boot : s.part = .halted ∨ s.part = .starting → (s.channel 0).state = .closed

/-! ### Terms that claims share -/

/-- R163: the record that the fetch in flight returns is taken on channel `c` into entry `e`; the channel's completions are queued
(R154, R170) and no BARRIER holds its fetches (R148, R162). -/
structure State.Takes (s : State) (c e : Nat) : Prop where
  fetch : s.fetch = some ⟨c, e⟩
  part : s.part = .running ∨ s.part = .quiescing
  opened : (s.channel c).state = .open
  posts : (s.channel c).postError = false
  clear : (s.channel c).fetchHold = none
  settled : s.Settled

/-- The request `r`, held in entry `e`, has not ended; its completion is queued on its channel and no BARRIER waits for it. -/
structure State.Completes (s : State) (e : Nat) (r : Request) : Prop where
  held : s.request e = some r
  undone : r.place ≠ .done
  posts : (s.channel r.channel).postError = false
  clear : (s.channel r.channel).fetchHold = none
  settled : s.Settled

/-- R139, R163: a channel's context after a record of it has been taken. -/
def Channel.taken (x : Channel) : Channel := { x with arrivals := x.arrivals + 1, sqHead := (x.sqHead + 1) % x.sqSize }

/-- The state after a record of channel `c` has been taken into entry `e` and has become the request `r`, nothing else changed. -/
def State.placed (s : State) (c e : Nat) (r : Request) : State :=
  { s with fetch := none, table := SMap.set none s.table e (some r), channels := SMap.set {} s.channels c (s.channel c).taken }

/-- The state after a record of channel `c` has been taken into entry `e` and its request has completed, nothing else changed. -/
def State.answered (s : State) (c e : Nat) (rec : Record) (x : Completion) : State :=
  { s with
    fetch := none, table := SMap.set none s.table e (some ((s.newRequest c rec).ended x)),
    channels := SMap.set {} s.channels c { (s.channel c).taken with postQueue := (s.channel c).postQueue ++ [e] } }

/-- The state after the request `r` of entry `e` has completed, nothing else changed. -/
def State.completed (s : State) (e : Nat) (r : Request) (x : Completion) : State :=
  { s with
    table := SMap.set none s.table e (some (r.ended x)),
    channels := SMap.set {} s.channels r.channel
      { s.channel r.channel with postQueue := (s.channel r.channel).postQueue ++ [e] } }

/-- A unit with no work that its sequencer could select (R105). -/
def UnitRec.workless (x : UnitRec) : Prop := x.flushList = [] ∧ x.fillQueue = [] ∧ x.surveyQueue = []

/-- No detach and no discard of a unit waits (R179, R182). -/
def UnitRec.unwaited (x : UnitRec) : Prop := x.detach = none ∧ x.discard = none

/-- Nothing waits for what the lines of unit `u` would set free, no WRITE is under way on them, and the channels that hold them can be told. -/
structure State.FreesPlainly (s : State) (u : Nat) : Prop where
  canonical : SMap.wf {} s.lines = true
  setWait : s.setWait = []
  slotWait : s.slotWait = []
  episodeWait : s.episodeWait = []
  unwritten : ∀ p ∈ s.lines, p.2.ofUnit u = true → p.2.episode = none ∧ p.2.writer = none
  tellable : ∀ p ∈ s.lines, p.2.ofUnit u = true → ∀ d ∈ p.2.holders,
    1 ≤ d ∧ d ≤ 15 ∧ (s.channel d).state = .open ∧ (s.channel d).backlog.length < 48

/-- R10, R48, R49: from `s` to `t` the lines of unit `u` have gone to FREE with their holds dropped, and every data channel that held any of them
has one HOLDS_DROPPED notice more. -/
def State.LinesFreed (s t : State) (u : Nat) : Prop :=
  (∀ k, t.line k = if (s.line k).ofUnit u then {} else s.line k)
  ∧ ∀ d, d ≠ 0 → t.channel d = { s.channel d with
      holdCount := (s.channel d).holdCount - ((s.lines.filter (fun p => p.2.ofUnit u)).map (fun p => p.2.holders.count d)).sum
      backlog := if s.lines.any (fun p => p.2.ofUnit u && p.2.holders.contains d)
        then (s.channel d).backlog ++ [.holdsDropped u] else (s.channel d).backlog }

/-- R194: the quiesce condition. -/
def State.QuiesceCondition (s : State) : Prop :=
  (∀ p ∈ s.held, p.2.kind ≠ some .read ∧ p.2.kind ≠ some .write ∧ p.2.kind ≠ some .survey ∧ p.2.kind ≠ some .flush)
  ∧ ∀ p ∈ s.lines, ∀ key, p.2.key = some key → (s.unit key.unit).state = .ready →
      p.2.state ≠ .dirty ∧ p.2.state ≠ .flushing ∧ p.2.state ≠ .reflush ∧ p.2.state ≠ .loading

/-- R78: epoch `a` is at most epoch `b`: b minus a, as a signed 32-bit value, is zero or positive. -/
abbrev EpochAtMost (a b : Epoch) : Prop := 0 ≤ (b - a).toInt

end Sys2Proof.Machine
end

