-- ==== Sys2Proof/Certificates/Slice0/Obligations.lean ====
section
/-! DEFINITION. The statements for the provers. Each docstring names the rules of spec/ that it formalises; an equation `exec i s = .next t` fixes
the whole next state, so its frame is part of it. A statement of the model's own choice says so with its log entry. -/

open Sys2Proof Sys2Proof.Machine

/-! ### The queue, the clock and every command -/

/-- 95_what_each_step_holds.md: a command is one whole step. A step runs the command at the front of the queue on the state with the rest
of the queue. -/
def Obligations.StepRunsFrontCommand : Prop :=
  ∀ (s : State) (c : Instr) (rest : List Instr), s.pending = c :: rest → step s = exec c { s with pending := rest }

/-- 0.6, Time. On an empty queue a millisecond passes, and the expiry of each deadline that has stood for a full millisecond joins the queue (the
model's choice, log 8). Nothing else changes. It speaks of a part that is not FAILED. -/
def Obligations.IdleStepQueuesExpiries : Prop :=
  ∀ s : State, s.pending = [] → s.part ≠ .failed → ∃ t, step s = .next t ∧ t.now = s.now + 1 ∧ { t with now := s.now, pending := [] } = s
    ∧ (∀ n, Instr.recallDeadlineExpiry n ∈ t.pending ↔ n < 32 ∧ ∃ ep, s.episode n = some ep ∧ ep.deadline ≤ s.now)
    ∧ (∀ e, Instr.setWaitDeadlineExpiry e ∈ t.pending ↔
        ∃ r d, (e, r) ∈ s.held ∧ r.place = .parked .setWait ∧ r.deadline = some d ∧ d ≤ s.now)
    ∧ (∀ u, Instr.unitResponseLimitExpiry u ∈ t.pending ↔
        u < 4 ∧ (s.unit u).state ≠ .detached ∧ ∃ o, (s.unit u).op = some o ∧ o.deadline ≤ s.now)

/-- Every command is one whole step with an effect: none faults and none is refused, none touches the queue or the clock, and none leaves work
behind. That every command completes in every settled state is a property of the model; the queue and the clock are its own fields (log 8, log 25).
-/
def Obligations.EveryCommandIsOneWholeStep : Prop :=
  ∀ (i : Instr) (s : State), s.Settled → ∃ t, exec i s = .next t ∧ t.Settled ∧ t.pending = s.pending ∧ t.now = s.now

/-! ### PC: commands, reset, the boot record, the window -/

/-- R192: what a write to PART_CONTROL does in each part state: RUN, QUIESCE and RESET are taken or refused by the table, a refused command
changes nothing but the last refused command, any other value is refused and recorded as INVALID, and no other command but a reset changes the
last refused command. -/
def Obligations.ControlWritesByPartState : Prop :=
  (∀ s : State,
    (s.part = .halted → s.bootAddress.toNat % 64 = 0 → s.bootAddress.toNat + 64 ≤ 2 ^ 64 →
      exec .run s = .next { s with part := .starting, outbox := .hostRead s.bootAddress.toNat 64 :: s.outbox })
    ∧ (s.part = .halted → ¬ (s.bootAddress.toNat % 64 = 0 ∧ s.bootAddress.toNat + 64 ≤ 2 ^ 64) →
      exec .run s = .next { s with part := .failed, failure := .bootInvalid })
    ∧ (s.part = .quiesced → exec .run s = .next { s with part := .running })
    ∧ (s.part ≠ .halted → s.part ≠ .quiesced → exec .run s = .next { s with lastRefused := .run })
    ∧ (s.part = .running → exec .quiesce s = .next { s with part := .quiescing }
        ∨ exec .quiesce s = .next { s with part := .quiesced })
    ∧ (s.part ≠ .running → exec .quiesce s = .next { s with lastRefused := .quiesce })
    ∧ (∃ t, exec .reset s = .next t ∧ t.part = .halted ∧ t.lastRefused = .none)
    ∧ (∀ v : BitVec 32, v ≠ 1 → v ≠ 2 → v ≠ 3 →
        decodeWrite 0x004 4 v = .invalidCommand v ∧ exec (.invalidCommand v) s = .next { s with lastRefused := .invalid }))
  ∧ decodeWrite 0x004 4 1 = .run ∧ decodeWrite 0x004 4 2 = .quiesce ∧ decodeWrite 0x004 4 3 = .reset
  ∧ ∀ (i : Instr) (s t : State), i ≠ .run → i ≠ .quiesce → i ≠ .reset → i ≠ .powerOnReset → (∀ v, i ≠ .invalidCommand v) →
      exec i s = .next t → t.lastRefused = s.lastRefused

/-- R194: QUIESCE taken in RUNNING tests the quiesce condition in its own step and takes the part to QUIESCED where it holds, to QUIESCING where
it does not. QUIESCED_ENTRY makes the same test in QUIESCING and does nothing in any other state (its row as a test is the model's reading,
log 12). -/
def Obligations.QuiescedWhenTheConditionHolds : Prop :=
  ∀ s : State,
    (s.part = .running → s.QuiesceCondition → exec .quiesce s = .next { s with part := .quiesced })
    ∧ (s.part = .running → ¬ s.QuiesceCondition → exec .quiesce s = .next { s with part := .quiescing })
    ∧ (s.part = .quiescing → s.QuiesceCondition → exec .quiescedEntry s = .next { s with part := .quiesced })
    ∧ (s.part = .quiescing → ¬ s.QuiesceCondition → exec .quiescedEntry s = .next s)
    ∧ (s.part ≠ .quiescing → exec .quiescedEntry s = .next s)

/-- R27, R28, R51, R97, R116, R155, R174, R191, R196: after either reset the part is HALTED and every block has its reset values; RESET keeps
BOOT_ADDRESS and the last failure cause, or takes the failure cause of a FAILED part into the latter. A unit record keeps the level of its ready
line, and a write gate that was on is turned off. The context and the record of a channel and of a unit are stated whole, with the values the model
chose where no rule states one (log 19, log 20). -/
def Obligations.ResetsClearEveryBlock : Prop :=
  ∀ s : State, ∃ t t', exec .reset s = .next t ∧ exec .powerOnReset s = .next t'
    ∧ t.part = .halted ∧ t.failure = .none ∧ t.lastRefused = .none ∧ t.params = none
    ∧ t.bootAddress = s.bootAddress ∧ t.lastFailure = (if s.part = .failed then s.failure else s.lastFailure)
    ∧ (∀ c, t.channel c = {}) ∧ t.fetch = none ∧ t.lastGranted = 15 ∧ t.eventSet = []
    ∧ (∀ e, t.request e = none) ∧ (∀ k, t.line k = {}) ∧ (∀ n, t.order n = [0, 1, 2, 3]) ∧ (∀ n, t.waiters n = [])
    ∧ (∀ n, t.refCount n = 0) ∧ t.slotWait = [] ∧ (∀ n, t.episode n = none) ∧ t.episodeWait = []
    ∧ t.dirtyCount = 0 ∧ t.pressure = false
    ∧ (∀ u, u < 4 → t.unit u = { readyLine := (s.unit u).readyLine })
    ∧ (∀ u, u < 4 → (s.unit u).writeGate = true → Output.writeGateOff u ∈ t.outbox)
    ∧ t' = { t with bootAddress := 0, lastFailure := .none }

/-- R190, R191, R200: the register window beside the commands. In HALTED a write of a half of BOOT_ADDRESS replaces that half and nothing else; in any
other state it is ignored. A write that the window does not take changes nothing, whatever it carries, and every write is a command that the outside
can send. A read of each register returns its fields. The dirty count is at most 4096, as the number of lines. -/
def Obligations.WindowWritesAndReads : Prop :=
  (∀ (s : State) (v : BitVec 32),
     decodeWrite 0x010 4 v = .bootAddressWrite false v ∧ decodeWrite 0x014 4 v = .bootAddressWrite true v
     ∧ (s.part = .halted →
       (∃ t, exec (.bootAddressWrite false v) s = .next t ∧ t.bootAddress.toNat = s.bootAddress.toNat / 2 ^ 32 * 2 ^ 32 + v.toNat
         ∧ { t with bootAddress := s.bootAddress } = s)
       ∧ (∃ t, exec (.bootAddressWrite true v) s = .next t ∧ t.bootAddress.toNat = v.toNat * 2 ^ 32 + s.bootAddress.toNat % 2 ^ 32
         ∧ { t with bootAddress := s.bootAddress } = s))
     ∧ (s.part ≠ .halted → exec (.bootAddressWrite false v) s = .next s ∧ exec (.bootAddressWrite true v) s = .next s))
  ∧ (∀ (offset : BitVec 12) (bytes : Nat) (v : BitVec 32) (s : State),
      exec (.registerWriteIgnored offset bytes v) s = .next s
      ∧ (decodeWrite offset bytes v).wellFormed = true
      ∧ (¬ (bytes = 4 ∧ (offset = 0x004 ∨ offset = 0x010 ∨ offset = 0x014 ∨ offset = 0x018 ∨ offset = 0x01C)) →
          exec (decodeWrite offset bytes v) s = .next s))
  ∧ (∀ s : State, s.dirtyCount ≤ 4096 →
    s.readRegister 0x000 4 = 0x14A15A31
    ∧ (s.readRegister 0x008 4).extractLsb' 0 3 = BitVec.ofNat 3 s.part.code
    ∧ (s.readRegister 0x008 4).extractLsb' 4 4 = BitVec.ofNat 4 s.failure.code
    ∧ (s.readRegister 0x008 4).extractLsb' 8 4 = BitVec.ofNat 4 s.lastFailure.code
    ∧ (s.readRegister 0x008 4).extractLsb' 12 2 = BitVec.ofNat 2 s.lastRefused.code
    ∧ (s.readRegister 0x008 4).extractLsb' 16 13 = BitVec.ofNat 13 (if s.part = .quiesced then s.dirtyCount else 0)
    ∧ s.readRegister 0x014 4 ++ s.readRegister 0x010 4 = s.bootAddress
    ∧ (∀ c, c < 16 → (s.readRegister 0x020 4).getLsbD c = s.eventSet.contains c)
    ∧ (∀ c, 16 ≤ c → (s.readRegister 0x020 4).getLsbD c = false)
    ∧ (∀ offset bytes, bytes ≠ 4 ∨ offset = 0x004 ∨ offset = 0x018 ∨ offset = 0x01C → s.readRegister offset bytes = 0))

/-- R193: the boot record read of a STARTING part ends. An error fails the part with BOOT_FETCH_ERROR. A record whose fields meet the requirements
takes the part to RUNNING with the four parameters in force and channel 0 at open; one whose version is not 1 fails it with BOOT_INVALID. It speaks
of records whose fields meet the ranges, with the version free. -/
def Obligations.BootRecordStartsThePart : Prop :=
  ∀ (s : State) (interrupt : Bool) (version : Byte) (sqBase cqBase : Addr) (m n : Nat) (recallMs setWaitMs high low : BitVec 16),
    s.part = .starting → s.pressure = false → s.dirtyCount = 0 → 4 ≤ m → m ≤ 8 → 4 ≤ n → n ≤ 8 →
    sqBase.toNat % 64 = 0 → sqBase.toNat + 2 ^ m * 64 ≤ 2 ^ 64 → cqBase.toNat % 64 = 0 → cqBase.toNat + 2 ^ n * 32 ≤ 2 ^ 64 →
    1 ≤ recallMs.toNat → recallMs.toNat ≤ 60000 → 1 ≤ setWaitMs.toNat → setWaitMs.toNat ≤ 60000 →
    1 ≤ high.toNat → high.toNat ≤ 4096 → low.toNat < high.toNat →
    let record := [version, if interrupt then 1 else 0, 0, 0, 0, 0, 0, 0] ++ leBytes 8 sqBase.toNat ++ leBytes 8 cqBase.toNat
      ++ leBytes 2 (2 ^ m) ++ leBytes 2 (2 ^ n) ++ leBytes 2 recallMs.toNat ++ leBytes 2 setWaitMs.toNat ++ leBytes 2 high.toNat
      ++ leBytes 2 low.toNat ++ List.replicate 28 0
    exec (.bootReadEnd none) s = .next { s with part := .failed, failure := .bootFetchError }
    ∧ (version ≠ 1 → exec (.bootReadEnd (some record)) s = .next { s with part := .failed, failure := .bootInvalid })
    ∧ (version = 1 → exec (.bootReadEnd (some record)) s = .next
        { s with part := .running, params := some ⟨recallMs.toNat, setWaitMs.toNat, high.toNat, low.toNat⟩,
                 channels := SMap.set {} s.channels 0
                   { state := .open, rings := some ⟨sqBase, 2 ^ m, cqBase, 2 ^ n⟩, limit := some 8, interrupt, opened := true } })

/-! ### QI: index posts, the arbiter, fetches, fences -/

/-- R159: a tail post of an OPEN channel is applied when it is below the ring's size and does not shorten the outstanding run; an invalid one is not
applied and fails the part for channel 0, or takes a data channel out of service with BAD_TAIL; on any other channel the post is ignored. It speaks
of a settled part that is not FAILED. -/
def Obligations.TailPostTaken : Prop :=
  ∀ (s : State) (v : BitVec 32) (c n : Nat), s.Settled → s.part ≠ .failed → c = v.toNat % 16 → n = v.toNat / 2 ^ 16 % 2 ^ 12 →
    let x := s.channel c
    let valid := n < x.sqSize ∧ (x.sqTail + x.sqSize - x.sqHead) % x.sqSize ≤ (n + x.sqSize - x.sqHead) % x.sqSize
    (x.state = .open → valid → exec (.sqTail v) s = .next { s with channels := SMap.set {} s.channels c { x with sqTail := n } })
    ∧ (x.state = .open → ¬ valid → c = 0 → exec (.sqTail v) s = .next { s with part := .failed, failure := .adminBadTail })
    ∧ (x.state = .open → ¬ valid → c ≠ 0 → ∃ t, exec (.sqTail v) s = .next t ∧ (t.channel c).sqTail = x.sqTail
        ∧ ((t.channel c).state = .fencing ∨ (t.channel c).state = .fenced ∨ (t.channel c).state = .closed) ∧ (t.channel c).cause = .badTail)
    ∧ (x.state ≠ .open → exec (.sqTail v) s = .next s)

/-- R160, R168: a head post of an OPEN, CLOSING or FENCING channel is applied when it is below the ring's size and within the posted region, and the
channel leaves EVENT_SET; an invalid one is not applied and fails the part for channel 0, takes an OPEN or CLOSING data channel to a fence with
BAD_HEAD, and is ignored on a FENCING one; on any other channel the post is ignored. It speaks of a settled part that is not FAILED. -/
def Obligations.HeadPostTaken : Prop :=
  ∀ (s : State) (v : BitVec 32) (c n : Nat), s.Settled → s.part ≠ .failed → c = v.toNat % 16 → n = v.toNat / 2 ^ 16 % 2 ^ 12 →
    let x := s.channel c
    let valid := n < x.cqSize ∧ (n + x.cqSize - x.cqHead) % x.cqSize ≤ (x.posted + x.cqSize - x.cqHead) % x.cqSize
    let listens := x.state = .open ∨ x.state = .closing ∨ x.state = .fencing
    (listens → valid → exec (.cqHead v) s = .next
        { s with channels := SMap.set {} s.channels c { x with cqHead := n }, eventSet := s.eventSet.filter (· ≠ c) })
    ∧ (listens → ¬ valid → c = 0 → exec (.cqHead v) s = .next { s with part := .failed, failure := .adminBadHead })
    ∧ (x.state = .open ∨ x.state = .closing → ¬ valid → c ≠ 0 → ∃ t, exec (.cqHead v) s = .next t ∧ (t.channel c).cqHead = x.cqHead
        ∧ ((t.channel c).state = .fencing ∨ (t.channel c).state = .fenced ∨ (t.channel c).state = .closed) ∧ (t.channel c).cause = .badHead)
    ∧ (x.state = .fencing → ¬ valid → c ≠ 0 → exec (.cqHead v) s = .next s)
    ∧ (¬ listens → exec (.cqHead v) s = .next s)

/-- R46, R148, R149, R158, R169: a fence cause taken for an OPEN data channel: the state becomes FENCING and the cause is recorded, no line's holder
set contains the channel any more, its hold count is 0, its backlog is empty and its fetch hold clear, each of its requests that was PARKED has ended
with FENCED, and under COMPLETION_POST_ERROR its post queue is empty. Channel 0 is never fenced. The hold count was the number of lines that the
channel holds (R29), and a fetch hold that was set stood for a parked BARRIER (R148). The operation stated is the one that every fence cause goes
through. That what the dropped holds set in motion runs after the PARKED requests have ended is the model's choice (log 32). -/
def Obligations.FenceTakesChannelOutOfService : Prop :=
  ∀ (s : State) (c : Nat) (cause : FenceCause),
    let x := s.channel c
    let t := s.fence c cause
    s.fence 0 cause = s
    ∧ (c ≠ 0 → x.state = .open →
        (t.channel c).state = .fencing ∧ (t.channel c).cause = cause
        ∧ (∀ k, c ∉ (t.line k).holders) ∧ (t.channel c).backlog = []
        ∧ (x.holdCount = (s.lines.filter (fun p => p.2.holders.contains c)).length → (t.channel c).holdCount = 0)
        ∧ ((∀ b, x.fetchHold = some b → ∃ r, s.request b = some r ∧ r.channel = c ∧ r.place = .parked .fetchHold) →
            (t.channel c).fetchHold = none)
        ∧ (∀ e r, t.request e = some r → r.channel = c → r.isParked = false)
        ∧ (∀ e r, s.request e = some r → r.channel = c → r.isParked = true → x.postError = false → cause ≠ .completionPostError →
            t.request e = some (r.ended { status := .fenced, epoch := s.barrierEpoch e r }))
        ∧ (cause = .completionPostError → (t.channel c).postQueue = []))

/-- R162: while none is in flight and the part is RUNNING or QUIESCING, the arbiter grants channel 0 whenever it is eligible, otherwise the eligible
data channel whose turn comes first after the one last granted; both counts rise by 1, an entry is set aside and the record read starts. A grant to
channel 0 leaves the turn where it was. With no channel eligible, and in any other part state, nothing is granted. After either reset the last
granted channel is 15. It speaks of states whose last granted channel is a data channel, 1 to 15. -/
def Obligations.FetchGrantedInTurn : Prop :=
  (∀ s : State, ∃ t t', exec .reset s = .next t ∧ exec .powerOnReset s = .next t' ∧ t.lastGranted = 15 ∧ t'.lastGranted = 15)
  ∧ ∀ s : State, 1 ≤ s.lastGranted → s.lastGranted ≤ 15 →
    let eligible := fun c => (s.channel c).state = .open ∧ (s.channel c).sqHead ≠ (s.channel c).sqTail
      ∧ (∃ l, (s.channel c).limit = some l ∧ (s.channel c).inFlight < l)
      ∧ (s.channel c).reserved < (s.channel c).cqSize - 1 - ((s.channel c).cqTail + (s.channel c).cqSize - (s.channel c).cqHead) % (s.channel c).cqSize
      ∧ (s.channel c).fetchHold = none
    let turn := fun c => (c + 14 - s.lastGranted) % 15
    (s.fetch = none → s.part = .running ∨ s.part = .quiescing → (∃ e, e < 256 ∧ s.request e = none) → (∃ c, c ≤ 15 ∧ eligible c) →
      ∃ c e, c ≤ 15 ∧ eligible c ∧ e < 256 ∧ s.request e = none
        ∧ (c = 0 ∨ (¬ eligible 0 ∧ ∀ d, 1 ≤ d → d ≤ 15 → eligible d → turn c ≤ turn d))
        ∧ exec .fetchGrant s = .next
            { s with fetch := some ⟨c, e⟩, lastGranted := if c = 0 then s.lastGranted else c,
                     channels := SMap.set {} s.channels c
                       { s.channel c with inFlight := (s.channel c).inFlight + 1, reserved := (s.channel c).reserved + 1 },
                     outbox := .hostRead ((s.channel c).sqBase + 64 * (s.channel c).sqHead) 64 :: s.outbox })
    ∧ (¬ (s.fetch = none ∧ (s.part = .running ∨ s.part = .quiescing) ∧ (∃ e, e < 256 ∧ s.request e = none) ∧ ∃ c, c ≤ 15 ∧ eligible c) →
        exec .fetchGrant s = .next s)

/-- R157, R163, R170, R174: a fetch that ends without its record being taken frees the entry set aside, lowers both counts and leaves the SQ head where
it was: a record returned in a QUIESCED part, or to a channel that has left OPEN, and an error. On a channel that has left OPEN an error sets no
cause, and when the fetch was the last request in flight the channel drains. An error fails the part for channel 0, and takes an OPEN data channel to a
fence with SUBMIT_FETCH_ERROR, stated whole for a channel that holds no line and has no request PARKED. In FAILED the counts stay as they stand. The
channel of the fetch has it in its in-flight count and is neither FENCED nor CLOSED (InFlightCountsMatchTheTable). -/
def Obligations.FetchEndsWithoutARecord : Prop :=
  ∀ (s : State) (c e : Nat) (bs : List Byte), s.Settled → s.fetch = some ⟨c, e⟩ →
    let x := s.channel c
    let y := { x with reserved := x.reserved - 1, inFlight := x.inFlight - 1 }
    let returned := { s with fetch := none, channels := SMap.set {} s.channels c y }
    0 < x.inFlight → x.state ≠ .fenced → x.state ≠ .closed →
    (s.part = .failed → exec (.fetchEnd none) s = .next { s with fetch := none }
      ∧ exec (.fetchEnd (some bs)) s = .next { s with fetch := none })
    ∧ (s.part = .quiesced → x.state = .open → exec (.fetchEnd (some bs)) s = .next returned)
    ∧ (s.part ≠ .failed → c ≠ 0 → x.state = .closing ∨ x.state = .fencing → 1 < x.inFlight ∨ x.writing ≠ none →
        exec (.fetchEnd (some bs)) s = .next returned ∧ exec (.fetchEnd none) s = .next returned)
    ∧ (∀ d r, s.part ≠ .failed → c ≠ 0 → x.state = .closing → x.inFlight = 1 → x.writing = none → x.closeEntry = some d → s.Completes d r →
        r.channel = 0 → ∀ result, result = none ∨ result = some bs → ∃ t, exec (.fetchEnd result) s = .next t ∧ t.fetch = none
          ∧ t.channel c = { y with state := .closed, closeEntry := none } ∧ t.eventSet = s.eventSet.filter (· != c)
          ∧ t.request d = some (r.ended { status := .success })
          ∧ (∀ b, b ≠ c → t.channel b = (s.completed d r { status := .success }).channel b))
    ∧ (s.part ≠ .failed → c ≠ 0 → x.state = .fencing → x.inFlight = 1 → x.writing = none → x.closePending = false → (s.channel 0).state = .open →
        (s.channel 0).backlog.length < 32 → ∀ result, result = none ∨ result = some bs → ∃ t, exec (.fetchEnd result) s = .next t ∧ t.fetch = none
          ∧ t.channel c = { y with state := .fenced } ∧ t.eventSet = s.eventSet.filter (· != c)
          ∧ t.channel 0 = { s.channel 0 with backlog := (s.channel 0).backlog ++ [.channelFenced c x.cause] }
          ∧ (∀ b, b ≠ c → b ≠ 0 → t.channel b = s.channel b) ∧ t.table = s.table)
    ∧ (s.part ≠ .failed → c = 0 → x.state = .open →
        exec (.fetchEnd none) s = .next { returned with part := .failed, failure := .adminFetchError })
    ∧ (s.part ≠ .failed → c ≠ 0 → x.state = .open → ∃ t, exec (.fetchEnd none) s = .next t ∧ t.fetch = none
        ∧ (t.channel c).sqHead = x.sqHead ∧ (t.channel c).cause = .submitFetchError
        ∧ ((t.channel c).state = .fencing ∨ (t.channel c).state = .fenced ∨ (t.channel c).state = .closed))
    ∧ (s.part ≠ .failed → c ≠ 0 → x.state = .open → 1 < x.inFlight → (∀ p ∈ s.lines, c ∉ p.2.holders) →
        (∀ p ∈ s.held, p.2.channel = c → p.2.isParked = false) →
        exec (.fetchEnd none) s = .next
          { returned with channels := SMap.set {} s.channels c { y with state := .fencing, cause := .submitFetchError, backlog := [] } })

/-! ### RT: records, validation, and the record kinds -/

/-- R197: the bytes of a record read back as the record, the bytes of a ring entry are those of the record read from them, and the fetch in flight
that ends with the bytes of a record-kind command's record is that command. That a record-kind command is the end of a fetch is the model's reading
of the table (log 5). -/
def Obligations.RecordBytesRoundTrip : Prop :=
  (∀ r : Record, r.gap.length = 4 → r.rest.length = 24 → Record.parse r.bytes = r)
  ∧ (∀ bs : List Byte, bs.length = 64 → (Record.parse bs).bytes = bs)
  ∧ (∀ (i : Instr) (r : Record), i.record = some r → ∀ s, exec (.fetchEnd (some r.bytes)) s = exec i s)

/-- R141, R142, R143, R144, R145, R146: the checks of a READ and of a WRITE in their order, and the status of the first that fails. -/
def Obligations.DataKindChecksInOrder : Prop :=
  ∀ (s : State) (c : Nat) (tag : BitVec 16) (hold : Bool) (unit surface : Byte) (track : BitVec 16) (sector : Byte) (buffer : Addr),
    let first : Option Status :=
      if c = 0 then some .badKind
      else if 3 < unit.toNat then some .badRecord
      else if buffer.toNat % 64 ≠ 0 ∨ 2 ^ 64 < buffer.toNat + 1024 then some .badAddress
      else if s.part = .quiescing then some .quiescing
      else if (s.unit unit.toNat).state = .detached then some .unitDetached
      else if ¬ (s.unit unit.toNat).geometry.any (fun g => track.toNat < g.tracks ∧ surface.toNat < g.surfaces ∧ sector.toNat < g.sectors)
        then some .badRecord
      else if (s.unit unit.toNat).discarding then some .discarded
      else none
    s.validate c (readRecord tag hold unit surface track sector buffer) = first
    ∧ s.validate c (writeRecord tag hold unit surface track sector buffer) = first

/-- R143, R144, R176, R177, R178, R179, R181, R184, R186, R187, R188: on channel 0 the checks of the administration kinds admit exactly these ranges
and addresses; a query's 64-byte buffer is aligned and ends within host space. -/
def Obligations.AdministrationFieldRanges : Prop :=
  ∀ (s : State) (tag : BitVec 16),
    let sizes := [16, 32, 64, 128, 256, 512, 1024, 2048, 4096]
    (∀ (intr : Bool) (ch : Byte) (sqBase cqBase : Addr) (sqSize cqSize : BitVec 16) (limit quota revoke : Byte),
      s.validate 0 (channelOpenRecord tag intr ch sqBase cqBase sqSize cqSize limit quota revoke) =
        if ¬ (1 ≤ ch.toNat ∧ ch.toNat ≤ 15 ∧ sqSize.toNat ∈ sizes ∧ cqSize.toNat ∈ sizes
          ∧ 1 ≤ limit.toNat ∧ limit.toNat ≤ 64 ∧ quota.toNat ≤ 64 ∧ revoke.toNat ≤ 15) then some .badRecord
        else if sqBase.toNat % 64 ≠ 0 ∨ 2 ^ 64 < sqBase.toNat + sqSize.toNat * 64 ∨ cqBase.toNat % 64 ≠ 0
          ∨ 2 ^ 64 < cqBase.toNat + cqSize.toNat * 32 then some .badAddress
        else none)
    ∧ (∀ ch : Byte, s.validate 0 (channelCloseRecord tag ch) = if 1 ≤ ch.toNat ∧ ch.toNat ≤ 15 then none else some .badRecord)
    ∧ (∀ (u : Byte) (tracks : BitVec 16) (surfaces sectors retries : Byte),
        s.validate 0 (unitAttachRecord tag u tracks surfaces sectors retries) =
          if u.toNat ≤ 3 ∧ 1 ≤ tracks.toNat ∧ tracks.toNat ≤ 2048 ∧ 1 ≤ surfaces.toNat ∧ surfaces.toNat ≤ 2 ∧ 1 ≤ sectors.toNat
            ∧ sectors.toNat ≤ 32 ∧ retries.toNat ≤ 3 then none else some .badRecord)
    ∧ (∀ u : Byte, s.validate 0 (unitDetachRecord tag u) = (if u.toNat ≤ 3 then none else some .badRecord)
        ∧ s.validate 0 (unitDiscardRecord tag u) = if u.toNat ≤ 3 then none else some .badRecord)
    ∧ (∀ recallMs setWaitMs high low : BitVec 16, s.validate 0 (setParametersRecord tag recallMs setWaitMs high low) =
        if 1 ≤ recallMs.toNat ∧ recallMs.toNat ≤ 60000 ∧ 1 ≤ setWaitMs.toNat ∧ setWaitMs.toNat ≤ 60000 ∧ 1 ≤ high.toNat ∧ high.toNat ≤ 4096
          ∧ low.toNat < high.toNat then none else some .badRecord)
    ∧ (∀ (n surface sector : Byte) (track : BitVec 16) (buffer : Addr),
        let placed := if buffer.toNat % 64 ≠ 0 ∨ 2 ^ 64 < buffer.toNat + 64 then some Status.badAddress else none
        s.validate 0 (queryChannelRecord tag n buffer) = (if n.toNat ≤ 15 then placed else some .badRecord)
        ∧ s.validate 0 (queryUnitRecord tag n buffer) = (if n.toNat ≤ 3 then placed else some .badRecord)
        ∧ s.validate 0 (queryLineRecord tag n surface track sector buffer) = (if n.toNat ≤ 3 then placed else some .badRecord))

/-- R141: a record that fails a check of validation completes with that check's status in the step of its taking, with no flags and a count
and epoch of 0, and acts on nothing: it takes its entry and an arrival number, and nothing else changes. -/
def Obligations.FailedCheckCompletesAtOnce : Prop :=
  ∀ (s : State) (c e : Nat) (bs : List Byte) (status : Status), s.Takes c e → s.validate c (Record.parse bs) = some status →
    exec (.fetchEnd (some bs)) s = .next (s.answered c e (Record.parse bs) { status })

/-- R15, R53, R59: a READ that hits a line whose data is valid and for which no request waits starts its read transfer: it becomes ACTIVE with
the line's current slot as its delivered slot and the line's mark captured, the slot takes a reference, and the way moves to most recent. -/
def Obligations.ReadHitStartsItsTransfer : Prop :=
  ∀ (s : State) (c e k slot : Nat) (tag : BitVec 16) (hold : Bool) (unit surface : Byte) (track : BitVec 16) (sector : Byte) (buffer : Addr),
    let record := readRecord tag hold unit surface track sector buffer
    s.Takes c e → s.validate c record = none → s.lookup record.key = some k → (s.line k).state ≠ .filling → (s.line k).state ≠ .loading →
    (s.line k).waitList = [] → (s.line k).currentSlot = some slot →
    exec (.read tag hold unit surface track sector buffer) s = .next
      { s.placed c e { s.newRequest c record with place := .active, line := some k, delivered := some slot, captured := some (s.line k).mark } with
        refs := SMap.set 0 s.refs slot (s.refCount slot + 1)
        recency := SMap.set [0, 1, 2, 3] s.recency (k / 4) (k % 4 :: (s.order (k / 4)).filter (· != k % 4)) }

/-- R5, R17, R52, R103: a READ that misses takes the least recent FREE way and a slot: the way goes to FILLING with the READ first on its wait list,
and the line joins the tail of its unit's fill queue. On a unit that is not READY it completes with UNIT_NOT_READY instead. In the first case no
request of the set waits and an operation is in flight on the unit; the slot taken is the one the model takes (log 10). -/
def Obligations.ReadMissClaimsAWay : Prop :=
  ∀ (s : State) (c e k slot : Nat) (tag : BitVec 16) (hold : Bool) (unit surface : Byte) (track : BitVec 16) (sector : Byte) (buffer : Addr),
    let record := readRecord tag hold unit surface track sector buffer
    let set := s.setOfKey record.key
    s.Takes c e → s.validate c record = none → s.lookup record.key = none →
    ((s.unit unit.toNat).state ≠ .ready →
      exec (.read tag hold unit surface track sector buffer) s = .next (s.answered c e record { status := .unitNotReady }))
    ∧ ((s.unit unit.toNat).state = .ready → (s.unit unit.toNat).op.isSome → s.leastRecent set (fun j => (s.line j).state == .free) = some k →
      s.line k = {} → s.freeSlot = some slot → (∀ p ∈ s.setWait, p.1 ≠ set) → k / 4 = set →
      exec (.read tag hold unit surface track sector buffer) s = .next
        { s.placed c e { s.newRequest c record with place := .parked .lineWait, line := some k, miss := true } with
          lines := SMap.set {} s.lines k { state := .filling, key := some record.key, currentSlot := some slot, waitList := [e] }
          refs := SMap.set 0 s.refs slot 1
          recency := SMap.set [0, 1, 2, 3] s.recency set (k % 4 :: (s.order set).filter (· != k % 4))
          units := SMap.set {} s.units unit.toNat
            { s.unit unit.toNat with fillQueue := (s.unit unit.toNat).fillQueue ++ [k] } })

/-- R24, R37, R54, R63: a WRITE that hits a line without writer, for which no request waits and which no other channel holds, becomes the line's
writer, takes a staging slot and starts its host transfer. The slot taken is the one the model takes (log 10). -/
def Obligations.WriteHitBecomesWriter : Prop :=
  ∀ (s : State) (c e k slot : Nat) (tag : BitVec 16) (hold : Bool) (unit surface : Byte) (track : BitVec 16) (sector : Byte) (buffer : Addr),
    let record := writeRecord tag hold unit surface track sector buffer
    s.Takes c e → s.validate c record = none → s.lookup record.key = some k → (s.line k).state ≠ .filling → (s.line k).state ≠ .loading →
    (s.line k).waitList = [] → (s.line k).writer = none → (∀ d ∈ (s.line k).holders, d = c) → s.freeSlot = some slot →
    exec (.write tag hold unit surface track sector buffer) s = .next
      { s.placed c e { s.newRequest c record with place := .active, line := some k, staging := some slot } with
        lines := SMap.set {} s.lines k { s.line k with writer := some e }
        refs := SMap.set 0 s.refs slot 1
        outbox := .hostRead buffer.toNat 1024 :: s.outbox }

/-- R36, R37, R42: a WRITE whose line other channels hold opens the lowest-numbered free episode record: the WRITE parks under it, the recall set is
recalled and pending, the deadline is the recall timeout from now, and a RECALL joins the backlog of each recalled channel. The recalled channels
are OPEN and have room in their backlogs. -/
def Obligations.WriteRecallsTheOtherHolders : Prop :=
  ∀ (s : State) (c e k n : Nat) (p : Params) (tag : BitVec 16) (hold : Bool) (unit surface : Byte) (track : BitVec 16) (sector : Byte)
    (buffer : Addr),
    let record := writeRecord tag hold unit surface track sector buffer
    let others := (s.line k).holders.filter (· ≠ c)
    s.Takes c e → s.validate c record = none → s.lookup record.key = some k → (s.line k).state ≠ .filling → (s.line k).state ≠ .loading →
    (s.line k).waitList = [] → (s.line k).writer = none → others ≠ [] → others.Nodup → 0 ∉ others →
    (∀ d ∈ others, (s.channel d).state = .open ∧ (s.channel d).backlog.length < 48) →
    n < 32 → s.episode n = none → (∀ m, m < n → s.episode m ≠ none) → s.params = some p →
    ∃ t, exec (.write tag hold unit surface track sector buffer) s = .next t
      ∧ t.episode n = some { key := record.key, line := k, writer := e, writerChannel := c, recalled := others, waiting := others,
                             deadline := s.now + p.recallTimeout }
      ∧ t.line k = { s.line k with writer := some e, episode := some n } ∧ (∀ j, j ≠ k → t.line j = s.line j)
      ∧ t.request e = some { s.newRequest c record with place := .parked (.episode n), line := some k }
      ∧ (∀ d ∈ others, t.channel d = { s.channel d with backlog := (s.channel d).backlog ++ [.recall record.key n] })
      ∧ t.channel c = (s.channel c).taken ∧ (∀ d, d ∉ others → d ≠ c → t.channel d = s.channel d)
      ∧ { t with fetch := s.fetch, episodes := s.episodes, lines := s.lines, table := s.table, channels := s.channels } = s

/-- R6, R15, R17, R54, R79, R80: a WRITE that misses takes the least recent FREE way and a slot: the way goes to LOADING with the WRITE as its
writer, the slot holds its current-slot and transfer references, the host transfer starts, and the dirty count rises by 1. No request of the set
waits; the slot taken is the one the model takes (log 10). -/
def Obligations.WriteMissLoads : Prop :=
  ∀ (s : State) (c e k slot : Nat) (p : Params) (tag : BitVec 16) (hold : Bool) (unit surface : Byte) (track : BitVec 16) (sector : Byte)
    (buffer : Addr),
    let record := writeRecord tag hold unit surface track sector buffer
    let set := s.setOfKey record.key
    s.Takes c e → s.validate c record = none → s.lookup record.key = none → s.leastRecent set (fun j => (s.line j).state == .free) = some k →
    s.line k = {} → s.freeSlot = some slot → (∀ p ∈ s.setWait, p.1 ≠ set) → k / 4 = set → s.params = some p →
    exec (.write tag hold unit surface track sector buffer) s = .next
      { s.placed c e { s.newRequest c record with place := .active, line := some k, miss := true, staging := some slot } with
        lines := SMap.set {} s.lines k { state := .loading, key := some record.key, currentSlot := some slot, writer := some e }
        refs := SMap.set 0 s.refs slot 2
        recency := SMap.set [0, 1, 2, 3] s.recency set (k % 4 :: (s.order set).filter (· != k % 4))
        dirtyCount := s.dirtyCount + 1
        pressure := if s.pressure then decide (p.lowMark < s.dirtyCount + 1) else decide (p.highMark ≤ s.dirtyCount + 1)
        outbox := .hostRead buffer.toNat 1024 :: s.outbox }

/-- R10, R15, R16, R17, R18, R22, R79, R80: a READ or a WRITE that misses where no FREE way and slot can be taken together. It evicts the least recent
evictable way of its set, whose line leaves the directory, and takes that line's slot; with no evictable way it joins the tail of the slot wait list
where the set has a FREE way, and otherwise the tail of its set's wait list with its set-wait deadline. The unit is READY with an operation in flight,
and in the first case no request of the set waits. The number of the first join is the model's (log 7). -/
def Obligations.MissEvictsOrWaits : Prop :=
  ∀ (s : State) (c e : Nat) (p : Params) (tag : BitVec 16) (hold : Bool) (unit surface : Byte) (track : BitVec 16) (sector : Byte) (buffer : Addr),
    let reads := Instr.read tag hold unit surface track sector buffer
    let writes := Instr.write tag hold unit surface track sector buffer
    let x := s.unit unit.toNat
    let key : Key := ⟨unit.toNat, surface.toNat, track.toNat, sector.toNat⟩
    let set := s.setOfKey key
    let noSlot := ∀ slot, slot < 4224 → s.refCount slot ≠ 0
    let freeWay := s.leastRecent set (fun j => (s.line j).state == .free)
    let evictable := s.leastRecent set (fun j => (s.line j).state == .clean && (s.line j).holders.isEmpty && (s.line j).waitList.isEmpty
      && (s.line j).episode.isNone && (s.line j).writer.isNone && (s.line j).currentSlot.any (fun slot => s.refCount slot == 1))
    s.Takes c e → s.lookup key = none → s.params = some p → x.state = .ready → x.op.isSome → ∀ i record,
    i = reads ∧ record = readRecord tag hold unit surface track sector buffer
      ∨ i = writes ∧ record = writeRecord tag hold unit surface track sector buffer → s.validate c record = none →
    (∀ k slot, freeWay = none ∨ noSlot → evictable = some k → k / 4 = set → (s.line k).currentSlot = some slot → (∀ q ∈ s.setWait, q.1 ≠ set) →
      let recency := SMap.set [0, 1, 2, 3] s.recency set (k % 4 :: (s.order set).filter (· != k % 4))
      (i = reads → exec i s = .next
        { s.placed c e { s.newRequest c record with place := .parked .lineWait, line := some k, miss := true } with
          lines := SMap.set {} s.lines k { state := .filling, key := some key, currentSlot := some slot, waitList := [e] }
          refs := SMap.set 0 s.refs slot 1, recency
          units := SMap.set {} s.units unit.toNat { x with fillQueue := x.fillQueue ++ [k] } })
      ∧ (i = writes → exec i s = .next
        { s.placed c e { s.newRequest c record with place := .active, line := some k, miss := true, staging := some slot } with
          lines := SMap.set {} s.lines k { state := .loading, key := some key, currentSlot := some slot, writer := some e }
          refs := SMap.set 0 s.refs slot 2, recency
          dirtyCount := s.dirtyCount + 1
          pressure := if s.pressure then decide (p.lowMark < s.dirtyCount + 1) else decide (p.highMark ≤ s.dirtyCount + 1)
          outbox := .hostRead buffer.toNat 1024 :: s.outbox }))
    ∧ (freeWay ≠ none → noSlot → evictable = none → exec i s = .next
        { s.placed c e { s.newRequest c record with place := .parked .slotWait } with slotWait := s.slotWait ++ [e] })
    ∧ (freeWay = none → evictable = none → exec i s = .next
        { s.placed c e { s.newRequest c record with
            place := .parked .setWait, deadline := some (s.now + p.setWaitTimeout), joined := some s.joins } with
          setWait := SMap.set [] s.setWait set (s.waiters set ++ [e]), joins := s.joins + 1 })

/-- R14, R16, R17, R19, R20, R22, R23: the last hold on a CLEAN line is released while requests wait for its set: the head of the set's wait list
evicts the line and takes its way and slot, the requests of its key move to the new line in their order with no deadline left, and the others stay. A
read transfer drops the last reference on a slot while requests wait for one: the head of the slot wait list leaves it with the slot. A writer starts
its host transfer into it; an allocation looks its key up again and takes a FREE way with it, or goes to a line that now holds the key and drops the
slot. No other way of the set is FREE or evictable, the requests' units are READY, and an operation is in flight on the unit of the new line. -/
def Obligations.WaitersGoOnWhenAWayOrASlotFrees : Prop :=
  (∀ (s : State) (c e k slot a : Nat) (rest : List Nat) (q : Request) (tag : BitVec 16) (unit surface : Byte) (track : BitVec 16) (sector : Byte),
    let i := Instr.release tag none unit surface track sector
    let record := releaseRecord tag none unit surface track sector
    let ln := s.line k
    let same := fun j => (s.request j).any (fun y => y.key == q.key)
    s.Takes c e → s.validate c record = none → s.lookup record.key = some k → ln.state = .clean → ln.holders = [c] → ln.waitList = [] →
    ln.episode = none → ln.writer = none → ln.currentSlot = some slot → s.refCount slot = 1 → k % 4 ∈ s.order (k / 4) →
    s.leastRecent (k / 4) (fun j => (s.line j).state == .free) = none → s.leastRecent (k / 4) s.evictable = none →
    s.waiters (k / 4) = a :: rest → (e :: a :: rest).Nodup → s.request a = some q → s.setOfKey q.key = k / 4 → (s.unit q.key.unit).op.isSome →
    (∀ j ∈ a :: rest, ∃ y, s.request j = some y ∧ (y.kind = some .read ∨ y.kind = some .write) ∧ (s.unit y.key.unit).state = .ready) →
    ∃ t, exec i s = .next t
      ∧ t.line k = (if q.kind = some .read
          then { state := .filling, key := some q.key, currentSlot := some slot, waitList := a :: rest.filter same }
          else { state := .loading, key := some q.key, currentSlot := some slot, writer := some a, waitList := rest.filter same })
      ∧ (∀ j, j ≠ k → t.line j = s.line j) ∧ t.waiters (k / 4) = rest.filter (fun j => !same j)
      ∧ t.request a = some (if q.kind = some .read
          then { q with place := .parked .lineWait, line := some k, miss := true, deadline := none }
          else { q with place := .active, line := some k, miss := true, deadline := none, staging := some slot })
      ∧ (∀ j ∈ rest, ∀ y, s.request j = some y → t.request j = some (if same j
          then { y with place := .parked .lineWait, line := some k, miss := y.miss || q.kind == some .read, deadline := none } else y))
      ∧ t.refCount slot = (if q.kind = some .read then 1 else 2) ∧ t.request e = some ((s.newRequest c record).ended { status := .success })
      ∧ t.outbox = if q.kind = some .read then s.outbox else .hostRead q.record.buffer.toNat 1024 :: s.outbox)
  ∧ (∀ (s : State) (e k slot a : Nat) (rest : List Nat) (r q : Request), s.part = .running → s.Completes e r → r.place = .active →
      r.kind = some .read → r.line = some k → r.delivered = some slot → r.record.hold = false → s.refCount slot = 1 → s.waiters (k / 4) = [] →
      (s.unit r.key.unit).unwaited → s.slotWait = a :: rest → a ≠ e → s.request a = some q → q.place = .parked .slotWait →
      let sent := Output.hostWrite r.record.buffer.toNat (Memory.readBytes s.store (slot * 1024) 1024) :: s.outbox
      let ended := some (r.ended { status := .success, flags := { hit := !r.miss, retired := r.captured == some .retired } })
      (∀ j, q.line = some j → ∃ t, exec (.readTransferComplete e) s = .next t ∧ t.slotWait = rest ∧ t.refCount slot = 1 ∧ t.lines = s.lines
        ∧ t.request a = some { q with place := .active, staging := some slot } ∧ t.request e = ended
        ∧ t.outbox = .hostRead q.record.buffer.toNat 1024 :: sent)
      ∧ (∀ j, q.line = none → q.kind = some .read → s.lookup q.key = none → (s.unit q.key.unit).state = .ready → (s.unit q.key.unit).op.isSome →
          s.leastRecent (s.setOfKey q.key) (fun i => (s.line i).state == .free) = some j → j / 4 = s.setOfKey q.key → s.line j = {} →
          s.waiters (j / 4) = [] → j ≠ k → ∃ t, exec (.readTransferComplete e) s = .next t ∧ t.slotWait = rest ∧ t.refCount slot = 1
            ∧ t.line j = { state := .filling, key := some q.key, currentSlot := some slot, waitList := [a] } ∧ (∀ i, i ≠ j → t.line i = s.line i)
            ∧ t.request a = some { q with place := .parked .lineWait, line := some j, miss := true, deadline := none } ∧ t.request e = ended
            ∧ (t.unit q.key.unit).fillQueue = (s.unit q.key.unit).fillQueue ++ [j] ∧ t.outbox = sent)
      ∧ (∀ j other, q.line = none → q.kind = some .read → s.lookup q.key = some j → (s.line j).state ≠ .filling → (s.line j).state ≠ .loading →
          (s.line j).waitList = [] → (s.line j).currentSlot = some other → other ≠ slot → rest = [] → ∃ t, exec (.readTransferComplete e) s = .next t
            ∧ t.slotWait = [] ∧ t.refCount slot = 0 ∧ t.refCount other = s.refCount other + 1 ∧ t.lines = s.lines ∧ t.request e = ended
            ∧ t.request a = some { q with
                place := .active, line := some j, delivered := some other, captured := some (s.line j).mark }
            ∧ t.outbox = sent))

/-- R32, R33, R34, R35: a RELEASE that names no episode drops the channel's hold on the line of its key and completes with SUCCESS; where no line
holds the key, or the channel does not hold the line, it completes with NOT_HELD. A RELEASE that names an episode drops the hold when that episode
is open with the key and the channel is pending in it, and leaves the channel out of the pending set; otherwise it completes with TOO_LATE and the
hold is not touched. Where a hold is dropped, nothing waits for what the drop sets free: no request of the set, no writer that the drop would let
proceed. -/
def Obligations.ReleaseDropsTheHold : Prop :=
  (∀ (s : State) (c e k : Nat) (tag : BitVec 16) (unit surface : Byte) (track : BitVec 16) (sector : Byte),
     let record := releaseRecord tag none unit surface track sector
     s.Takes c e → s.validate c record = none →
     (s.lookup record.key = none → exec (.release tag none unit surface track sector) s = .next (s.answered c e record { status := .notHeld }))
     ∧ (s.lookup record.key = some k → c ∉ (s.line k).holders →
         exec (.release tag none unit surface track sector) s = .next (s.answered c e record { status := .notHeld }))
     ∧ (s.lookup record.key = some k → c ∈ (s.line k).holders → (s.line k).episode = none → (s.line k).writer = none → s.waiters (k / 4) = [] →
         exec (.release tag none unit surface track sector) s = .next
           { s.answered c e record { status := .success } with
             lines := SMap.set {} s.lines k { s.line k with holders := (s.line k).holders.filter (· != c) }
             channels := SMap.set {} s.channels c
               { (s.channel c).taken with holdCount := (s.channel c).holdCount - 1, postQueue := (s.channel c).postQueue ++ [e] } }))
  ∧ (∀ (s : State) (c e n : Nat) (number : Byte) (tag : BitVec 16) (unit surface : Byte) (track : BitVec 16) (sector : Byte),
      let record := releaseRecord tag (some number) unit surface track sector
      s.Takes c e → s.validate c record = none → number.toNat = n →
      ((∀ ep, s.episode n = some ep → ep.key ≠ record.key ∨ c ∉ ep.waiting) →
        exec (.release tag (some number) unit surface track sector) s = .next (s.answered c e record { status := .tooLate }))
      ∧ (∀ ep, s.episode n = some ep → ep.key = record.key → c ∈ ep.waiting → (∃ d ∈ ep.waiting, d ≠ c) → (s.line ep.line).episode = some n →
          s.episodeWait = [] → s.waiters (ep.line / 4) = [] →
          exec (.release tag (some number) unit surface track sector) s = .next
            { s.answered c e record { status := .success } with
              lines := SMap.set {} s.lines ep.line { s.line ep.line with holders := (s.line ep.line).holders.filter (· != c) }
              episodes := SMap.set none s.episodes n (some { ep with waiting := ep.waiting.filter (· != c) })
              channels := SMap.set {} s.channels c
                { (s.channel c).taken with holdCount := (s.channel c).holdCount - 1, postQueue := (s.channel c).postQueue ++ [e] } }))

/-- R76, R78, R89, R90, R92: a FLUSH takes the unit's epoch and advances the counter. With no line of the unit in DIRTY, FLUSHING or REFLUSH it
completes at once: SUCCESS, or INCOMPLETE with the number of STRANDED lines of the unit whose epoch is at most the FLUSH's. With a DIRTY line of the
unit whose epoch is at most the FLUSH's it parks at the tail of the unit's barrier list. In the step in which the counter advances, a dirty epoch of a
line of the unit that now lies more than 2^30 behind the counter becomes the counter less 2^30; every other stays, and the line is otherwise as it was
(said of a DIRTY, FLUSHING or STRANDED line without a flush-source epoch). -/
def Obligations.FlushCompletesOrParks : Prop :=
  (∀ (s : State) (c e : Nat) (tag : BitVec 16) (unit : Byte),
     let record := flushRecord tag unit
     let x := s.unit unit.toNat
     let counted := (s.lines.filter (fun p => p.2.state == .stranded && p.2.key.any (·.unit == unit.toNat)
       && p.2.dirtyEpoch.any (fun d => decide (EpochAtMost d x.epoch)))).length
     s.Takes c e → s.validate c record = none →
     (∀ p ∈ s.lines, ∀ key, p.2.key = some key → key.unit = unit.toNat → p.2.state ≠ .dirty ∧ p.2.state ≠ .flushing ∧ p.2.state ≠ .reflush) →
     ∃ t, exec (.flush tag unit) s = .next t
       ∧ t.request e = some ((s.newRequest c record).ended
           { status := if counted = 0 then .success else .incomplete, count := counted, epoch := x.epoch })
       ∧ (t.unit unit.toNat).epoch = x.epoch + 1
       ∧ t.channels = (s.answered c e record { status := .success }).channels
       ∧ { t with fetch := s.fetch, table := s.table, channels := s.channels, units := s.units, lines := s.lines } = s)
  ∧ (∀ (s : State) (c e k : Nat) (ln : Line) (d : Epoch) (tag : BitVec 16) (unit : Byte),
      let record := flushRecord tag unit
      let x := s.unit unit.toNat
      s.Takes c e → s.validate c record = none → (k, ln) ∈ s.lines → ln.state = .dirty → (∃ key, ln.key = some key ∧ key.unit = unit.toNat) →
      ln.dirtyEpoch = some d → EpochAtMost d x.epoch →
      ∃ t, exec (.flush tag unit) s = .next t
        ∧ t.request e = some { s.newRequest c record with place := .parked .barrierList }
        ∧ (t.unit unit.toNat).epoch = x.epoch + 1
        ∧ (t.unit unit.toNat).barriers.map Barrier.entry = x.barriers.map Barrier.entry ++ [e]
        ∧ (t.unit unit.toNat).barriers.getLast? = some ⟨e, x.epoch⟩
        ∧ t.channels = SMap.set {} s.channels c (s.channel c).taken
        ∧ { t with fetch := s.fetch, table := s.table, channels := s.channels, units := s.units, lines := s.lines } = s)
  ∧ (∀ (s : State) (c e k : Nat) (d : Epoch) (key : Key) (tag : BitVec 16) (unit : Byte),
      let counter := (s.unit unit.toNat).epoch + 1
      s.Takes c e → s.validate c (flushRecord tag unit) = none → (s.line k).key = some key → key.unit = unit.toNat →
      (s.line k).state = .dirty ∨ (s.line k).state = .flushing ∨ (s.line k).state = .stranded → (s.line k).dirtyEpoch = some d →
      (s.line k).sourceEpoch = none →
      ∃ t, exec (.flush tag unit) s = .next t ∧ t.line k = { s.line k with
        dirtyEpoch := some (if 2 ^ 30 < (counter - d).toInt then counter - BitVec.ofNat 32 (2 ^ 30) else d) })

/-- R104: a SURVEY of a READY unit joins the tail of the unit's survey queue; of a unit that is not READY it completes with UNIT_NOT_READY. In the
first case an operation is in flight on the unit, so none is selected. -/
def Obligations.SurveyJoinsItsUnitsQueue : Prop :=
  ∀ (s : State) (c e : Nat) (tag : BitVec 16) (unit surface : Byte) (track : BitVec 16) (buffer : Addr),
    let record := surveyRecord tag unit surface track buffer
    let x := s.unit unit.toNat
    s.Takes c e → s.validate c record = none →
    (x.state ≠ .ready → exec (.survey tag unit surface track buffer) s = .next (s.answered c e record { status := .unitNotReady }))
    ∧ (x.state = .ready → x.op.isSome → exec (.survey tag unit surface track buffer) s = .next
        { s.placed c e { s.newRequest c record with place := .parked .surveyQueue } with
          units := SMap.set {} s.units unit.toNat { x with surveyQueue := x.surveyQueue ++ [e] } })

/-- R148: a BARRIER with no earlier request of its channel in ROUTED, PARKED or ACTIVE completes with SUCCESS in the step of its taking;
otherwise the channel's fetch hold is set and the BARRIER parks on it. When the last earlier request of its channel becomes DONE, the parked BARRIER
completes with SUCCESS in that step and its fetch hold is cleared; while another is outstanding both stay. This is said of a READ that becomes DONE as
its transfer completes, without a hold asked for, with nothing waiting for the slot, the set or the unit. -/
def Obligations.BarrierWaitsForEarlierRequests : Prop :=
  (∀ (s : State) (c e : Nat) (tag : BitVec 16), s.Takes c e → s.request e = none → SMap.wf none s.table = true →
    let record := barrierRecord tag
    let earlier := ∃ i r, s.request i = some r ∧ r.channel = c ∧ r.arrival < (s.channel c).arrivals ∧ r.place ≠ .done
    (¬ earlier → exec (.barrier tag) s = .next (s.answered c e record { status := .success }))
    ∧ (earlier → exec (.barrier tag) s = .next
        { s.placed c e { s.newRequest c record with place := .parked .fetchHold } with
          channels := SMap.set {} s.channels c { (s.channel c).taken with fetchHold := some e } }))
  ∧ (∀ (s : State) (c e b k slot : Nat) (r q : Request), s.Settled → s.part ≠ .failed → SMap.wf none s.table = true →
      s.request e = some r → r.channel = c → r.place = .active → r.kind = some .read → r.line = some k → r.delivered = some slot →
      r.record.hold = false → s.slotWait = [] → s.waiters (k / 4) = [] → (s.unit r.key.unit).unwaited →
      s.request b = some q → q.channel = c → q.place = .parked .fetchHold → (s.channel c).fetchHold = some b → (s.channel c).postError = false →
      let data := Memory.readBytes s.store (slot * 1024) 1024
      let flags : Flags := { hit := !r.miss, retired := r.captured == some .retired }
      let read := { s.completed e r { status := .success, flags } with
        refs := SMap.set 0 s.refs slot (s.refCount slot - 1), outbox := .hostWrite r.record.buffer.toNat data :: s.outbox }
      let outstanding := ∃ i y, i ≠ e ∧ s.request i = some y ∧ y.channel = c ∧ y.arrival < q.arrival ∧ y.place ≠ .done
      (¬ outstanding → exec (.readTransferComplete e) s = .next { read with
        table := SMap.set none read.table b (some (q.ended { status := .success }))
        channels := SMap.set {} s.channels c { s.channel c with fetchHold := none, postQueue := (s.channel c).postQueue ++ [e, b] } })
      ∧ (outstanding → exec (.readTransferComplete e) s = .next read))

/-- R149, R150: an ABANDON whose target tag no held entry of its channel carries completes with NOT_FOUND; one whose earliest such entry is
ACTIVE or DONE completes with TOO_LATE; one whose earliest such entry is PARKED on a set wait list, a survey queue or a barrier list ends it with
ABANDONED, hands that completion over first, and completes with SUCCESS. -/
def Obligations.AbandonAnswersForItsTarget : Prop :=
  ∀ (s : State) (c e : Nat) (tag target : BitVec 16), s.Takes c e → c ≠ 0 → s.request e = none → SMap.wf none s.table = true →
    let record := abandonRecord tag target
    ((∀ i r, s.request i = some r → r.channel = c → r.record.tag ≠ target) →
      exec (.abandon tag target) s = .next (s.answered c e record { status := .notFound }))
    ∧ (∀ i r, s.request i = some r → r.channel = c → r.record.tag = target → r.arrival < (s.channel c).arrivals →
        (∀ j q, s.request j = some q → q.channel = c → q.record.tag = target → j ≠ i → r.arrival < q.arrival) →
        (r.place = .active ∨ r.place = .done → exec (.abandon tag target) s = .next (s.answered c e record { status := .tooLate }))
        ∧ (r.place = .parked .setWait ∨ r.place = .parked .surveyQueue ∨ r.place = .parked .barrierList →
            ∃ t, exec (.abandon tag target) s = .next t
              ∧ t.request i = some (r.ended { status := .abandoned, epoch := s.barrierEpoch i r })
              ∧ t.request e = some ((s.newRequest c record).ended { status := .success })
              ∧ t.channel c = { (s.channel c).taken with postQueue := (s.channel c).postQueue ++ [i, e] }
              ∧ (r.place = .parked .setWait → i ∉ t.waiters (s.setOfKey r.key))
              ∧ (r.place = .parked .surveyQueue → i ∉ (t.unit r.record.unit).surveyQueue)
              ∧ (r.place = .parked .barrierList → ∀ b ∈ (t.unit r.record.unit).barriers, b.entry ≠ i)
              ∧ t.lines = s.lines ∧ t.episodes = s.episodes ∧ t.refs = s.refs ∧ t.store = s.store ∧ t.part = s.part))

/-! ### Administration -/

/-- R47, R156, R168, R172, R173, R176, R177: a CHANNEL_OPEN of a CLOSED channel takes it to OPEN with every context field at its value at open and the
hold quota and revoke limit of the request; of any other channel it completes with CHANNEL_STATE. A CHANNEL_CLOSE of a FENCED channel takes it to
CLOSED and completes with SUCCESS; of an OPEN channel it takes the channel to CLOSING with its backlog emptied and stays ACTIVE until the channel
drains; of any other channel it completes with CHANNEL_STATE. In the OPEN case the channel has requests in flight, holds no line and has no request
PARKED. -/
def Obligations.ChannelsOpenAndClose : Prop :=
  (∀ (s : State) (e : Nat) (tag : BitVec 16) (intr : Bool) (ch : Byte) (sqBase cqBase : Addr) (sqSize cqSize : BitVec 16)
      (limit quota revoke : Byte),
      let record := channelOpenRecord tag intr ch sqBase cqBase sqSize cqSize limit quota revoke
      let i := Instr.channelOpen tag intr ch sqBase cqBase sqSize cqSize limit quota revoke
      s.Takes 0 e → s.validate 0 record = none →
      ((s.channel ch.toNat).state ≠ .closed → exec i s = .next (s.answered 0 e record { status := .channelState }))
      ∧ ((s.channel ch.toNat).state = .closed → ∃ t, exec i s = .next t
          ∧ t.channel ch.toNat =
              { state := .open, rings := some ⟨sqBase, sqSize.toNat, cqBase, cqSize.toNat⟩, limit := some limit.toNat, interrupt := intr,
                holdQuota := quota.toNat, revokeLimit := revoke.toNat, opened := true }
          ∧ (∀ d, d ≠ ch.toNat → t.channel d = (s.answered 0 e record { status := .success }).channel d)
          ∧ { t with channels := s.channels } = { s.answered 0 e record { status := .success } with channels := s.channels }))
  ∧ (∀ (s : State) (e : Nat) (tag : BitVec 16) (ch : Byte),
      let record := channelCloseRecord tag ch
      let x := s.channel ch.toNat
      s.Takes 0 e → s.validate 0 record = none →
      (x.state = .closed ∨ x.state = .closing ∨ x.state = .fencing →
        exec (.channelClose tag ch) s = .next (s.answered 0 e record { status := .channelState }))
      ∧ (x.state = .fenced → ∃ t, exec (.channelClose tag ch) s = .next t
          ∧ t.channel ch.toNat = { x with state := .closed } ∧ t.eventSet = s.eventSet.filter (· != ch.toNat)
          ∧ (∀ d, d ≠ ch.toNat → t.channel d = (s.answered 0 e record { status := .success }).channel d)
          ∧ { t with channels := s.channels, eventSet := s.eventSet }
              = { s.answered 0 e record { status := .success } with channels := s.channels })
      ∧ (x.state = .open → x.inFlight ≠ 0 → (∀ p ∈ s.lines, ch.toNat ∉ p.2.holders) → (∀ p ∈ s.held, p.2.channel = ch.toNat → p.2.isParked = false) →
          ∃ t, exec (.channelClose tag ch) s = .next t
            ∧ t.channel ch.toNat = { x with state := .closing, closeEntry := some e, backlog := [] }
            ∧ (∀ d, d ≠ ch.toNat → t.channel d = (s.placed 0 e (s.newRequest 0 record)).channel d)
            ∧ { t with channels := s.channels } =
                { s.placed 0 e { s.newRequest 0 record with place := .active } with channels := s.channels }))

/-- R76, R98, R99, R178: a UNIT_ATTACH of a DETACHED unit takes it to READY or NOT_READY by its ready line, with the geometry and read retries of
the request and every other field at its value at attach; of an attached unit it completes with UNIT_STATE. -/
def Obligations.UnitAttachesWhenDetached : Prop :=
  ∀ (s : State) (e : Nat) (tag : BitVec 16) (unit : Byte) (tracks : BitVec 16) (surfaces sectors retries : Byte),
    let record := unitAttachRecord tag unit tracks surfaces sectors retries
    let x := s.unit unit.toNat
    s.Takes 0 e → s.validate 0 record = none →
    (x.state ≠ .detached → exec (.unitAttach tag unit tracks surfaces sectors retries) s = .next (s.answered 0 e record { status := .unitState }))
    ∧ (x.state = .detached → exec (.unitAttach tag unit tracks surfaces sectors retries) s = .next
        { s.answered 0 e record { status := .success } with
          units := SMap.set {} s.units unit.toNat
            { state := if x.readyLine then .ready else .notReady, readyLine := x.readyLine,
              geometry := some ⟨tracks.toNat, surfaces.toNat, sectors.toNat⟩, retries := some retries.toNat } })

/-- R48, R98, R179, R180: a UNIT_DETACH of a DETACHED unit completes with UNIT_STATE, of a busy one with UNIT_BUSY. With READs of the unit ACTIVE it
waits for them; otherwise every line of the unit goes to FREE with its holds dropped, each channel that lost a hold gets one HOLDS_DROPPED notice, the
unit goes to DETACHED, and the request completes with SUCCESS and the number of lines freed. In the last case the part is RUNNING, nothing waits for
what the lines set free, and the channels that hold them are OPEN with room in their backlogs; for a unit without lines it is stated whole. -/
def Obligations.UnitDetachByTheBusyTest : Prop :=
  ∀ (s : State) (e : Nat) (tag : BitVec 16) (unit : Byte),
    let record := unitDetachRecord tag unit
    let u := unit.toNat
    let x := s.unit u
    let busy := x.discarding = true ∨ x.detach ≠ none ∨ x.op ≠ none ∨ x.fillQueue ≠ [] ∨ x.surveyQueue ≠ []
      ∨ (∃ p ∈ s.lines, p.2.ofUnit u = true ∧ p.2.state ≠ .clean ∧ p.2.state ≠ .free)
      ∨ (∃ p ∈ s.held, p.2.names u = true ∧ (p.2.isParked = true
          ∨ p.2.place = .active ∧ (p.2.kind = some .write ∨ p.2.kind = some .survey)))
    let reads := (s.held.filter (fun p => p.2.place == .active && p.2.kind == some .read && p.2.names u)).map (·.1)
    s.Takes 0 e → s.validate 0 record = none → (∀ p ∈ s.table, p.1 ≠ e) →
    (x.state = .detached → exec (.unitDetach tag unit) s = .next (s.answered 0 e record { status := .unitState }))
    ∧ (x.state ≠ .detached → busy → exec (.unitDetach tag unit) s = .next (s.answered 0 e record { status := .unitBusy }))
    ∧ (x.state ≠ .detached → ¬ busy → reads ≠ [] → exec (.unitDetach tag unit) s = .next
        { s.placed 0 e { s.newRequest 0 record with place := .active } with
          units := SMap.set {} s.units u { x with detach := some ⟨e, reads⟩ } })
    ∧ (x.state ≠ .detached → ¬ busy → reads = [] → (∀ p ∈ s.lines, p.2.ofUnit u = false) → x.barriers = [] → s.part = .running →
        exec (.unitDetach tag unit) s = .next
          { s.answered 0 e record { status := .success, count := 0 } with
            units := SMap.set {} s.units u
              { x with state := .detached, geometry := none, retries := none, believed := none, verifyPending := false,
                       selectedSurface := none, lastHeader := none, detach := none } })
    ∧ (x.state ≠ .detached → ¬ busy → reads = [] → x.barriers = [] → s.part = .running → s.FreesPlainly u → ∃ t, exec (.unitDetach tag unit) s = .next t
        ∧ s.LinesFreed t u ∧ t.channel 0 = (s.answered 0 e record { status := .success }).channel 0
        ∧ t.request e = some ((s.newRequest 0 record).ended { status := .success, count := (s.lines.filter (fun p => p.2.ofUnit u)).length })
        ∧ t.unit u = { x with state := .detached, geometry := none, retries := none, believed := none, verifyPending := false,
                              selectedSurface := none, lastHeader := none, detach := none }
        ∧ (∀ v, v ≠ u → t.unit v = s.unit v) ∧ t.dirtyCount = s.dirtyCount ∧ t.store = s.store ∧ t.outbox = s.outbox)

/-- R49, R93, R114, R149, R181: a UNIT_DISCARD of a DETACHED unit, or of one being discarded, completes with UNIT_STATE. Otherwise the discarding flag
is set, both queues are emptied, a UNIT_DETACH that waits completes with UNIT_BUSY, every PARKED request of the unit is ended with DISCARDED, and
while an operation is in flight the discard stays ACTIVE. The whole next state is given where no request of the unit is PARKED, with and without a
detach that waits. Where requests of the unit are PARKED on set wait lists, the survey queue and the barrier list alone, each ends, leaves its list,
and joins its channel's post queue in order of arrival, and no other request changes. For requests PARKED on any list the same is said of the
operation that takes the discard, before what their departures set in motion runs: each ends and is off its list, its episode closes, and its write
phase ends. -/
def Obligations.UnitDiscardSetsItsFlag : Prop :=
  (∀ (s : State) (e : Nat) (tag : BitVec 16) (unit : Byte),
    let record := unitDiscardRecord tag unit
    let u := unit.toNat
    let x := s.unit u
    let active := { s.newRequest 0 record with place := .active }
    let taken := { x with discarding := true, fillQueue := [], surveyQueue := [], discard := some e }
    s.Takes 0 e → s.validate 0 record = none →
    (x.state = .detached ∨ x.discarding = true → exec (.unitDiscard tag unit) s = .next (s.answered 0 e record { status := .unitState }))
    ∧ (x.state ≠ .detached → x.discarding = false → x.op ≠ none → (∀ p ∈ s.held, p.2.names u = true → p.2.isParked = false) →
        (x.detach = none → exec (.unitDiscard tag unit) s = .next { s.placed 0 e active with units := SMap.set {} s.units u taken })
        ∧ (∀ d q, x.detach = some d → d.entry ≠ e → s.Completes d.entry q → q.channel = 0 →
            exec (.unitDiscard tag unit) s = .next { s.placed 0 e active with
              units := SMap.set {} s.units u { taken with detach := none }
              table := SMap.set none (s.placed 0 e active).table d.entry (some (q.ended { status := .unitBusy }))
              channels := SMap.set {} s.channels 0 { (s.channel 0).taken with postQueue := (s.channel 0).postQueue ++ [d.entry] } }))
    ∧ (x.state ≠ .detached → x.discarding = false → x.op ≠ none → x.detach = none → SMap.wf none s.table = true → s.request e = none →
        (∀ i q, s.request i = some q → q.names u = true → q.isParked = true →
          s.Completes i q ∧ (q.place = .parked .setWait ∨ q.place = .parked .surveyQueue ∨ q.place = .parked .barrierList)) →
        (∀ b ∈ x.barriers, ∃ q, s.request b.entry = some q ∧ q.names u = true ∧ q.place = .parked .barrierList) →
        ∃ t, exec (.unitDiscard tag unit) s = .next t ∧ t.request e = some active ∧ t.unit u = { taken with barriers := [] }
          ∧ (∀ i q, s.request i = some q → t.request i = some (if q.names u = true ∧ q.isParked = true
              then q.ended { status := .discarded, epoch := s.barrierEpoch i q } else q))
          ∧ (∀ i, i ≠ e → s.request i = none → t.request i = none)
          ∧ (∀ d, ∃ l, (t.channel d).postQueue = (s.channel d).postQueue ++ l ∧ l.Nodup
              ∧ (∀ i, i ∈ l ↔ ∃ q, s.request i = some q ∧ q.channel = d ∧ q.names u = true ∧ q.isParked = true)
              ∧ l.Pairwise (fun i j => ∀ y z, s.request i = some y → s.request j = some z → y.arrival ≤ z.arrival))
          ∧ (∀ n, t.waiters n = (s.waiters n).filter (fun i => !(s.request i).any (fun q =>
              q.names u && q.place == .parked .setWait && s.setOfKey q.key == n)))
          ∧ t.lines = s.lines ∧ t.slotWait = s.slotWait ∧ t.episodeWait = s.episodeWait ∧ t.episodes = s.episodes ∧ t.outbox = s.outbox))
  ∧ (∀ (s : State) (e : Nat) (record : Record),
      let u := record.unit
      let t := s.discardUnit e record
      (s.unit u).state ≠ .detached → (s.unit u).discarding = false → SMap.wf none s.table = true →
      (∀ d q, (s.unit u).detach = some d → s.request d.entry = some q → q.isParked = false) →
      (t.unit u).discarding = true ∧ (t.unit u).discard = some e ∧ (t.unit u).fillQueue = [] ∧ (t.unit u).surveyQueue = [] ∧ (t.unit u).detach = none
      ∧ ∀ i q, s.request i = some q → q.names u = true → q.isParked = true → (s.channel q.channel).postError = false →
        t.request i = some (q.ended { status := .discarded, epoch := s.barrierEpoch i q }) ∧ i ∈ (t.channel q.channel).postQueue
        ∧ (q.place = .parked .slotWait → i ∉ t.slotWait) ∧ (q.place = .parked .episodeWait → i ∉ t.episodeWait)
        ∧ (∀ k, q.line = some k → q.place = .parked .lineWait → i ∉ (t.line k).waitList)
        ∧ (∀ n, q.place = .parked (.episode n) → t.episode n = none)
        ∧ (∀ k, q.line = some k → q.place = .parked .slotWait ∨ q.place = .parked .episodeWait ∨ (∃ n, q.place = .parked (.episode n)) →
          (t.line k).writer = none))

/-- R80, R184: SET_PARAMETERS puts the four values in force and pressure follows the new marks: it is set at the high mark, cleared at the low
mark, and kept between them. -/
def Obligations.ParametersTakeForce : Prop :=
  ∀ (s : State) (e : Nat) (tag recallMs setWaitMs high low : BitVec 16),
    let record := setParametersRecord tag recallMs setWaitMs high low
    s.Takes 0 e → s.validate 0 record = none →
    exec (.setParameters tag recallMs setWaitMs high low) s = .next
      { s.answered 0 e record { status := .success } with
        params := some ⟨recallMs.toNat, setWaitMs.toNat, high.toNat, low.toNat⟩
        pressure := if high.toNat ≤ s.dirtyCount then true else if s.dirtyCount ≤ low.toNat then false else s.pressure }

/-- R185, R186, R187, R188: a query that passes its state test stays ACTIVE with its snapshot, taken in the step of its routing; the others complete
with the status of the test. The sample of the protect line that QUERY_UNIT takes is a free value (log 2). -/
def Obligations.QueriesTakeTheirSnapshots : Prop :=
  ∀ (s : State) (e : Nat) (tag : BitVec 16) (n surface sector : Byte) (track : BitVec 16) (buffer : Addr),
    let chRecord := queryChannelRecord tag n buffer
    let unRecord := queryUnitRecord tag n buffer
    let lnRecord := queryLineRecord tag n surface track sector buffer
    let within := (s.unit n.toNat).geometry.any (fun g => track.toNat < g.tracks ∧ surface.toNat < g.surfaces ∧ sector.toNat < g.sectors) = true
    s.Takes 0 e →
    (s.validate 0 chRecord = none → (s.channel n.toNat).opened = true →
      exec (.queryChannel tag n buffer) s = .next (s.placed 0 e
        { s.newRequest 0 chRecord with place := .active,
                                       snapshot := some ((s.placed 0 e (s.newRequest 0 chRecord)).channelSnapshot n.toNat) }))
    ∧ (s.validate 0 chRecord = none → (s.channel n.toNat).opened = false →
        exec (.queryChannel tag n buffer) s = .next (s.answered 0 e chRecord { status := .channelState }))
    ∧ (s.validate 0 unRecord = none → (s.unit n.toNat).state ≠ .detached →
        exec (.queryUnit tag n buffer) s = .next
          { s.placed 0 e { s.newRequest 0 unRecord with place := .active, snapshot := some (s.unitSnapshot n.toNat) } with
            protectSamples := s.protectSamples + 1 })
    ∧ (s.validate 0 unRecord = none → (s.unit n.toNat).state = .detached →
        exec (.queryUnit tag n buffer) s = .next (s.answered 0 e unRecord { status := .unitState }))
    ∧ (s.validate 0 lnRecord = none → (s.unit n.toNat).state ≠ .detached → within →
        exec (.queryLine tag n surface track sector buffer) s = .next (s.placed 0 e
          { s.newRequest 0 lnRecord with place := .active, snapshot := some (s.lineSnapshot lnRecord.key) }))
    ∧ (s.validate 0 lnRecord = none → (s.unit n.toNat).state ≠ .detached → ¬ within →
        exec (.queryLine tag n surface track sector buffer) s = .next (s.answered 0 e lnRecord { status := .badRecord }))
    ∧ (s.validate 0 lnRecord = none → (s.unit n.toNat).state = .detached →
        exec (.queryLine tag n surface track sector buffer) s = .next (s.answered 0 e lnRecord { status := .unitState }))

/-- R164, R165, R186, R187, R188, R197, R198: every byte of the records the part writes: a completion, a notice, and the snapshots of a channel, of a
unit, and of a line, present or absent, with the key repeated in both. A channel's hold and revoke fields are zero on channel 0, its lost-notice count
on a data channel, and the holder set of a line that is FILLING or LOADING. Of the notices it speaks of RECALL. The fields are within their widths.
The protect line's bit of a unit snapshot is a free value (log 2). -/
def Obligations.WrittenRecordLayouts : Prop :=
  (∀ (phase : Bool) (sqHead : Nat) (r : Request) (x : Completion), sqHead < 2 ^ 16 → x.count < 2 ^ 32 →
    let bytes := completionBytes phase sqHead r x
    bytes.length = 32 ∧ byteAt bytes 0 = (if phase then 1 else 0) ∧ byteAt bytes 1 = x.status.code
    ∧ leAt bytes 2 2 = r.record.tag.toNat ∧ byteAt bytes 4 = r.record.kind ∧ (byteAt bytes 5).getLsbD 0 = x.flags.hit
    ∧ (byteAt bytes 5).getLsbD 1 = x.flags.granted ∧ (byteAt bytes 5).getLsbD 2 = x.flags.refused
    ∧ (byteAt bytes 5).getLsbD 3 = x.flags.retired ∧ (byteAt bytes 5).getLsbD 4 = x.flags.overflow
    ∧ (byteAt bytes 5).toNat < 32 ∧ leAt bytes 6 2 = sqHead
    ∧ leAt bytes 8 4 = r.arrival % 2 ^ 32 ∧ leAt bytes 12 4 = x.count ∧ leAt bytes 16 4 = x.epoch.toNat
    ∧ bytes.drop 20 = List.replicate 12 0)
  ∧ (∀ (phase : Bool) (sqHead lost : Nat) (key : Key) (n : Nat), sqHead < 2 ^ 16 → lost < 2 ^ 16 → key.unit < 4 → key.surface < 256 →
      key.track < 2 ^ 16 → key.sector < 256 → n < 32 →
      let bytes := noticeBytes phase sqHead lost (.recall key n)
      bytes.length = 32 ∧ byteAt bytes 0 = (if phase then 3 else 2) ∧ byteAt bytes 1 = 0x01 ∧ leAt bytes 2 2 = lost
      ∧ (byteAt bytes 4).toNat = key.unit ∧ (byteAt bytes 5).toNat = key.surface ∧ leAt bytes 6 2 = sqHead ∧ leAt bytes 8 2 = key.track
      ∧ (byteAt bytes 10).toNat = key.sector ∧ (byteAt bytes 11).toNat = n ∧ bytes.drop 12 = List.replicate 20 0)
  ∧ (∀ (s : State) (c : Nat) (g : Rings), (s.channel c).rings = some g → g.sqSize < 2 ^ 16 → g.cqSize < 2 ^ 16 → (s.channel c).sqHead < 2 ^ 16 →
      (s.channel c).sqTail < 2 ^ 16 → (s.channel c).cqHead < 2 ^ 16 → (s.channel c).cqTail < 2 ^ 16 → (s.channel c).reserved < 2 ^ 16 →
      (s.channel c).inFlight < 256 → (s.channel c).backlog.length < 256 → (s.channel c).limit.getD 0 < 256 → (s.channel c).holdQuota < 256 →
      (s.channel c).holdCount < 256 → (s.channel c).revokeLimit < 256 → (s.channel c).revokeCount < 256 → (s.channel c).lost < 2 ^ 16 →
      let bytes := s.channelSnapshot c
      bytes.length = 64 ∧ byteAt bytes 0 = (s.channel c).state.code ∧ byteAt bytes 1 = (s.channel c).cause.code
      ∧ (byteAt bytes 2).getLsbD 0 = (s.channel c).closePending ∧ (byteAt bytes 2).getLsbD 1 = (s.channel c).interrupt
      ∧ (byteAt bytes 2).getLsbD 2 = s.eventSet.contains c ∧ (byteAt bytes 2).getLsbD 3 = (s.channel c).fetchHold.isSome
      ∧ (byteAt bytes 2).toNat < 16 ∧ (byteAt bytes 3).toNat = (s.channel c).backlog.length
      ∧ leAt bytes 4 2 = g.sqSize ∧ leAt bytes 6 2 = (s.channel c).sqHead ∧ leAt bytes 8 2 = (s.channel c).sqTail
      ∧ leAt bytes 10 2 = g.cqSize ∧ leAt bytes 12 2 = (s.channel c).cqHead ∧ leAt bytes 14 2 = (s.channel c).cqTail
      ∧ byteAt bytes 16 = (if (s.channel c).phase then 1 else 0) ∧ (byteAt bytes 17).toNat = (s.channel c).inFlight
      ∧ (byteAt bytes 18).toNat = (s.channel c).limit.getD 0 ∧ (byteAt bytes 19).toNat = (if c = 0 then 0 else (s.channel c).holdQuota)
      ∧ (byteAt bytes 20).toNat = (if c = 0 then 0 else (s.channel c).holdCount)
      ∧ (byteAt bytes 21).toNat = (if c = 0 then 0 else (s.channel c).revokeLimit)
      ∧ (byteAt bytes 22).toNat = (if c = 0 then 0 else (s.channel c).revokeCount) ∧ byteAt bytes 23 = 0
      ∧ leAt bytes 24 2 = (s.channel c).reserved ∧ leAt bytes 26 2 = (if c = 0 then (s.channel c).lost else 0) ∧ leAt bytes 28 4 = 0
      ∧ leAt bytes 32 8 = g.sqBase.toNat ∧ leAt bytes 40 8 = g.cqBase.toNat ∧ bytes.drop 48 = List.replicate 16 0)
  ∧ (∀ (s : State) (u : Nat) (g : Geometry) (n : Nat),
      let x := s.unit u
      x.geometry = some g → x.retries = some n → g.surfaces < 256 → g.sectors < 256 → n < 256 → g.tracks < 2 ^ 16 →
      (∀ track, x.believed = some track → track < 2 ^ 16) → x.fillQueue.length < 2 ^ 16 → x.surveyQueue.length < 2 ^ 16 →
      x.flushList.length < 2 ^ 16 → x.stranded < 2 ^ 16 → x.barriers.length < 2 ^ 16 → s.dirtyCount < 2 ^ 16 →
      let bytes := s.unitSnapshot u
      let code : Byte := match x.op with
        | none => 0
        | some o => match o.subject with | .fill _ => 1 | .flush _ => 2 | .survey _ => 3
      bytes.length = 64 ∧ byteAt bytes 0 = x.state.code ∧ (byteAt bytes 1).getLsbD 0 = x.discarding ∧ (byteAt bytes 1).getLsbD 1 = x.readyLine
      ∧ (byteAt bytes 1).getLsbD 2 = s.protectLevel u ∧ (byteAt bytes 1).getLsbD 3 = s.pressure ∧ (byteAt bytes 1).toNat < 16
      ∧ byteAt bytes 2 = (if x.sweep = .up then 0 else 1) ∧ byteAt bytes 3 = x.seq.code ∧ byteAt bytes 4 = code
      ∧ (byteAt bytes 5).toNat = g.surfaces ∧ (byteAt bytes 6).toNat = g.sectors ∧ (byteAt bytes 7).toNat = n ∧ leAt bytes 8 2 = g.tracks
      ∧ leAt bytes 10 2 = x.believed.getD 0xFFFF ∧ leAt bytes 12 2 = x.fillQueue.length ∧ leAt bytes 14 2 = x.surveyQueue.length
      ∧ leAt bytes 16 2 = x.flushList.length ∧ leAt bytes 18 2 = x.stranded ∧ leAt bytes 20 4 = x.epoch.toNat
      ∧ leAt bytes 24 2 = x.barriers.length ∧ leAt bytes 26 2 = s.dirtyCount ∧ bytes.drop 28 = List.replicate 36 0)
  ∧ (∀ (s : State) (key : Key) (k : Nat),
      let ln := s.line k
      s.lookup key = some k → k < 4096 → ln.failures < 256 → ln.waitList.length < 2 ^ 16 → (∀ n, ln.episode = some n → n < 32) →
      ln.holders.Nodup → (∀ c ∈ ln.holders, 1 ≤ c ∧ c ≤ 15) →
      key.unit < 4 → key.surface < 256 → key.track < 2 ^ 16 → key.sector < 256 →
      let bytes := s.lineSnapshot key
      bytes.length = 64 ∧ (byteAt bytes 0).getLsbD 0 = true ∧ (byteAt bytes 0).getLsbD 1 = ln.episode.isSome
      ∧ (byteAt bytes 0).getLsbD 2 = ln.dirtyEpoch.isSome ∧ (byteAt bytes 0).getLsbD 3 = ln.writer.isSome
      ∧ (byteAt bytes 0).toNat < 16 ∧ byteAt bytes 1 = ln.state.code
      ∧ byteAt bytes 2 = (if ln.mark = .data then 0 else 1) ∧ (byteAt bytes 3).toNat = ln.failures ∧ leAt bytes 4 2 = k / 4
      ∧ (byteAt bytes 6).toNat = k % 4 ∧ (byteAt bytes 7).toNat = ln.episode.getD 0
      ∧ (∀ c, (leAt bytes 8 2).testBit c = (ln.holders.contains c && ln.state != .filling && ln.state != .loading)) ∧ leAt bytes 10 2 = ln.waitList.length
      ∧ leAt bytes 12 4 = (ln.dirtyEpoch.map BitVec.toNat).getD 0 ∧ (byteAt bytes 16).toNat = key.unit ∧ (byteAt bytes 17).toNat = key.surface
      ∧ leAt bytes 18 2 = key.track ∧ (byteAt bytes 20).toNat = key.sector ∧ bytes.drop 21 = List.replicate 43 0)
  ∧ (∀ (s : State) (key : Key), s.lookup key = none → key.unit < 4 → key.surface < 256 → key.track < 2 ^ 16 → key.sector < 256 →
      let bytes := s.lineSnapshot key
      bytes.length = 64 ∧ bytes.take 16 = List.replicate 16 0 ∧ (byteAt bytes 16).toNat = key.unit ∧ (byteAt bytes 17).toNat = key.surface
      ∧ leAt bytes 18 2 = key.track ∧ (byteAt bytes 20).toNat = key.sector ∧ bytes.drop 21 = List.replicate 43 0)

/-! ### The ends of host transfers -/

/-- R135, R136, R185: the snapshot write of a query and the entry writes of a SURVEY end: without error the request completes with SUCCESS (the
SURVEY with its entry count and its overflow flag), with an error it completes with HOST_TRANSFER_ERROR and the bytes already written remain. The
host writes are recorded when they end (log 4). -/
def Obligations.SnapshotAndEntryWritesEnd : Prop :=
  ∀ (s : State) (e n : Nat) (r : Request) (bs : List Byte) (result : SurveyResult), s.part ≠ .failed → s.Completes e r → r.place = .active → 0 < n →
    (r.snapshot = some bs → bs ≠ [] →
      exec (.snapshotWriteEnd e none) s = .next
        { s.completed e r { status := .success } with outbox := .hostWrite r.record.buffer.toNat bs :: s.outbox }
      ∧ exec (.snapshotWriteEnd e (some n)) s = .next
        { s.completed e r { status := .hostTransferError } with outbox := .hostWrite r.record.buffer.toNat (bs.take n) :: s.outbox }
      ∧ exec (.snapshotWriteEnd e (some 0)) s = .next (s.completed e r { status := .hostTransferError }))
    ∧ (r.kind = some .survey → r.survey = some result → result.entries ≠ [] →
      exec (.surveyEntryWriteEnd e none) s = .next
        { s.completed e r { status := .success, flags := { overflow := result.overflow }, count := result.entries.length } with
          outbox := .hostWrite r.record.buffer.toNat (result.entries.flatMap SurveyEntry.bytes) :: s.outbox }
      ∧ exec (.surveyEntryWriteEnd e (some n)) s = .next
        { s.completed e r { status := .hostTransferError } with
          outbox := .hostWrite r.record.buffer.toNat ((result.entries.flatMap SurveyEntry.bytes).take n) :: s.outbox }
      ∧ exec (.surveyEntryWriteEnd e (some 0)) s = .next (s.completed e r { status := .hostTransferError }))

/-- R164, R165, R166, R167: the next record write of a channel starts: the head of the post queue, which lowers the reserved count, otherwise the
head of the backlog when the margin is at least 1 (on channel 0 with the lost-notice count, which becomes 0). The CQ tail advances, and the phase
inverts when the tail passes to 0. -/
def Obligations.RecordWriteStartsAtTheTail : Prop :=
  ∀ (s : State) (c : Nat),
    let x := s.channel c
    let started := fun w : RecordWrite => { x with
      writing := some w, cqTail := (x.cqTail + 1) % x.cqSize, phase := if (x.cqTail + 1) % x.cqSize = 0 then !x.phase else x.phase }
    s.part ≠ .failed → x.state = .open ∨ x.state = .closing ∨ x.state = .fencing → x.writing = none → x.postError = false →
    (∀ e rest r y, x.postQueue = e :: rest → s.request e = some r → r.completion = some y →
      exec (.recordWriteStart c) s = .next { s with
        channels := SMap.set {} s.channels c
          { started ⟨completionBytes x.phase x.sqHead r y, x.cqBase + 32 * x.cqTail, some e⟩ with postQueue := rest, reserved := x.reserved - 1 } })
    ∧ (∀ n rest, x.postQueue = [] → x.backlog = n :: rest → x.reserved < x.cqSize - 1 - (x.cqTail + x.cqSize - x.cqHead) % x.cqSize →
      exec (.recordWriteStart c) s = .next { s with
        channels := SMap.set {} s.channels c
          { started ⟨noticeBytes x.phase x.sqHead (if c = 0 then x.lost else 0) n, x.cqBase + 32 * x.cqTail, none⟩ with
            backlog := rest, lost := if c = 0 then 0 else x.lost } })
    ∧ (x.postQueue = [] → x.cqSize - 1 - (x.cqTail + x.cqSize - x.cqHead) % x.cqSize ≤ x.reserved → exec (.recordWriteStart c) s = .next s)

/-- R154, R158, R165, R168, R169: a record write ends. Without error the record is posted: the 32 bytes stand in host memory, the posted region grows,
the channel joins EVENT_SET if its interrupt enable is set, and a completion's entry is freed and the in-flight count falls. With an error the record
is discarded and the CQ tail stays: a completion's entry is freed and the in-flight count falls, the part fails for channel 0, and an OPEN data
channel is taken out of service with COMPLETION_POST_ERROR. It speaks of an OPEN channel of a RUNNING part. That the host write is recorded when it
ends is the model's account (log 4), and that a record which failed is not in the posted region is its reading (log 22). -/
def Obligations.RecordWriteEndPostsOrFences : Prop :=
  ∀ (s : State) (c : Nat) (w : RecordWrite),
    let x := s.channel c
    let posted := { x with writing := none, posted := (x.posted + 1) % x.cqSize }
    s.Settled → s.part = .running → x.state = .open → x.writing = some w →
    (w.entry = none → exec (.recordWriteEnd c false) s = .next
      { s with channels := SMap.set {} s.channels c posted
               eventSet := if x.interrupt then joinSet c s.eventSet else s.eventSet
               outbox := .hostWrite w.address w.bytes :: s.outbox })
    ∧ (∀ e r, w.entry = some e → s.request e = some r → r.channel = c → exec (.recordWriteEnd c false) s = .next
      { s with channels := SMap.set {} s.channels c { posted with inFlight := x.inFlight - 1 }
               table := SMap.set none s.table e none
               eventSet := if x.interrupt then joinSet c s.eventSet else s.eventSet
               outbox := .hostWrite w.address w.bytes :: s.outbox })
    ∧ (c = 0 → w.entry = none → exec (.recordWriteEnd c true) s = .next
      { s with part := .failed, failure := .adminPostError, channels := SMap.set {} s.channels 0 { x with writing := none } })
    ∧ (∀ e r, c = 0 → w.entry = some e → s.request e = some r → r.channel = 0 → exec (.recordWriteEnd c true) s = .next
      { s with part := .failed, failure := .adminPostError, table := SMap.set none s.table e none
               channels := SMap.set {} s.channels 0 { x with writing := none, inFlight := x.inFlight - 1 } })
    ∧ (c ≠ 0 → ∃ t, exec (.recordWriteEnd c true) s = .next t ∧ (t.channel c).writing = none ∧ (t.channel c).cqTail = x.cqTail
        ∧ (∀ e, w.entry = some e → t.request e = none)
        ∧ (t.channel c).posted = x.posted ∧ (t.channel c).cause = .completionPostError
        ∧ ((t.channel c).state = .fencing ∨ (t.channel c).state = .fenced ∨ (t.channel c).state = .closed))

/-- R30, R59, R60, R61, R67, R68, R71: a read transfer completes: the slot's bytes stand in the host buffer, the hold (if asked for) is decided by the
tests in their order, the reference is dropped and the READ completes with SUCCESS and its flags. With an error it completes with HOST_TRANSFER_ERROR,
and no hold is decided. In FAILED the writes end in the same way, and nothing else comes of it. Nothing waits for the slot, the set or the unit. The
host writes are recorded when they end, and the entry is noted in FAILED, where its request stays ACTIVE (log 4). -/
def Obligations.ReadTransferEnds : Prop :=
  ∀ (s : State) (e k slot : Nat) (r : Request), s.Completes e r → r.place = .active → r.kind = some .read → r.line = some k →
    r.delivered = some slot → s.slotWait = [] → s.waiters (k / 4) = [] → (s.unit r.key.unit).detach = none → (s.unit r.key.unit).discard = none →
    let x := s.channel r.channel
    let ln := s.line k
    let refused := x.state ≠ .open ∨ (s.unit r.key.unit).discarding = true ∨ ln.state = .free ∨ ln.key ≠ some r.key
      ∨ (r.channel ∉ ln.holders ∧ (ln.writer ≠ none ∨ ln.currentSlot ≠ some slot ∨ x.holdQuota ≤ x.holdCount))
    let data := Memory.readBytes s.store (slot * 1024) 1024
    let flags : Flags := { hit := !r.miss, retired := r.captured == some .retired }
    let done := fun y : Completion => { s.completed e r y with
      refs := SMap.set 0 s.refs slot (s.refCount slot - 1), outbox := .hostWrite r.record.buffer.toNat data :: s.outbox }
    (s.part = .failed → s.endedInFailed = [] →
      exec (.readTransferComplete e) s = .next
        { s with endedInFailed := [e], outbox := .hostWrite r.record.buffer.toNat data :: s.outbox }
      ∧ ∀ n, 0 < n → exec (.readTransferError e n) s = .next
        { s with
          endedInFailed := [e]
          outbox := .hostWrite r.record.buffer.toNat (Memory.readBytes s.store (slot * 1024) (min n 1024)) :: s.outbox })
    ∧ (s.part ≠ .failed →
        (r.record.hold = false → exec (.readTransferComplete e) s = .next (done { status := .success, flags }))
        ∧ (r.record.hold = true → refused →
            exec (.readTransferComplete e) s = .next (done { status := .success, flags := { flags with refused := true } }))
        ∧ (r.record.hold = true → ¬ refused → r.channel ∈ ln.holders →
            exec (.readTransferComplete e) s = .next (done { status := .success, flags := { flags with granted := true } }))
        ∧ (r.record.hold = true → ¬ refused → r.channel ∉ ln.holders →
            exec (.readTransferComplete e) s = .next
              { done { status := .success, flags := { flags with granted := true } } with
                lines := SMap.set {} s.lines k { ln with holders := joinSet r.channel ln.holders }
                channels := SMap.set {} s.channels r.channel { x with holdCount := x.holdCount + 1, postQueue := x.postQueue ++ [e] } })
        ∧ (∀ n, 0 < n → exec (.readTransferError e n) s = .next
            { s.completed e r { status := .hostTransferError } with
              refs := SMap.set 0 s.refs slot (s.refCount slot - 1)
              outbox := .hostWrite r.record.buffer.toNat (Memory.readBytes s.store (slot * 1024) (min n 1024)) :: s.outbox }))

/-- R6, R7, R13, R15, R31, R65, R67, R77, R80, R88: a WRITE's host transfer completes: its staging slot holds the data and becomes the line's current
slot with the mark DATA, and the state, the dirty epoch and the flush failure count change by the table of R7. The slot that was current loses its
reference, or, on a LOADING line, the staging slot its transfer reference; the way moves to most recent, and pressure follows the dirty count. The
hold (if asked for) is decided by the tests in their order, the write phase ends and the WRITE completes with SUCCESS and its flags. The part is
RUNNING, and nothing waits for the slot, the set, the line or the unit, whose sequencer is at work. -/
def Obligations.WriteTransferSwapsTheSlot : Prop :=
  ∀ (s : State) (e k slot : Nat) (r : Request) (data : List Byte), s.part = .running → s.Completes e r → r.place = .active →
    r.kind = some .write → r.line = some k → r.staging = some slot → data.length = 1024 → s.slotWait = [] → s.waiters (k / 4) = [] →
    (s.line k).waitList = [] → (s.line k).key = some r.key → (s.unit r.key.unit).op ≠ none → (s.unit r.key.unit).unwaited →
    (s.line k).state ≠ .free → (s.line k).state ≠ .filling →
    let x := s.channel r.channel
    let y := s.unit r.key.unit
    let ln := s.line k
    let clears := ln.state = .clean ∨ ln.state = .stranded ∨ ln.state = .loading
    let refused := x.state ≠ .open ∨ y.discarding = true ∨ (r.channel ∉ ln.holders ∧ x.holdQuota ≤ x.holdCount)
    let granted := r.record.hold = true ∧ ¬ refused
    let joins := granted ∧ r.channel ∉ ln.holders
    ∃ t, exec (.writeTransferComplete e data) s = .next t
      ∧ Memory.readBytes t.store (slot * 1024) 1024 = data
      ∧ (∀ a, a < slot * 1024 ∨ slot * 1024 + 1024 ≤ a → Memory.read t.store a = Memory.read s.store a)
      ∧ t.line k = { ln with
          currentSlot := some slot, mark := .data, writer := none
          holders := if joins then joinSet r.channel ln.holders else ln.holders
          state := if ln.state = .flushing ∨ ln.state = .reflush then .reflush else .dirty
          dirtyEpoch := if clears ∨ ln.state = .flushing then some y.epoch else ln.dirtyEpoch
          sourceEpoch := if ln.state = .flushing then ln.dirtyEpoch else ln.sourceEpoch
          flushSource := if clears then none else ln.flushSource
          failures := if clears then 0 else ln.failures }
      ∧ (∀ j, j ≠ k → t.line j = s.line j)
      ∧ t.request e = some (r.ended { status := .success, flags := {
          hit := !r.miss, granted := decide granted, refused := decide (r.record.hold = true ∧ refused) } })
      ∧ (∀ i, i ≠ e → t.request i = s.request i)
      ∧ t.channel r.channel = { x with holdCount := if joins then x.holdCount + 1 else x.holdCount, postQueue := x.postQueue ++ [e] }
      ∧ (∀ d, d ≠ r.channel → t.channel d = s.channel d)
      ∧ (ln.state = .loading → t.refCount slot = s.refCount slot - 1 ∧ ∀ j, j ≠ slot → t.refCount j = s.refCount j)
      ∧ (ln.state ≠ .loading → ∀ old, ln.currentSlot = some old → t.refCount old = s.refCount old - 1 ∧ ∀ j, j ≠ old → t.refCount j = s.refCount j)
      ∧ t.order (k / 4) = k % 4 :: (s.order (k / 4)).filter (· != k % 4) ∧ (∀ j, j ≠ k / 4 → t.order j = s.order j)
      ∧ (∀ p, s.params = some p → t.pressure = if ln.state ≠ .clean then s.pressure
          else if s.pressure then decide (p.lowMark < s.dirtyCount + 1) else decide (p.highMark ≤ s.dirtyCount + 1))
      ∧ t.dirtyCount = (if ln.state = .clean then s.dirtyCount + 1 else s.dirtyCount)
      ∧ t.unit r.key.unit = { y with
          flushList := if clears then insertBy FlushEntry.before ⟨k, r.key⟩ y.flushList else y.flushList
          stranded := if ln.state = .stranded then y.stranded - 1 else y.stranded }
      ∧ (∀ u, u ≠ r.key.unit → t.unit u = s.unit u)
      ∧ t.episodes = s.episodes ∧ t.eventSet = s.eventSet ∧ t.outbox = s.outbox

/-- R10, R24, R66: a WRITE's host transfer ends with an error: the WRITE completes with HOST_TRANSFER_ERROR and the staging slot loses its transfer
reference. A line that was not LOADING keeps everything but its writer; a LOADING line goes to FREE and its slot loses both references. Nothing
waits for the slot, the set, the line or the unit. -/
def Obligations.WriteTransferErrorLeavesTheLine : Prop :=
  ∀ (s : State) (e k slot : Nat) (r : Request) (placed : List Byte), s.part ≠ .failed → s.part ≠ .quiescing → s.Completes e r →
    r.place = .active → r.kind = some .write → r.line = some k → r.staging = some slot → s.slotWait = [] → s.waiters (k / 4) = [] →
    (s.line k).waitList = [] → (s.unit r.key.unit).unwaited →
    let store := Memory.writeBytes s.store (slot * 1024) (placed.take 1024)
    ((s.line k).state ≠ .loading → exec (.writeTransferError e placed) s = .next
      { s.completed e r { status := .hostTransferError } with
        store, refs := SMap.set 0 s.refs slot (s.refCount slot - 1), lines := SMap.set {} s.lines k { s.line k with writer := none } })
    ∧ ((s.line k).state = .loading → (s.line k).flushSource = none → (s.line k).currentSlot = some slot → s.refCount slot = 2 →
        ∃ t, exec (.writeTransferError e placed) s = .next t ∧ t.store = store ∧ t.line k = {} ∧ (∀ j, j ≠ k → t.line j = s.line j)
          ∧ t.refCount slot = 0 ∧ (∀ j, j ≠ slot → t.refCount j = s.refCount j) ∧ t.dirtyCount = s.dirtyCount - 1
          ∧ t.table = (s.completed e r { status := .hostTransferError }).table
          ∧ t.channels = (s.completed e r { status := .hostTransferError }).channels
          ∧ t.units = s.units ∧ t.episodes = s.episodes ∧ t.outbox = s.outbox ∧ t.recency = s.recency)

/-! ### Deadlines -/

/-- R21, R40, R43, R44: the set-wait deadline of a request on a set wait list expires: the request leaves the list and completes with NO_LINE; the list
is not re-run. The deadline of an episode with one pending channel expires: the channel loses its hold, a REVOKED notice joins its backlog, its revoke
count rises by 1, to at most 255; the episode closes, its unposted RECALLs are withdrawn, and the writer takes a staging slot and starts its host
transfer. Before its moment neither does anything. The episode has one recalled channel, still pending, OPEN, with room in its backlog and no revoke
limit; nothing waits for an episode record or the set. The moment is the model's account of time (log 8), the slot the one the model takes (log 10). -/
def Obligations.DeadlinesOfWaitsAndEpisodes : Prop :=
  (∀ (s : State) (e d : Nat) (r : Request), s.part ≠ .failed → s.Completes e r → r.place = .parked .setWait → r.deadline = some d →
      (d ≤ s.now → exec (.setWaitDeadlineExpiry e) s = .next
        { s.completed e r { status := .noLine } with
          setWait := SMap.set [] s.setWait (s.setOfKey r.key) ((s.waiters (s.setOfKey r.key)).filter (· != e)) })
      ∧ (s.now < d → exec (.setWaitDeadlineExpiry e) s = .next s))
  ∧ (∀ (s : State) (n d w slot : Nat) (ep : Episode) (r : Request), s.Settled → s.part ≠ .failed → s.episode n = some ep → ep.waiting = [d] →
      (s.now < ep.deadline → exec (.recallDeadlineExpiry n) s = .next s)
      ∧ (ep.deadline ≤ s.now → ep.recalled = [d] → ep.writer = w → s.request w = some r → d ≠ 0 → (s.channel d).state = .open →
          (s.channel d).backlog.length < 48 → (s.channel d).revokeLimit = 0 → (s.line ep.line).episode = some n →
          s.episodeWait = [] → s.waiters (ep.line / 4) = [] → s.freeSlot = some slot →
          ∃ t, exec (.recallDeadlineExpiry n) s = .next t
            ∧ t.episode n = none ∧ (∀ m, m ≠ n → t.episode m = s.episode m)
            ∧ t.line ep.line = { s.line ep.line with holders := (s.line ep.line).holders.filter (· != d), episode := none }
            ∧ (∀ j, j ≠ ep.line → t.line j = s.line j)
            ∧ t.channel d = { s.channel d with
                holdCount := (s.channel d).holdCount - 1
                revokeCount := min 255 ((s.channel d).revokeCount + 1)
                backlog := ((s.channel d).backlog ++ [Notice.revoked ep.key n]).filter (fun m => !m.isRecallOf n) }
            ∧ (∀ c, c ≠ d → t.channel c = s.channel c)
            ∧ t.request w = some { r with place := .active, staging := some slot }
            ∧ t.refCount slot = 1 ∧ t.outbox = .hostRead r.record.buffer.toNat 1024 :: s.outbox
            ∧ { t with episodes := s.episodes, lines := s.lines, channels := s.channels, table := s.table, refs := s.refs, outbox := s.outbox } = s))

/-! ### The units -/

/-- R101, R108, R109, R110, R111: a unit that gives no answer within the response limit, and one that reports a POSITION_FAULT, end the operation in
flight with SEEK_ERROR: the position is no longer known. A SURVEY completes with SEEK_ERROR; a fill's line goes to FREE. With no operation in flight
a POSITION_FAULT costs the position only. The unit has no other work and its write gate is off. The moment is the model's account of time (log 8).
-/
def Obligations.SeekErrorEndsTheOperation : Prop :=
  ∀ (s : State) (u e k : Nat) (r : Request) (o : Operation),
    let x := s.unit u
    let lost := { x with op := none, seq := .idle, believed := none, lastHeader := none, verifyPending := true }
    s.Settled → s.part = .running → x.state ≠ .detached → x.workless → x.unwaited → x.writeGate = false →
    (x.op = none → exec (.positionFault u) s = .next
      { s with units := SMap.set {} s.units u { x with believed := none, lastHeader := none } })
    ∧ (x.op = some o → o.subject = .survey e → s.Completes e r →
        exec (.positionFault u) s = .next
          { s.completed e r { status := .seekError } with units := SMap.set {} s.units u lost }
        ∧ (o.deadline ≤ s.now → exec (.unitResponseLimitExpiry u) s = .next
          { s.completed e r { status := .seekError } with units := SMap.set {} s.units u lost })
        ∧ (s.now < o.deadline → exec (.unitResponseLimitExpiry u) s = .next s))
    ∧ (x.op = some o → o.subject = .fill k → (s.line k).state = .filling → (s.line k).waitList = [] → s.waiters (k / 4) = [] → s.slotWait = [] →
        ∃ t, exec (.positionFault u) s = .next t ∧ t.unit u = lost ∧ t.line k = {} ∧ (∀ j, j ≠ k → t.line j = s.line j)
          ∧ t.table = s.table ∧ t.channels = s.channels ∧ t.store = s.store ∧ t.outbox = s.outbox)

/-- R101, R107, R108, R109, R110, R111: ARRIVED takes a POSITIONING sequencer to VERIFYING with the target as its believed track; HOME_FOUND takes a
HOMING one to VERIFYING on track 0, or to POSITIONING with a MOVE. Both set the response deadline, and in any other sequencer state, IDLE among them,
they are ignored. A HEADER in VERIFYING is ignored with a bad check. With a good check on the target track and surface it clears the verify pending
flag, becomes the last header seen and the first header of the search, or begins the survey; on another track or surface it makes the sequencer home
again once, and the second time ends the operation with SEEK_ERROR, the position no longer known. The first header of the search is taken by a fill.
In the last case the operation is a SURVEY and the unit has no other work. -/
def Obligations.PositioningFollowsTheUnit : Prop :=
  (∀ (s : State) (u : Nat), s.Settled →
    ((s.unit u).seq ≠ .positioning → exec (.arrived u) s = .next s) ∧ ((s.unit u).seq ≠ .homing → exec (.homeFound u) s = .next s))
  ∧ (∀ (s : State) (u : Nat) (o : Operation),
      let x := s.unit u
      s.Settled → s.part ≠ .failed → x.state ≠ .detached → x.op = some o →
      (x.seq = .positioning → exec (.arrived u) s = .next
        { s with
          units := SMap.set {} s.units u
            { x with believed := some o.track, seq := .verifying, op := some { o with indexCount := 0, deadline := s.now + 1000 } } })
      ∧ (x.seq = .homing → o.track = 0 → exec (.homeFound u) s = .next
        { s with
          units := SMap.set {} s.units u
            { x with believed := some 0, seq := .verifying, op := some { o with indexCount := 0, deadline := s.now + 1000 } } })
      ∧ (x.seq = .homing → o.track ≠ 0 → exec (.homeFound u) s = .next
        { s with
          units := SMap.set {} s.units u
            { x with believed := some 0, lastHeader := none, seq := .positioning, op := some { o with deadline := s.now + 1000 } }
          outbox := .move u o.track :: s.outbox }))
  ∧ (∀ (s : State) (u e k : Nat) (r : Request) (o : Operation) (track : BitVec 16) (surface sector size : Byte) (check : BitVec 16),
      let x := s.unit u
      let i := Instr.header u track surface sector size check []
      let good := check = checkBytes 0xFFFF [track.extractLsb' 8 8, track.extractLsb' 0 8, surface, sector, size]
      let there := track.toNat = o.track ∧ surface.toNat = o.surface
      let o' := { o with deadline := s.now + 1000 }
      let verified := { x with verifyPending := false, lastHeader := some sector.toNat }
      s.Settled → s.part = .running → x.state ≠ .detached → x.op = some o → x.seq = .verifying → o.field = none →
      (¬ good → exec i s = .next s)
      ∧ (good → there → o.subject = .fill k → exec i s = .next
          { s with
            units := SMap.set {} s.units u
              { verified with
                seq := if o.sector = some sector.toNat ∧ size = 3 then .transferring else .searching
                op := some { o' with indexCount := 0, checkMiss := false } } })
      ∧ (good → there → o.subject = .survey e → exec i s = .next
          { s with units := SMap.set {} s.units u { verified with seq := .surveying, op := some { o' with recording := false } } })
      ∧ (good → ¬ there → o.recalibrated = false → exec i s = .next
          { s with
            units := SMap.set {} s.units u { x with lastHeader := none, seq := .homing, op := some { o' with recalibrated := true } }
            outbox := .home u :: s.outbox })
      ∧ (good → ¬ there → o.recalibrated = true → o.subject = .survey e → s.Completes e r → x.workless → x.unwaited → x.writeGate = false →
          exec i s = .next
            { s.completed e r { status := .seekError } with
              units := SMap.set {} s.units u { x with op := none, seq := .idle, believed := none, lastHeader := none, verifyPending := true } }))

/-- R118, R119, R120, R122, R126: a header in SEARCHING. One that matches the target with a good check takes a fill to TRANSFERRING, and makes a
flush turn the write gate on with the mark, the 1024 bytes of its flush source and their check; one that matches with a bad check sets the
check-miss indicator; any other leaves the search going on. A good check makes its sector the last header seen. -/
def Obligations.HeaderSearchFindsItsTarget : Prop :=
  ∀ (s : State) (u k : Nat) (o : Operation) (track : BitVec 16) (surface sector size : Byte) (check : BitVec 16),
    let x := s.unit u
    let good := check = checkBytes 0xFFFF [track.extractLsb' 8 8, track.extractLsb' 0 8, surface, sector, size]
    let hit := track.toNat = o.track ∧ surface.toNat = o.surface ∧ o.sector = some sector.toNat ∧ size = 3
    let seen := if good then some sector.toNat else x.lastHeader
    s.Settled → s.part ≠ .failed → x.state ≠ .detached → x.op = some o → x.seq = .searching → o.field = none →
    (hit → good → o.subject = .fill k → exec (.header u track surface sector size check []) s = .next
      { s with
        units := SMap.set {} s.units u
          { x with lastHeader := seen, seq := .transferring, op := some { o with deadline := s.now + 1000 } } })
    ∧ (hit → good → o.subject = .flush k → ∀ slot, (s.line k).flushSource = some slot →
      let data := Memory.readBytes s.store (slot * 1024) 1024
      let mark : Byte := if (s.line k).mark = .data then 0xFB else 0xF8
      let c := checkBytes 0xFFFF (mark :: data)
      exec (.header u track surface sector size check []) s = .next
        { s with
          units := SMap.set {} s.units u
            { x with lastHeader := seen, writeGate := true, seq := .transferring, op := some { o with deadline := s.now + 1000 } }
          outbox := .writeGateOn u (mark :: data ++ [c.extractLsb' 8 8, c.extractLsb' 0 8]) :: s.outbox })
    ∧ (hit → ¬ good → exec (.header u track surface sector size check []) s = .next
      { s with units := SMap.set {} s.units u { x with op := some { o with checkMiss := true, deadline := s.now + 1000 } } })
    ∧ (¬ hit → exec (.header u track surface sector size check []) s = .next
      { s with units := SMap.set {} s.units u { x with lastHeader := seen, op := some { o with deadline := s.now + 1000 } } })

/-- R5, R15, R24, R25, R122, R123: DATA_MARK opens the data field of a fill. A DATA_END after 1024 data bytes whose check is right ends the fill with
SUCCESS: the slot holds the bytes the unit delivered, and the line goes to CLEAN with the mark read. LD then serves the line's wait list: the READs at
its head, up to the first WRITE, leave it and start their transfers together from the slot; the WRITE leaves it as the writer and starts its host
transfer into the free slot the model takes (log 10); the entries behind it stay. The data bytes come with DATA_END (log 6); no request waits for the
set, no channel holds the line, and the unit has no other work. -/
def Obligations.FillReadsItsDataField : Prop :=
  ∀ (s : State) (u k slot : Nat) (o : Operation) (mark : Mark) (data : List Byte),
    let x := s.unit u
    let byte : Byte := if mark = .data then 0xFB else 0xF8
    s.Settled → s.part = .running → x.state ≠ .detached → x.op = some o → x.seq = .transferring → o.subject = .fill k →
    (o.field = none → exec (.dataMark u mark []) s = .next
      { s with
        units := SMap.set {} s.units u
          { x with op := some { o with field := some ⟨mark, 0, checkBytes 0xFFFF [byte]⟩, deadline := s.now + 1000 } } })
    ∧ (o.field = some ⟨mark, 0, checkBytes 0xFFFF [byte]⟩ → data.length = 1024 → x.workless → x.unwaited → x.writeGate = false →
        (s.line k).state = .filling → (s.line k).currentSlot = some slot → s.waiters (k / 4) = [] →
        ((s.line k).waitList ≠ [] → (s.line k).writer = none ∧ (s.line k).holders = []) →
        ∀ rs tail : List Nat, (s.line k).waitList = rs ++ tail → (∀ i ∈ rs, ∃ y, s.request i = some y ∧ y.kind = some .read) →
        (∀ w ∈ tail.head?, ∃ v, s.request w = some v ∧ v.kind = some .write) →
        ∃ t, exec (.dataEnd u (checkBytes 0xFFFF (byte :: data)) data) s = .next t
          ∧ Memory.readBytes t.store (slot * 1024) 1024 = data
          ∧ (∀ a, a < slot * 1024 ∨ slot * 1024 + 1024 ≤ a → Memory.read t.store a = Memory.read s.store a)
          ∧ (∀ j, j ≠ k → t.line j = s.line j) ∧ t.unit u = { x with op := none, seq := .idle }
          ∧ t.order (k / 4) = k % 4 :: (s.order (k / 4)).filter (· != k % 4) ∧ t.channels = s.channels ∧ t.dirtyCount = s.dirtyCount
          ∧ (∀ i ∈ rs, ∀ y, s.request i = some y → t.request i = some { y with
              place := .active, line := some k, delivered := some slot, captured := some mark })
          ∧ (tail = [] → t.line k = { s.line k with state := .clean, mark, waitList := [] } ∧ t.refCount slot = s.refCount slot + rs.length
            ∧ (∀ j, j ≠ slot → t.refCount j = s.refCount j) ∧ (∀ i, i ∉ rs → t.request i = s.request i) ∧ t.outbox = s.outbox
            ∧ (rs = [] → t.table = s.table ∧ t.refs = s.refs))
          ∧ (∀ w rest v other, tail = w :: rest → s.request w = some v → s.refCount slot ≠ 0 → s.freeSlot = some other →
            t.line k = { s.line k with state := .clean, mark, writer := some w, waitList := rest }
            ∧ t.refCount slot = s.refCount slot + rs.length ∧ t.refCount other = 1 ∧ (∀ j, j ≠ slot → j ≠ other → t.refCount j = s.refCount j)
            ∧ t.request w = some { v with place := .active, line := some k, staging := some other }
            ∧ (∀ i, i ∉ rs → i ≠ w → t.request i = s.request i) ∧ t.outbox = .hostRead v.record.buffer.toNat 1024 :: s.outbox))

/-- R121, R122, R123, R124: a data field read with a bad check, or with more or fewer than 1024 bytes, raises the attempt count and sets the bad-data
indicator; while the count does not exceed the read retries the search begins again with its index count at 0, and otherwise the fill ends with
DATA_CHECK and its line goes to FREE. A second DATA_MARK, a HEADER and the third index pass between DATA_MARK and DATA_END cut the field short and
count as such an attempt, and the header is examined in the new search; an earlier INDEX is only counted. Before any DATA_MARK a HEADER ends the wait
for the missed sector and is examined in the search, which goes on as it stood, and the third index pass ends the search. Where the fill ends, one
READ waits for the line, nothing waits for the slot or the set, and the unit has no other work. The headers stated are not the target's. -/
def Obligations.BadDataIsRetriedThenFails : Prop :=
  (∀ (s : State) (u k n : Nat) (o : Operation) (f : DataField) (check : BitVec 16),
      let x := s.unit u
      s.Settled → s.part = .running → x.state ≠ .detached → x.op = some o → x.seq = .transferring → o.subject = .fill k → o.field = some f →
      f.received ≠ 1024 ∨ f.check ≠ check → x.retries = some n →
      (o.attempts + 1 ≤ n → ∃ t, exec (.dataEnd u check []) s = .next t
        ∧ t.unit u = { x with seq := .searching, op := some { o with attempts := o.attempts + 1, badData := true, indexCount := 0, field := none,
                                                                     deadline := s.now + 1000 } }
        ∧ { t with units := s.units, store := s.store } = s)
      ∧ (n < o.attempts + 1 → x.workless → x.unwaited → x.writeGate = false → (s.line k).state = .filling → s.slotWait = [] →
          s.waiters (k / 4) = [] → ∀ e r, (s.line k).waitList = [e] → s.Completes e r → r.kind = some .read →
          ∃ t, exec (.dataEnd u check []) s = .next t ∧ t.line k = {} ∧ (t.unit u).op = none ∧ (t.unit u).seq = .idle
            ∧ (t.unit u).verifyPending = true ∧ (∃ y, t.request e = some y ∧ y.place = .done ∧ y.completion = some { status := .dataCheck })
            ∧ t.channels = (s.completed e r { status := .dataCheck }).channels))
  ∧ (∀ (s : State) (u k n : Nat) (o : Operation) (mark : Mark) (track : BitVec 16) (surface sector size : Byte) (check : BitVec 16),
      let x := s.unit u
      let good := check = checkBytes 0xFFFF [track.extractLsb' 8 8, track.extractLsb' 0 8, surface, sector, size]
      let header := Instr.header u track surface sector size check []
      let retried := { o with attempts := o.attempts + 1, badData := true, indexCount := 0, field := none, deadline := s.now + 1000 }
      let missed := { o with deadline := s.now + 1000 }
      let counted := { missed with indexCount := o.indexCount + 1 }
      let seen := if good then some sector.toNat else x.lastHeader
      let becomes := fun (i : Instr) (y : UnitRec) => ∃ t, exec i s = .next t ∧ t.unit u = y ∧ (∀ v, v ≠ u → t.unit v = s.unit v)
        ∧ { t with units := s.units, store := s.store } = s
      s.Settled → s.part = .running → x.state ≠ .detached → x.op = some o → x.seq = .transferring → o.subject = .fill k → x.retries = some n →
      ¬ (track.toNat = o.track ∧ surface.toNat = o.surface ∧ o.sector = some sector.toNat ∧ size = 3) →
      (o.field ≠ none → o.attempts + 1 ≤ n → becomes (.dataMark u mark []) { x with seq := .searching, op := some retried })
      ∧ (o.field ≠ none → o.attempts + 1 ≤ n → becomes header { x with seq := .searching, op := some retried, lastHeader := seen })
      ∧ (o.field ≠ none → o.indexCount = 2 → o.attempts + 1 ≤ n → becomes (.index u []) { x with seq := .searching, op := some retried })
      ∧ (o.indexCount < 2 → becomes (.index u []) { x with op := some counted })
      ∧ (o.field = none → o.indexCount < 3 → becomes header { x with seq := .searching, op := some missed, lastHeader := seen })
      ∧ (o.field = none → o.indexCount = 2 → x.workless → x.unwaited → x.writeGate = false → (s.line k).state = .filling → s.slotWait = [] →
          s.waiters (k / 4) = [] → ∀ e r, (s.line k).waitList = [e] → s.Completes e r → r.kind = some .read →
          ∃ t, exec (.index u []) s = .next t ∧ t.line k = {} ∧ (t.unit u).op = none ∧ (t.unit u).seq = .idle ∧ (t.unit u).verifyPending = true
            ∧ ∃ y, t.request e = some y ∧ y.place = .done
              ∧ y.completion = some { status := if o.badData then .dataCheck else if o.checkMiss then .headerCheck else .sectorNotFound }))

/-- R110, R121, R131, R132, R135: INDEX. It is counted in VERIFYING and SEARCHING below the limit of 3; the third of a search ends a fill with
SECTOR_NOT_FOUND, HEADER_CHECK or DATA_CHECK. In a survey the first begins the recording phase and the second hands the entries to RT, the SURVEY
staying ACTIVE. In the fill's case one READ waits for the line; the unit has no other work. The case of a SURVEY without entries is the model's
reading (log 15). -/
def Obligations.IndexPassesAreCounted : Prop :=
  ∀ (s : State) (u e k : Nat) (o : Operation) (r : Request),
    let x := s.unit u
    s.Settled → s.part = .running → x.state ≠ .detached → x.op = some o → o.field = none →
    (x.seq = .verifying ∨ x.seq = .searching → o.indexCount < 2 → exec (.index u []) s = .next
      { s with units := SMap.set {} s.units u { x with op := some { o with indexCount := o.indexCount + 1, deadline := s.now + 1000 } } })
    ∧ (x.seq = .searching → o.indexCount = 2 → o.subject = .fill k → x.workless → x.unwaited → x.writeGate = false →
        (s.line k).state = .filling → s.slotWait = [] → s.waiters (k / 4) = [] → (s.line k).waitList = [e] → s.Completes e r →
        r.kind = some .read → ∃ t, exec (.index u []) s = .next t ∧ t.line k = {} ∧ (t.unit u).op = none ∧ (t.unit u).verifyPending = true
          ∧ ∃ y, t.request e = some y ∧ y.place = .done
            ∧ y.completion = some { status := if o.badData then .dataCheck else if o.checkMiss then .headerCheck else .sectorNotFound })
    ∧ (x.seq = .surveying → o.subject = .survey e → o.recording = false → exec (.index u []) s = .next
        { s with units := SMap.set {} s.units u { x with op := some { o with recording := true, deadline := s.now + 1000 } } })
    ∧ (x.seq = .surveying → o.subject = .survey e → o.recording = true → s.request e = some r → x.workless → x.unwaited → x.writeGate = false →
        exec (.index u []) s = .next
          { s with units := SMap.set {} s.units u { x with op := none, seq := .idle }
                   table := SMap.set none s.table e (some { r with survey := some ⟨o.entries, o.overflow⟩ }) })

/-- R133, R134: a header in the recording phase of a survey is appended as read, with its check-good and foreign flags, while the list holds fewer
than 64 entries; with 64 it is not recorded and sets the overflow indicator. -/
def Obligations.SurveyRecordsHeaders : Prop :=
  ∀ (s : State) (u e : Nat) (o : Operation) (track : BitVec 16) (surface sector size : Byte) (check : BitVec 16),
    let x := s.unit u
    let good := check = checkBytes 0xFFFF [track.extractLsb' 8 8, track.extractLsb' 0 8, surface, sector, size]
    let seen := if good then some sector.toNat else x.lastHeader
    let entry : SurveyEntry := ⟨track, surface, sector, size, check, decide good, decide (size ≠ 3)⟩
    s.Settled → s.part ≠ .failed → x.state ≠ .detached → x.op = some o → x.seq = .surveying → o.subject = .survey e → o.recording = true →
    (o.entries.length < 64 → exec (.header u track surface sector size check []) s = .next
      { s with
        units := SMap.set {} s.units u
          { x with lastHeader := seen, op := some { o with entries := o.entries ++ [entry], deadline := s.now + 1000 } } })
    ∧ (64 ≤ o.entries.length → exec (.header u track surface sector size check []) s = .next
      { s with
        units := SMap.set {} s.units u
          { x with lastHeader := seen, op := some { o with overflow := true, deadline := s.now + 1000 } } })

/-- R9, R79, R82, R83, R84, R85, R86, R91, R92, R127: WRITE_DONE ends a flush with SUCCESS and turns the gate off: a FLUSHING line goes to CLEAN, its
flush source loses its reference and the dirty count falls. WRITE_FAULT for the third time in a row strands the line, with a LINE_STRANDED notice to
channel 0. There the unit has no other work and no barrier, and nothing waits for the slot or the set. With one barrier, whose last covered line the
flush is, the parked FLUSH completes with SUCCESS, or with INCOMPLETE and the number of STRANDED lines its barrier covers, and the barrier list is
empty. For every re-test: while a line of the unit makes the oldest barrier wait nothing happens; otherwise its FLUSH completes so and leaves the
list, and the re-test goes on with the next. For every status, from FLUSHING and from REFLUSH, the line's record after the outcome is the one of R9
and R84: a counted failure below three puts it back to DIRTY, WRITE_PROTECTED strands it, UNIT_NOT_READY puts it back uncounted, and out of REFLUSH a
failure keeps the flush-source epoch. The last and the re-test are stated of the operations that take every flush outcome and every re-test. -/
def Obligations.FlushEndsByTheUnitsAnswer : Prop :=
  (∀ (s : State) (u k slot : Nat) (o : Operation) (key : Key) (p : Params),
      let x := s.unit u
      let ln := s.line k
      s.Settled → s.part = .running → x.state ≠ .detached → x.op = some o → x.seq = .transferring → o.subject = .flush k → x.workless → x.unwaited →
      x.barriers = [] → x.writeGate = true → ln.state = .flushing → ln.key = some key → key.unit = u → ln.flushSource = some slot →
      s.slotWait = [] → s.waiters (k / 4) = [] → s.params = some p →
      (∃ t, exec (.writeDone u) s = .next t
        ∧ t.line k = { ln with state := .clean, flushSource := none, sourceEpoch := none, dirtyEpoch := none, failures := 0 }
        ∧ (∀ j, j ≠ k → t.line j = s.line j)
        ∧ t.unit u = { x with op := none, seq := .idle, writeGate := false } ∧ t.refCount slot = s.refCount slot - 1
        ∧ t.dirtyCount = s.dirtyCount - 1 ∧ t.outbox = .writeGateOff u :: s.outbox ∧ t.channels = s.channels ∧ t.table = s.table)
      ∧ (ln.failures = 2 → (s.channel 0).state = .open → (s.channel 0).backlog.length < 32 → ∃ t, exec (.writeFault u) s = .next t
        ∧ t.line k = { ln with state := .stranded, flushSource := none, sourceEpoch := none, failures := 3 }
        ∧ (∀ j, j ≠ k → t.line j = s.line j)
        ∧ t.unit u = { x with op := none, seq := .idle, writeGate := false, verifyPending := true, stranded := x.stranded + 1 }
        ∧ t.channel 0 = { s.channel 0 with backlog := (s.channel 0).backlog ++ [.lineStranded key .writeFault 3 (ln.dirtyEpoch.getD 0)] }
        ∧ t.dirtyCount = s.dirtyCount ∧ t.outbox = .writeGateOff u :: s.outbox))
  ∧ (∀ (s : State) (u k slot : Nat) (o : Operation) (key : Key) (b : Barrier) (r : Request),
      let x := s.unit u
      let ln := s.line k
      let counted := (s.lines.filter (fun p => p.2.state == .stranded && p.2.key.any (·.unit == u)
        && p.2.dirtyEpoch.any (fun d => decide (EpochAtMost d b.epoch)))).length
      s.part = .running → x.state ≠ .detached → x.op = some o → x.seq = .transferring → o.subject = .flush k → x.workless → x.unwaited →
      x.barriers = [b] → s.Completes b.entry r → r.place = .parked .barrierList → ln.state = .flushing → ln.key = some key → key.unit = u →
      ln.flushSource = some slot → s.slotWait = [] → s.waiters (k / 4) = [] → SMap.wf {} s.lines = true →
      (∀ p ∈ s.lines, p.1 ≠ k → p.2.ofUnit u = true → p.2.state ≠ .dirty ∧ p.2.state ≠ .flushing ∧ p.2.state ≠ .reflush) →
      ∃ t, exec (.writeDone u) s = .next t
        ∧ t.line k = { ln with state := .clean, flushSource := none, sourceEpoch := none, dirtyEpoch := none, failures := 0 }
        ∧ (∀ j, j ≠ k → t.line j = s.line j)
        ∧ t.unit u = { x with op := none, seq := .idle, writeGate := false, barriers := [] }
        ∧ t.table = (s.completed b.entry r
            { status := if counted = 0 then .success else .incomplete, count := counted, epoch := b.epoch }).table
        ∧ t.channels = (s.completed b.entry r { status := .success }).channels)
  ∧ (∀ (s : State) (u : Nat) (b : Barrier) (bs : List Barrier) (r : Request),
      let counted := (s.lines.filter (fun p => p.2.state == .stranded && p.2.key.any (·.unit == u)
        && p.2.dirtyEpoch.any (fun d => decide (EpochAtMost d b.epoch)))).length
      let delayed := ∃ p ∈ s.lines, ∃ key d, p.2.key = some key ∧ key.unit = u ∧ EpochAtMost d b.epoch
        ∧ ((p.2.state = .dirty ∨ p.2.state = .flushing ∨ p.2.state = .reflush) ∧ p.2.dirtyEpoch = some d
          ∨ p.2.state = .reflush ∧ p.2.sourceEpoch = some d)
      (s.unit u).barriers = b :: bs → s.Completes b.entry r →
      (delayed → s.retest u = s)
      ∧ (¬ delayed → s.retest u = State.retest { s.completed b.entry r
          { status := if counted = 0 then .success else .incomplete, count := counted, epoch := b.epoch } with
            units := SMap.set {} s.units u { s.unit u with barriers := bs } } u))
  ∧ (∀ (s : State) (u : Nat), (s.unit u).barriers = [] → s.retest u = s)
  ∧ (∀ (s : State) (k slot : Nat) (status : Status),
      let ln := s.line k
      let t := s.flushOutcome k status
      let ended := { ln with flushSource := none, sourceEpoch := none }
      let unflushed := if ln.state = .reflush then ln.sourceEpoch else ln.dirtyEpoch
      ln.state = .flushing ∨ ln.state = .reflush → s.slotWait = [] → ln.flushSource = some slot →
      t.refCount slot = s.refCount slot - 1 ∧ (∀ j, j ≠ k → t.line j = s.line j)
      ∧ (status = .success → t.line k = if ln.state = .reflush then { ended with state := .dirty, failures := 0 }
          else { ended with state := .clean, dirtyEpoch := none, failures := 0 })
      ∧ (status = .writeProtected → t.line k = { ended with state := .stranded, dirtyEpoch := unflushed })
      ∧ (status = .unitNotReady → t.line k = { ended with state := .dirty, dirtyEpoch := unflushed })
      ∧ (status ≠ .success → status ≠ .writeProtected → status ≠ .unitNotReady →
          t.line k = { ended with
            state := if ln.failures + 1 < 3 then .dirty else .stranded, failures := ln.failures + 1, dirtyEpoch := unflushed }))

/-- R99, R112, R113: READY_RISE takes a NOT_READY unit to READY with a UNIT_READY notice, and READY_FALL takes a READY one to NOT_READY with a
UNIT_NOT_READY notice and its position no longer known; on a unit in another state they record the level only. A fall ends the
operation in flight with UNIT_NOT_READY and its write gate off: a fill's line goes to FREE and its READs complete, as for each queued fill, a flush's
line goes back to DIRTY with its failure count as it was, and a SURVEY completes, as each queued one does. The part is RUNNING, channel 0 is OPEN with
room in its backlog, a unit that rises has no work, one READ waits for each line, and nothing waits for the slots or the sets. -/
def Obligations.ReadyLineMovesTheUnit : Prop :=
  ∀ (s : State) (u : Nat),
    let x := s.unit u
    let told := fun n : Notice => SMap.set {} s.channels 0 { s.channel 0 with backlog := (s.channel 0).backlog ++ [n] }
    s.Settled → s.part = .running → u < 4 → (s.channel 0).state = .open → (s.channel 0).backlog.length < 32 →
    (x.state ≠ .notReady → exec (.readyRise u) s = .next { s with units := SMap.set {} s.units u { x with readyLine := true } })
    ∧ (x.state = .notReady → x.workless → exec (.readyRise u) s = .next
        { s with units := SMap.set {} s.units u { x with readyLine := true, state := .ready }, channels := told (.unitReady u) })
    ∧ (x.state ≠ .ready → exec (.readyFall u) s = .next { s with units := SMap.set {} s.units u { x with readyLine := false } })
    ∧ (x.state = .ready → x.workless → x.op = none → exec (.readyFall u) s = .next
        { s with
          units := SMap.set {} s.units u
            { x with readyLine := false, state := .notReady, believed := none, lastHeader := none, selectedSurface := none,
                     verifyPending := true }
          channels := told (.unitNotReady u) })
    ∧ (∀ o, x.state = .ready → x.op = some o → x.unwaited → s.slotWait = [] →
        let fallen := { x with
          readyLine := false, state := .notReady, op := none, seq := .idle, believed := none, lastHeader := none, selectedSurface := none,
          verifyPending := true }
        let unready := fun (r : Request) => some (r.ended { status := .unitNotReady })
        let notified := (s.channel 0).backlog ++ [Notice.unitNotReady u]
        (∀ k j a b e q r y, o.subject = .fill k → x.writeGate = false → x.fillQueue = [j] → x.surveyQueue = [e] → k ≠ j → [a, b, e].Nodup →
          (s.line k).state = .filling → (s.line k).waitList = [a] → (s.line j).state = .filling → (s.line j).waitList = [b] →
          s.waiters (k / 4) = [] → s.waiters (j / 4) = [] → s.Completes a q → q.kind = some .read → s.Completes b r → r.kind = some .read →
          s.Completes e y → y.place = .parked .surveyQueue → y.record.unit = u → ∃ t, exec (.readyFall u) s = .next t
            ∧ t.unit u = { fallen with fillQueue := [], surveyQueue := [] } ∧ t.line k = {} ∧ t.line j = {}
            ∧ (∀ i, i ≠ k → i ≠ j → t.line i = s.line i) ∧ t.request a = unready q ∧ t.request b = unready r ∧ t.request e = unready y
            ∧ (t.channel 0).backlog = notified ∧ t.dirtyCount = s.dirtyCount ∧ t.outbox = s.outbox)
        ∧ (∀ k slot key, o.subject = .flush k → x.fillQueue = [] → x.surveyQueue = [] → x.barriers = [] → (s.line k).state = .flushing →
          (s.line k).key = some key → key.unit = u → (s.line k).flushSource = some slot → s.waiters (k / 4) = [] →
          ∃ t, exec (.readyFall u) s = .next t ∧ t.line k = { s.line k with state := .dirty, flushSource := none, sourceEpoch := none }
            ∧ (∀ i, i ≠ k → t.line i = s.line i) ∧ t.refCount slot = s.refCount slot - 1 ∧ t.dirtyCount = s.dirtyCount
            ∧ t.unit u = { fallen with writeGate := false, flushList := insertBy FlushEntry.before ⟨k, key⟩ x.flushList }
            ∧ (t.channel 0).backlog = notified ∧ t.table = s.table
            ∧ t.outbox = if x.writeGate then .writeGateOff u :: s.outbox else s.outbox)
        ∧ (∀ e y, o.subject = .survey e → x.writeGate = false → x.fillQueue = [] → x.surveyQueue = [] → s.Completes e y →
          ∃ t, exec (.readyFall u) s = .next t ∧ t.unit u = fallen ∧ t.request e = unready y ∧ t.lines = s.lines
            ∧ (t.channel 0).backlog = notified ∧ t.outbox = s.outbox))

/-- R106: with the believed track known, a candidate on it is chosen by the least rotational distance from the last header seen, the direction
staying; with none on it, the nearest track ahead in the sweep direction is taken, or, with none ahead, the nearest behind with the direction
reversed. It speaks of the choice with a last header seen. -/
def Obligations.FlushChoiceFollowsTheHead : Prop :=
  ∀ (x : UnitRec) (l : List FlushEntry) (track h : Nat) (g : Geometry), x.believed = some track → x.lastHeader = some h → x.geometry = some g →
    let distance := fun f : FlushEntry => if h < f.key.sector then (f.key.sector : Int) - h else (f.key.sector : Int) - h + g.sectors
    let ahead := fun f : FlushEntry => (x.sweep = .up ∧ track < f.key.track) ∨ (x.sweep = .down ∧ f.key.track < track)
    let gap := fun f : FlushEntry => Int.natAbs ((f.key.track : Int) - track)
    (l = [] → chooseFlush x l = none)
    ∧ ((∃ f ∈ l, f.key.track = track) → ∃ f ∈ l, chooseFlush x l = some (f, x.sweep) ∧ f.key.track = track
        ∧ ∀ b ∈ l, b.key.track = track → distance f ≤ distance b)
    ∧ ((∀ f ∈ l, f.key.track ≠ track) → (∃ f ∈ l, ahead f) → ∃ f ∈ l, chooseFlush x l = some (f, x.sweep) ∧ ahead f
        ∧ ∀ b ∈ l, ahead b → gap f ≤ gap b)
    ∧ ((∀ f ∈ l, f.key.track ≠ track) → (∀ f ∈ l, ¬ ahead f) → l ≠ [] → ∃ f ∈ l, chooseFlush x l = some (f, x.sweep.reverse)
        ∧ ∀ b ∈ l, gap f ≤ gap b)

/-- R8, R81, R84, R102, R105, R107, R113, R125: READY_RISE on a NOT_READY unit with work runs a selection. It takes the first of an urgent flush, the
head of the fill queue, the head of the survey queue, which becomes ACTIVE, and any flush, and starts the operation: SELECT unless the target surface
is selected; then HOME where the believed track is UNKNOWN, MOVE where it is another track, verification where the verify pending flag is set, and
otherwise the search or the survey. A flush takes its line from DIRTY to FLUSHING with a flush-source reference; with the protect line active it
issues no command, leaves the position as it stands and ends with WRITE_PROTECTED, which strands the line. The flush list holds one line; with the
protect line active nothing else is queued and nothing waits. The protect line's level is a free value (log 2). -/
def Obligations.SelectionTakesTheFirstClass : Prop :=
  ∀ (s : State) (u : Nat),
    let x := s.unit u
    let told := fun l : List Notice => SMap.set {} s.channels 0 { s.channel 0 with backlog := (s.channel 0).backlog ++ .unitReady u :: l }
    let risen := { x with readyLine := true, state := .ready }
    let op := fun (subject : Subject) (track surface : Nat) (sector : Option Nat) =>
      ({ subject, track, surface, sector, deadline := s.now + 1000 } : Operation)
    let started := fun (o : Operation) (last : SeqState) (y : UnitRec) => { y with
      op := some o, selectedSurface := some o.surface
      seq := if x.believed = none then .homing else if x.believed ≠ some o.track then .positioning else if x.verifyPending then .verifying else last
      lastHeader := if x.believed = some o.track then x.lastHeader else none }
    let issued := fun o : Operation =>
      (if x.believed = none then [Output.home u] else if x.believed = some o.track then [] else [.move u o.track])
        ++ (if x.selectedSurface = some o.surface then [] else [.select u o.surface]) ++ s.outbox
    let urgent := fun f : FlushEntry => s.pressure = true ∨ s.waiters (f.line / 4) ≠ []
      ∨ ∃ b bs d, x.barriers = b :: bs ∧ (s.line f.line).dirtyEpoch = some d ∧ EpochAtMost d b.epoch
    s.Settled → s.part = .running → u < 4 → x.state = .notReady → x.op = none → x.seq = .idle → x.discarding = false →
    (s.channel 0).state = .open → (s.channel 0).backlog.length < 31 →
    (∀ k rest key, (∀ f ∈ x.flushList, ¬ urgent f) → x.fillQueue = k :: rest → (s.line k).key = some key →
      let o := op (.fill k) key.track key.surface (some key.sector)
      exec (.readyRise u) s = .next { s with
        channels := told [], units := SMap.set {} s.units u (started o .searching { risen with fillQueue := rest }), outbox := issued o })
    ∧ (∀ e rest r, (∀ f ∈ x.flushList, ¬ urgent f) → x.fillQueue = [] → x.surveyQueue = e :: rest → s.request e = some r →
      let o := op (.survey e) r.record.track.toNat r.record.surface.toNat none
      exec (.readyRise u) s = .next { s with
        channels := told [], units := SMap.set {} s.units u (started o .surveying { risen with surveyQueue := rest }), outbox := issued o
        table := SMap.set none s.table e (some { r with place := .active }) })
    ∧ (∀ f slot, x.flushList = [f] → (s.line f.line).state = .dirty → (s.line f.line).key = some f.key → f.key.unit = u →
      (s.line f.line).currentSlot = some slot →
      let o := op (.flush f.line) f.key.track f.key.surface (some f.key.sector)
      let towards := match x.believed with
        | none => Sweep.up
        | some track => if track < f.key.track then .up else if f.key.track < track then .down else x.sweep
      ((x.fillQueue = [] ∧ x.surveyQueue = [] ∨ urgent f) → ∃ t, exec (.readyRise u) s = .next t ∧ (s.protectLevel u = false →
        t = { s with
          channels := told [], protectSamples := s.protectSamples + 1, outbox := issued o
          units := SMap.set {} s.units u (started o .searching { risen with flushList := [], sweep := towards })
          lines := SMap.set {} s.lines f.line { s.line f.line with state := .flushing, flushSource := some slot }
          refs := SMap.set 0 s.refs slot (s.refCount slot + 1) }))
      ∧ (x.fillQueue = [] → x.surveyQueue = [] → x.barriers = [] → x.unwaited → x.writeGate = false → s.slotWait = [] →
        s.waiters (f.line / 4) = [] → ∃ t, exec (.readyRise u) s = .next t ∧ (s.protectLevel u = true →
          t.line f.line = { s.line f.line with state := .stranded, flushSource := none, sourceEpoch := none }
          ∧ (∀ j, j ≠ f.line → t.line j = s.line j) ∧ (∀ n, t.refCount n = s.refCount n) ∧ t.dirtyCount = s.dirtyCount
          ∧ t.unit u = { risen with flushList := [], verifyPending := true, stranded := x.stranded + 1 }
          ∧ t.channels = told [.lineStranded f.key .writeProtected (s.line f.line).failures ((s.line f.line).dirtyEpoch.getD 0)]
          ∧ t.protectSamples = s.protectSamples + 1 ∧ t.outbox = s.outbox)))

/-! ### Rows that other steps set in motion -/

/-- R49, R94, R157, R171, R172, R179, R182, R183: a CLOSING channel that has drained goes to CLOSED and its CHANNEL_CLOSE completes; a FENCING one
goes to FENCED with a CHANNEL_FENCED notice to channel 0; a detach whose awaited transfers have ended is carried out; a discard runs its third stage
once its unit is quiet. A channel that has not drained, and a unit for which nothing waits, stay as they are. The third stage frees every line of the
unit, whatever its state, with its holds dropped and HOLDS_DROPPED queued, and counts those of the dirty group, with nothing waiting for what they set
free. The unit of the detach, and of the discard stated whole, has no lines, requests or barriers left. That these rows test the condition again is
the model's reading (log 12). -/
def Obligations.WaitingAdministrationGoesOn : Prop :=
  ∀ (s : State) (c u e : Nat) (r : Request),
    let x := s.channel c
    let y := s.unit u
    s.Settled → s.part = .running → c ≠ 0 →
    (x.state = .closing → x.inFlight = 0 → x.writing = none → x.closeEntry = some e → s.Completes e r → r.channel = 0 →
      ∃ t, exec (.channelDrain c) s = .next t ∧ t.channel c = { x with state := .closed, closeEntry := none }
        ∧ t.eventSet = s.eventSet.filter (· != c) ∧ t.request e = some (r.ended { status := .success })
        ∧ (∀ d, d ≠ c → t.channel d = (s.completed e r { status := .success }).channel d))
    ∧ (x.state = .fencing → x.inFlight = 0 → x.writing = none → x.closePending = false → (s.channel 0).state = .open →
        (s.channel 0).backlog.length < 32 → ∃ t, exec (.channelDrain c) s = .next t ∧ t.channel c = { x with state := .fenced }
          ∧ t.channel 0 = { s.channel 0 with backlog := (s.channel 0).backlog ++ [.channelFenced c x.cause] }
          ∧ t.eventSet = s.eventSet.filter (· != c) ∧ t.table = s.table)
    ∧ (x.inFlight ≠ 0 ∨ x.writing ≠ none ∨ x.state = .open ∨ x.state = .fenced ∨ x.state = .closed → exec (.channelDrain c) s = .next s)
    ∧ (y.detach = some ⟨e, []⟩ → y.discarding = false → y.op = none → y.workless → y.barriers = [] → (∀ p ∈ s.lines, p.2.ofUnit u = false) →
        (∀ p ∈ s.held, p.2.names u = false) → s.Completes e r → exec (.detachAwaitedReadsEnd u) s = .next
          { s.completed e r { status := .success } with
            units := SMap.set {} s.units u
              { y with state := .detached, geometry := none, retries := none, believed := none, verifyPending := false, selectedSurface := none,
                       lastHeader := none, detach := none } })
    ∧ (y.discard = some e → y.op = none → y.seq = .idle → y.workless → y.barriers = [] → (∀ p ∈ s.lines, p.2.ofUnit u = false) →
        (∀ p ∈ s.held, p.2.names u = false) → s.Completes e r → exec (.discardThirdStage u) s = .next
          { s.completed e r { status := .success } with units := SMap.set {} s.units u { y with discarding := false, discard := none } })
    ∧ (y.detach = none → exec (.detachAwaitedReadsEnd u) s = .next s) ∧ (y.discard = none → exec (.discardThirdStage u) s = .next s)
    ∧ (y.discard = some e → y.op = none → y.seq = .idle → y.fillQueue = [] → y.surveyQueue = [] → y.barriers = [] →
        (∀ f ∈ y.flushList, (s.line f.line).ofUnit u = true ∧ (s.line f.line).state = .dirty) → (∀ p ∈ s.held, p.2.names u = false) →
        s.Completes e r → r.channel = 0 → s.FreesPlainly u →
        let dirty := (s.lines.filter (fun p => p.2.ofUnit u && (p.2.state == .dirty || p.2.state == .flushing || p.2.state == .reflush
          || p.2.state == .stranded || p.2.state == .loading))).length
        ∃ t, exec (.discardThirdStage u) s = .next t ∧ s.LinesFreed t u ∧ t.dirtyCount = s.dirtyCount - dirty
          ∧ t.channel 0 = (s.completed e r { status := .success }).channel 0
          ∧ t.request e = some (r.ended { status := .success, count := dirty }) ∧ (t.unit u).state = y.state ∧ (t.unit u).epoch = y.epoch
          ∧ (t.unit u).discarding = false ∧ (t.unit u).discard = none ∧ (t.unit u).flushList = [] ∧ t.outbox = s.outbox)

/-! ### Laws of every moment -/

/-- R12, R44, R158, R166, R167, R191: every step keeps the laws: no backlog holds more than its full number of entries, channel 0 is CLOSED or OPEN
and has no fence cause, the failure cause is NONE exactly outside FAILED, the two capped counts keep their ceilings, and the line store keeps its
canonical form. The canonical form of the line store is the model's own. -/
def Obligations.LawsKeptByEveryStep : Prop := ∀ s t : State, s.Lawful → step s = .next t → t.Lawful

/-- R138, R154, R156, R157, R162, R163, R165: every step of a part that is not FAILED keeps each channel's in-flight count at the number of the
entries it holds, with the one set aside for the fetch in flight, which is free; a channel that is CLOSED or FENCED has nothing in flight. So the
channel of a fetch in flight has an in-flight count above 0 and is neither FENCED nor CLOSED. -/
def Obligations.InFlightCountsMatchTheTable : Prop :=
  (∀ s t : State, (s.part ≠ .failed → s.InFlightCounted) → step s = .next t → t.part ≠ .failed → t.InFlightCounted)
  ∧ ∀ (s : State) (f : Fetch), s.InFlightCounted → s.fetch = some f →
      0 < (s.channel f.channel).inFlight ∧ (s.channel f.channel).state ≠ .fenced ∧ (s.channel f.channel).state ≠ .closed

/-- The state after reset keeps the laws of LawsKeptByEveryStep and of InFlightCountsMatchTheTable. -/
def Obligations.LawsHoldAtReset : Prop := State.reset.Lawful ∧ State.reset.InFlightCounted

/-- R50, R71, R154, R174, R195: a FAILED part leaves FAILED only by RESET or power-on reset. Until then its cause stays, no request is taken or
completes, and the line records, the episodes, the references, EVENT_SET and every channel's state, indices, post queue and backlog stay as they
stand. That a record write in flight which ends in FAILED leaves every other field of its channel is the model's reading (log 17). -/
def Obligations.FailedPartStandsStill : Prop :=
  ∀ (i : Instr) (s t : State), s.Settled → s.part = .failed → i ≠ .reset → i ≠ .powerOnReset → exec i s = .next t →
    t.part = .failed ∧ t.failure = s.failure ∧ t.table = s.table ∧ t.lines = s.lines ∧ t.recency = s.recency ∧ t.setWait = s.setWait
    ∧ t.refs = s.refs ∧ t.slotWait = s.slotWait ∧ t.episodes = s.episodes ∧ t.episodeWait = s.episodeWait ∧ t.dirtyCount = s.dirtyCount
    ∧ t.eventSet = s.eventSet ∧ t.params = s.params ∧ t.bootAddress = s.bootAddress
    ∧ ∀ c, { t.channel c with writing := none } = { s.channel c with writing := none }

/-- R12, R64, R123: only the transfer of a WRITE, a data field being read and a reset change a byte of the line store; every other command leaves
every byte as it was. The bytes delivered with INDEX, HEADER, DATA_MARK and DATA_END are the model's form (log 6); what an unwritten byte reads as
is its choice (log 9). -/
def Obligations.StoreChangesOnlyByTransfers : Prop :=
  ∀ (i : Instr) (s t : State), i ≠ .reset → i ≠ .powerOnReset → (∀ e bs, i ≠ .writeTransferComplete e bs) →
    (∀ e bs, i ≠ .writeTransferError e bs) → (∀ u bs, i ≠ .index u bs) → (∀ u m bs, i ≠ .dataMark u m bs) → (∀ u c bs, i ≠ .dataEnd u c bs) →
    (∀ u tr su se si c bs, i ≠ .header u tr su se si c bs) → exec i s = .next t → ∀ a, Memory.read t.store a = Memory.read s.store a
end

