-- ==== Sys2Proof/Laws/Sparse.lean ====
section
/-! SUPPORT. Sparse tables: reading what was written, writing twice, and the canonical form, which every write keeps. -/

namespace Sys2Proof.SMap

variable {α : Type}

@[simp] theorem get_nil (d : α) (k : Nat) : get d [] k = d := rfl

theorem get_erase (d : α) (m : SMap α) (k j : Nat) : get d (erase m k) j = if j = k then d else get d m j := by
  induction m with
  | nil => simp [erase]
  | cons p m ih =>
    obtain ⟨a, v⟩ := p
    by_cases hak : a = k
    · subst hak
      have : erase ((a, v) :: m) a = erase m a := by simp [erase]
      rw [this, ih]; by_cases hj : j = a <;> simp [get, hj]
    · have : erase ((a, v) :: m) k = (a, v) :: erase m k := by simp [erase, hak]
      rw [this]
      by_cases hj : j = a
      · subst hj; simp [get, hak]
      · simp [get, hj, ih]

theorem get_insert (d : α) (m : SMap α) (k j : Nat) (v : α) (hk : ∀ p ∈ m, p.1 ≠ k) :
    get d (insert k v m) j = if j = k then v else get d m j := by
  induction m with
  | nil => simp [insert, get]
  | cons p m ih =>
    obtain ⟨a, w⟩ := p
    have hak : a ≠ k := hk (a, w) (by simp)
    by_cases hlt : k < a
    · simp [insert, hlt, get]
    · have ih' := ih (fun p hp => hk p (by simp [hp]))
      by_cases hj : j = a
      · subst hj; simp [insert, hlt, get, hak]
      · simp [insert, hlt, get, hj, ih']

theorem erase_none (m : SMap α) (k : Nat) : ∀ p ∈ erase m k, p.1 ≠ k := by
  intro p hp; simpa using (List.mem_filter.1 hp).2

/-- What a table holds after a write. -/
@[simp] theorem get_set [DecidableEq α] (d : α) (m : SMap α) (k j : Nat) (v : α) :
    get d (set d m k v) j = if j = k then v else get d m j := by
  unfold set
  split
  · next h => subst h; rw [get_erase]
  · rw [get_insert _ _ _ _ _ (erase_none m k), get_erase]; split <;> rfl

theorem get_set_self [DecidableEq α] (d : α) (m : SMap α) (k : Nat) (v : α) : get d (set d m k v) k = v := by simp

theorem get_set_ne [DecidableEq α] (d : α) (m : SMap α) {k j : Nat} (v : α) (h : j ≠ k) : get d (set d m k v) j = get d m j := by
  simp [h]

theorem erase_insert_self (k : Nat) (v : α) (m : SMap α) : erase (insert k v m) k = erase m k := by
  induction m with
  | nil => simp [insert, erase]
  | cons p m ih =>
    obtain ⟨a, w⟩ := p
    by_cases h : k < a
    · simp [insert, h, erase]
    · simp only [insert, h, if_false]
      by_cases hak : a = k
      · subst hak; simpa [erase] using ih
      · simpa [erase, hak] using ih

theorem erase_erase_self (m : SMap α) (k : Nat) : erase (erase m k) k = erase m k := by simp [erase]

theorem erase_set_self [DecidableEq α] (d : α) (m : SMap α) (k : Nat) (v : α) : erase (set d m k v) k = erase m k := by
  unfold set; split
  · exact erase_erase_self m k
  · rw [erase_insert_self, erase_erase_self]

/-- Of two writes at one place the second counts. -/
@[simp] theorem set_set [DecidableEq α] (d : α) (m : SMap α) (k : Nat) (v w : α) : set d (set d m k v) k w = set d m k w := by
  by_cases h : w = d
  · simp only [set, if_pos h]; exact erase_set_self d m k v
  · show (if w = d then _ else insert k w (erase (set d m k v) k)) = (if w = d then _ else insert k w (erase m k))
    rw [if_neg h, if_neg h, erase_set_self]

/-! ### The canonical form -/

/-- The rising form in terms of members. -/
def above (low : Option Nat) (a : Nat) : Prop := ∀ l, low = some l → l < a

theorem rising_cons (low : Option Nat) (a : Nat) (v : α) (m : SMap α) :
    rising low ((a, v) :: m) = true ↔ above low a ∧ rising (some a) m = true := by
  cases low <;> simp [rising, above]

theorem rising_weaken {low low' : Option Nat} {m : SMap α} (h : rising low m = true) (hl : ∀ a, above low a → above low' a) :
    rising low' m = true := by
  cases m with
  | nil => rfl
  | cons p m => obtain ⟨a, v⟩ := p; rw [rising_cons] at h ⊢; exact ⟨hl a h.1, h.2⟩

theorem rising_erase {low : Option Nat} {m : SMap α} (k : Nat) (h : rising low m = true) : rising low (erase m k) = true := by
  induction m generalizing low with
  | nil => rfl
  | cons p m ih =>
    obtain ⟨a, v⟩ := p
    rw [rising_cons] at h
    by_cases hak : a = k
    · have : erase ((a, v) :: m) k = erase m k := by simp [erase, hak]
      rw [this]
      refine rising_weaken (ih h.2) (fun b hb l hl => ?_)
      have h1 := h.1 l hl; have h2 := hb a rfl; omega
    · have : erase ((a, v) :: m) k = (a, v) :: erase m k := by simp [erase, hak]
      rw [this, rising_cons]; exact ⟨h.1, ih h.2⟩

theorem rising_insert {low : Option Nat} {m : SMap α} (k : Nat) (v : α) (h : rising low m = true) (hk : above low k)
    (hne : ∀ p ∈ m, p.1 ≠ k) : rising low (insert k v m) = true := by
  induction m generalizing low with
  | nil => exact (rising_cons low k v []).2 ⟨hk, rfl⟩
  | cons p m ih =>
    obtain ⟨a, w⟩ := p
    rw [rising_cons] at h
    by_cases hlt : k < a
    · simp only [insert, hlt, if_true, rising_cons]
      exact ⟨hk, fun l hl => by cases hl; exact hlt, h.2⟩
    · have hak : a ≠ k := hne (a, w) (by simp)
      simp only [insert, hlt, if_false, rising_cons]
      exact ⟨h.1, ih h.2 (fun l hl => by cases hl; omega) (fun p hp => hne p (by simp [hp]))⟩

theorem all_insert (q : Nat × α → Bool) (k : Nat) (v : α) (m : SMap α) :
    (insert k v m).all q = (q (k, v) && m.all q) := by
  induction m with
  | nil => simp [insert]
  | cons p m ih =>
    obtain ⟨a, w⟩ := p
    by_cases h : k < a
    · simp [insert, h]
    · simp only [insert, h, if_false, List.all_cons, ih]; exact Bool.and_left_comm _ _ _

theorem all_erase (q : Nat × α → Bool) (k : Nat) (m : SMap α) (h : m.all q = true) : (erase m k).all q = true := by
  rw [List.all_eq_true] at *
  intro p hp; exact h p (List.mem_filter.1 hp).1

/-- A write keeps the canonical form. -/
theorem wf_set [DecidableEq α] (d : α) (m : SMap α) (k : Nat) (v : α) (h : wf d m = true) : wf d (set d m k v) = true := by
  simp only [wf, Bool.and_eq_true] at h ⊢
  unfold set; split
  · exact ⟨rising_erase k h.1, all_erase _ k m h.2⟩
  · next hv =>
    refine ⟨rising_insert k v (rising_erase k h.1) (fun l hl => by cases hl) (erase_none m k), ?_⟩
    rw [all_insert, Bool.and_eq_true]
    exact ⟨by simpa using hv, all_erase _ k m h.2⟩

theorem wf_nil [DecidableEq α] (d : α) : wf d ([] : SMap α) = true := rfl

/-- A member of a table in rising form is what its number reads as. -/
theorem get_of_mem_rising (d : α) {low : Option Nat} {m : SMap α} (h : rising low m = true) {k : Nat} {v : α} (hm : (k, v) ∈ m) :
    get d m k = v := by
  induction m generalizing low with
  | nil => cases hm
  | cons p m ih =>
    obtain ⟨a, w⟩ := p
    rw [rising_cons] at h
    rcases List.mem_cons.1 hm with he | he
    · cases he; simp [get]
    · have hlt : ∀ {lo : Nat} {m : SMap α}, rising (some lo) m = true → (k, v) ∈ m → lo < k := by
        intro lo m
        induction m generalizing lo with
        | nil => intro _ hm; cases hm
        | cons q m ih2 =>
          obtain ⟨b, x⟩ := q
          intro hr hm
          rw [rising_cons] at hr
          have hb := hr.1 lo rfl
          rcases List.mem_cons.1 hm with he | he
          · cases he; exact hb
          · exact Nat.lt_trans hb (ih2 hr.2 he)
      have := hlt h.2 he
      have hne : k ≠ a := by omega
      simp [get, hne, ih h.2 he]

/-- In a canonical table the members are the places that do not read as the default. -/
theorem mem_iff [DecidableEq α] (d : α) {m : SMap α} (h : wf d m = true) (k : Nat) (v : α) :
    (k, v) ∈ m ↔ get d m k = v ∧ v ≠ d := by
  simp only [wf, Bool.and_eq_true, List.all_eq_true] at h
  constructor
  · intro hm; exact ⟨get_of_mem_rising d h.1 hm, by simpa using h.2 _ hm⟩
  · rintro ⟨hg, hv⟩
    clear h
    induction m with
    | nil => exact absurd (by simpa using hg.symm) hv
    | cons p m ih =>
      obtain ⟨a, w⟩ := p
      by_cases hk : k = a
      · subst hk; simp [get] at hg; simp [hg]
      · simp [get, hk] at hg; exact List.mem_cons_of_mem _ (ih hg)

end Sys2Proof.SMap

namespace Sys2Proof.Machine

/-! ### The line store (R12) -/

@[simp] theorem Memory.read_write (m : List Host.Cell) (a b : Nat) (v : Byte) :
    Memory.read (Memory.write m a v) b = if b = a then v else Memory.read m b := SMap.get_set ..

theorem Memory.wf_write (m : List Host.Cell) (a : Nat) (v : Byte) (h : Memory.wf m = true) : Memory.wf (Memory.write m a v) = true :=
  SMap.wf_set _ _ _ _ h

theorem Memory.wf_writeBytes (bs : List Byte) (m : List Host.Cell) (a : Nat) (h : Memory.wf m = true) :
    Memory.wf (Memory.writeBytes m a bs) = true := by
  induction bs generalizing m a with
  | nil => exact h
  | cons b bs ih => exact ih _ _ (Memory.wf_write _ _ _ h)

/-- The store outside the bytes written is as before. -/
theorem Memory.read_writeBytes_out (bs : List Byte) (m : List Host.Cell) (a b : Nat) (h : b < a ∨ a + bs.length ≤ b) :
    Memory.read (Memory.writeBytes m a bs) b = Memory.read m b := by
  induction bs generalizing m a with
  | nil => rfl
  | cons c bs ih =>
    simp only [List.length_cons] at h
    rw [Memory.writeBytes, ih _ _ (by omega), Memory.read_write, if_neg (by omega)]

/-- Each byte written reads back. -/
theorem Memory.read_writeBytes_in (bs : List Byte) (m : List Host.Cell) (a i : Nat) (h : i < bs.length) :
    Memory.read (Memory.writeBytes m a bs) (a + i) = bs[i] := by
  induction bs generalizing m a i with
  | nil => simp at h
  | cons c bs ih =>
    rw [Memory.writeBytes]
    cases i with
    | zero => rw [Memory.read_writeBytes_out _ _ _ _ (by omega)]; simp
    | succ i =>
      have := ih (Memory.write m a c) (a + 1) i (by simpa using h)
      rw [show a + (i + 1) = a + 1 + i by omega, this]; rfl

/-- Reading back what was written. -/
theorem Memory.readBytes_writeBytes (bs : List Byte) (m : List Host.Cell) (a : Nat) :
    Memory.readBytes (Memory.writeBytes m a bs) a bs.length = bs := by
  apply List.ext_getElem
  · simp [Memory.readBytes]
  · intro i h1 h2
    simp [Memory.readBytes, List.getElem_range', Memory.read_writeBytes_in bs m a i h2]

end Sys2Proof.Machine
end

