-- ==== Sys2Proof/Laws/State.lean ====
section
/-! SUPPORT. The updates of the state: one lemma for each field each of them leaves alone, and what each table reads after each of them. -/

namespace Sys2Proof.Machine.State

variable (s : State)

/-! ### Fields left alone -/

@[simp] theorem setChannel_part (c : Nat) (x : Channel) : (s.setChannel c x).part = s.part := rfl
@[simp] theorem setChannel_failure (c : Nat) (x : Channel) : (s.setChannel c x).failure = s.failure := rfl
@[simp] theorem setChannel_lastFailure (c : Nat) (x : Channel) : (s.setChannel c x).lastFailure = s.lastFailure := rfl
@[simp] theorem setChannel_lastRefused (c : Nat) (x : Channel) : (s.setChannel c x).lastRefused = s.lastRefused := rfl
@[simp] theorem setChannel_bootAddress (c : Nat) (x : Channel) : (s.setChannel c x).bootAddress = s.bootAddress := rfl
@[simp] theorem setChannel_params (c : Nat) (x : Channel) : (s.setChannel c x).params = s.params := rfl
@[simp] theorem setChannel_fetch (c : Nat) (x : Channel) : (s.setChannel c x).fetch = s.fetch := rfl
@[simp] theorem setChannel_lastGranted (c : Nat) (x : Channel) : (s.setChannel c x).lastGranted = s.lastGranted := rfl
@[simp] theorem setChannel_eventSet (c : Nat) (x : Channel) : (s.setChannel c x).eventSet = s.eventSet := rfl
@[simp] theorem setChannel_table (c : Nat) (x : Channel) : (s.setChannel c x).table = s.table := rfl
@[simp] theorem setChannel_lines (c : Nat) (x : Channel) : (s.setChannel c x).lines = s.lines := rfl
@[simp] theorem setChannel_recency (c : Nat) (x : Channel) : (s.setChannel c x).recency = s.recency := rfl
@[simp] theorem setChannel_setWait (c : Nat) (x : Channel) : (s.setChannel c x).setWait = s.setWait := rfl
@[simp] theorem setChannel_refs (c : Nat) (x : Channel) : (s.setChannel c x).refs = s.refs := rfl
@[simp] theorem setChannel_store (c : Nat) (x : Channel) : (s.setChannel c x).store = s.store := rfl
@[simp] theorem setChannel_slotWait (c : Nat) (x : Channel) : (s.setChannel c x).slotWait = s.slotWait := rfl
@[simp] theorem setChannel_episodes (c : Nat) (x : Channel) : (s.setChannel c x).episodes = s.episodes := rfl
@[simp] theorem setChannel_episodeWait (c : Nat) (x : Channel) : (s.setChannel c x).episodeWait = s.episodeWait := rfl
@[simp] theorem setChannel_dirtyCount (c : Nat) (x : Channel) : (s.setChannel c x).dirtyCount = s.dirtyCount := rfl
@[simp] theorem setChannel_pressure (c : Nat) (x : Channel) : (s.setChannel c x).pressure = s.pressure := rfl
@[simp] theorem setChannel_units (c : Nat) (x : Channel) : (s.setChannel c x).units = s.units := rfl
@[simp] theorem setChannel_now (c : Nat) (x : Channel) : (s.setChannel c x).now = s.now := rfl
@[simp] theorem setChannel_joins (c : Nat) (x : Channel) : (s.setChannel c x).joins = s.joins := rfl
@[simp] theorem setChannel_protectSamples (c : Nat) (x : Channel) : (s.setChannel c x).protectSamples = s.protectSamples := rfl
@[simp] theorem setChannel_endedInFailed (c : Nat) (x : Channel) : (s.setChannel c x).endedInFailed = s.endedInFailed := rfl
@[simp] theorem setChannel_agenda (c : Nat) (x : Channel) : (s.setChannel c x).agenda = s.agenda := rfl
@[simp] theorem setChannel_outbox (c : Nat) (x : Channel) : (s.setChannel c x).outbox = s.outbox := rfl
@[simp] theorem setChannel_pending (c : Nat) (x : Channel) : (s.setChannel c x).pending = s.pending := rfl

@[simp] theorem setUnit_part (u : Nat) (x : UnitRec) : (s.setUnit u x).part = s.part := rfl
@[simp] theorem setUnit_failure (u : Nat) (x : UnitRec) : (s.setUnit u x).failure = s.failure := rfl
@[simp] theorem setUnit_lastFailure (u : Nat) (x : UnitRec) : (s.setUnit u x).lastFailure = s.lastFailure := rfl
@[simp] theorem setUnit_lastRefused (u : Nat) (x : UnitRec) : (s.setUnit u x).lastRefused = s.lastRefused := rfl
@[simp] theorem setUnit_bootAddress (u : Nat) (x : UnitRec) : (s.setUnit u x).bootAddress = s.bootAddress := rfl
@[simp] theorem setUnit_params (u : Nat) (x : UnitRec) : (s.setUnit u x).params = s.params := rfl
@[simp] theorem setUnit_channels (u : Nat) (x : UnitRec) : (s.setUnit u x).channels = s.channels := rfl
@[simp] theorem setUnit_fetch (u : Nat) (x : UnitRec) : (s.setUnit u x).fetch = s.fetch := rfl
@[simp] theorem setUnit_lastGranted (u : Nat) (x : UnitRec) : (s.setUnit u x).lastGranted = s.lastGranted := rfl
@[simp] theorem setUnit_eventSet (u : Nat) (x : UnitRec) : (s.setUnit u x).eventSet = s.eventSet := rfl
@[simp] theorem setUnit_table (u : Nat) (x : UnitRec) : (s.setUnit u x).table = s.table := rfl
@[simp] theorem setUnit_lines (u : Nat) (x : UnitRec) : (s.setUnit u x).lines = s.lines := rfl
@[simp] theorem setUnit_recency (u : Nat) (x : UnitRec) : (s.setUnit u x).recency = s.recency := rfl
@[simp] theorem setUnit_setWait (u : Nat) (x : UnitRec) : (s.setUnit u x).setWait = s.setWait := rfl
@[simp] theorem setUnit_refs (u : Nat) (x : UnitRec) : (s.setUnit u x).refs = s.refs := rfl
@[simp] theorem setUnit_store (u : Nat) (x : UnitRec) : (s.setUnit u x).store = s.store := rfl
@[simp] theorem setUnit_slotWait (u : Nat) (x : UnitRec) : (s.setUnit u x).slotWait = s.slotWait := rfl
@[simp] theorem setUnit_episodes (u : Nat) (x : UnitRec) : (s.setUnit u x).episodes = s.episodes := rfl
@[simp] theorem setUnit_episodeWait (u : Nat) (x : UnitRec) : (s.setUnit u x).episodeWait = s.episodeWait := rfl
@[simp] theorem setUnit_dirtyCount (u : Nat) (x : UnitRec) : (s.setUnit u x).dirtyCount = s.dirtyCount := rfl
@[simp] theorem setUnit_pressure (u : Nat) (x : UnitRec) : (s.setUnit u x).pressure = s.pressure := rfl
@[simp] theorem setUnit_now (u : Nat) (x : UnitRec) : (s.setUnit u x).now = s.now := rfl
@[simp] theorem setUnit_joins (u : Nat) (x : UnitRec) : (s.setUnit u x).joins = s.joins := rfl
@[simp] theorem setUnit_protectSamples (u : Nat) (x : UnitRec) : (s.setUnit u x).protectSamples = s.protectSamples := rfl
@[simp] theorem setUnit_endedInFailed (u : Nat) (x : UnitRec) : (s.setUnit u x).endedInFailed = s.endedInFailed := rfl
@[simp] theorem setUnit_agenda (u : Nat) (x : UnitRec) : (s.setUnit u x).agenda = s.agenda := rfl
@[simp] theorem setUnit_outbox (u : Nat) (x : UnitRec) : (s.setUnit u x).outbox = s.outbox := rfl
@[simp] theorem setUnit_pending (u : Nat) (x : UnitRec) : (s.setUnit u x).pending = s.pending := rfl

@[simp] theorem setLine_part (k : Nat) (x : Line) : (s.setLine k x).part = s.part := rfl
@[simp] theorem setLine_failure (k : Nat) (x : Line) : (s.setLine k x).failure = s.failure := rfl
@[simp] theorem setLine_lastFailure (k : Nat) (x : Line) : (s.setLine k x).lastFailure = s.lastFailure := rfl
@[simp] theorem setLine_lastRefused (k : Nat) (x : Line) : (s.setLine k x).lastRefused = s.lastRefused := rfl
@[simp] theorem setLine_bootAddress (k : Nat) (x : Line) : (s.setLine k x).bootAddress = s.bootAddress := rfl
@[simp] theorem setLine_params (k : Nat) (x : Line) : (s.setLine k x).params = s.params := rfl
@[simp] theorem setLine_channels (k : Nat) (x : Line) : (s.setLine k x).channels = s.channels := rfl
@[simp] theorem setLine_fetch (k : Nat) (x : Line) : (s.setLine k x).fetch = s.fetch := rfl
@[simp] theorem setLine_lastGranted (k : Nat) (x : Line) : (s.setLine k x).lastGranted = s.lastGranted := rfl
@[simp] theorem setLine_eventSet (k : Nat) (x : Line) : (s.setLine k x).eventSet = s.eventSet := rfl
@[simp] theorem setLine_table (k : Nat) (x : Line) : (s.setLine k x).table = s.table := rfl
@[simp] theorem setLine_recency (k : Nat) (x : Line) : (s.setLine k x).recency = s.recency := rfl
@[simp] theorem setLine_setWait (k : Nat) (x : Line) : (s.setLine k x).setWait = s.setWait := rfl
@[simp] theorem setLine_refs (k : Nat) (x : Line) : (s.setLine k x).refs = s.refs := rfl
@[simp] theorem setLine_store (k : Nat) (x : Line) : (s.setLine k x).store = s.store := rfl
@[simp] theorem setLine_slotWait (k : Nat) (x : Line) : (s.setLine k x).slotWait = s.slotWait := rfl
@[simp] theorem setLine_episodes (k : Nat) (x : Line) : (s.setLine k x).episodes = s.episodes := rfl
@[simp] theorem setLine_episodeWait (k : Nat) (x : Line) : (s.setLine k x).episodeWait = s.episodeWait := rfl
@[simp] theorem setLine_dirtyCount (k : Nat) (x : Line) : (s.setLine k x).dirtyCount = s.dirtyCount := rfl
@[simp] theorem setLine_pressure (k : Nat) (x : Line) : (s.setLine k x).pressure = s.pressure := rfl
@[simp] theorem setLine_units (k : Nat) (x : Line) : (s.setLine k x).units = s.units := rfl
@[simp] theorem setLine_now (k : Nat) (x : Line) : (s.setLine k x).now = s.now := rfl
@[simp] theorem setLine_joins (k : Nat) (x : Line) : (s.setLine k x).joins = s.joins := rfl
@[simp] theorem setLine_protectSamples (k : Nat) (x : Line) : (s.setLine k x).protectSamples = s.protectSamples := rfl
@[simp] theorem setLine_endedInFailed (k : Nat) (x : Line) : (s.setLine k x).endedInFailed = s.endedInFailed := rfl
@[simp] theorem setLine_agenda (k : Nat) (x : Line) : (s.setLine k x).agenda = s.agenda := rfl
@[simp] theorem setLine_outbox (k : Nat) (x : Line) : (s.setLine k x).outbox = s.outbox := rfl
@[simp] theorem setLine_pending (k : Nat) (x : Line) : (s.setLine k x).pending = s.pending := rfl

@[simp] theorem setRequest_part (e : Nat) (x : Option Request) : (s.setRequest e x).part = s.part := rfl
@[simp] theorem setRequest_failure (e : Nat) (x : Option Request) : (s.setRequest e x).failure = s.failure := rfl
@[simp] theorem setRequest_lastFailure (e : Nat) (x : Option Request) : (s.setRequest e x).lastFailure = s.lastFailure := rfl
@[simp] theorem setRequest_lastRefused (e : Nat) (x : Option Request) : (s.setRequest e x).lastRefused = s.lastRefused := rfl
@[simp] theorem setRequest_bootAddress (e : Nat) (x : Option Request) : (s.setRequest e x).bootAddress = s.bootAddress := rfl
@[simp] theorem setRequest_params (e : Nat) (x : Option Request) : (s.setRequest e x).params = s.params := rfl
@[simp] theorem setRequest_channels (e : Nat) (x : Option Request) : (s.setRequest e x).channels = s.channels := rfl
@[simp] theorem setRequest_fetch (e : Nat) (x : Option Request) : (s.setRequest e x).fetch = s.fetch := rfl
@[simp] theorem setRequest_lastGranted (e : Nat) (x : Option Request) : (s.setRequest e x).lastGranted = s.lastGranted := rfl
@[simp] theorem setRequest_eventSet (e : Nat) (x : Option Request) : (s.setRequest e x).eventSet = s.eventSet := rfl
@[simp] theorem setRequest_lines (e : Nat) (x : Option Request) : (s.setRequest e x).lines = s.lines := rfl
@[simp] theorem setRequest_recency (e : Nat) (x : Option Request) : (s.setRequest e x).recency = s.recency := rfl
@[simp] theorem setRequest_setWait (e : Nat) (x : Option Request) : (s.setRequest e x).setWait = s.setWait := rfl
@[simp] theorem setRequest_refs (e : Nat) (x : Option Request) : (s.setRequest e x).refs = s.refs := rfl
@[simp] theorem setRequest_store (e : Nat) (x : Option Request) : (s.setRequest e x).store = s.store := rfl
@[simp] theorem setRequest_slotWait (e : Nat) (x : Option Request) : (s.setRequest e x).slotWait = s.slotWait := rfl
@[simp] theorem setRequest_episodes (e : Nat) (x : Option Request) : (s.setRequest e x).episodes = s.episodes := rfl
@[simp] theorem setRequest_episodeWait (e : Nat) (x : Option Request) : (s.setRequest e x).episodeWait = s.episodeWait := rfl
@[simp] theorem setRequest_dirtyCount (e : Nat) (x : Option Request) : (s.setRequest e x).dirtyCount = s.dirtyCount := rfl
@[simp] theorem setRequest_pressure (e : Nat) (x : Option Request) : (s.setRequest e x).pressure = s.pressure := rfl
@[simp] theorem setRequest_units (e : Nat) (x : Option Request) : (s.setRequest e x).units = s.units := rfl
@[simp] theorem setRequest_now (e : Nat) (x : Option Request) : (s.setRequest e x).now = s.now := rfl
@[simp] theorem setRequest_joins (e : Nat) (x : Option Request) : (s.setRequest e x).joins = s.joins := rfl
@[simp] theorem setRequest_protectSamples (e : Nat) (x : Option Request) : (s.setRequest e x).protectSamples = s.protectSamples := rfl
@[simp] theorem setRequest_endedInFailed (e : Nat) (x : Option Request) : (s.setRequest e x).endedInFailed = s.endedInFailed := rfl
@[simp] theorem setRequest_agenda (e : Nat) (x : Option Request) : (s.setRequest e x).agenda = s.agenda := rfl
@[simp] theorem setRequest_outbox (e : Nat) (x : Option Request) : (s.setRequest e x).outbox = s.outbox := rfl
@[simp] theorem setRequest_pending (e : Nat) (x : Option Request) : (s.setRequest e x).pending = s.pending := rfl

@[simp] theorem setRef_part (slot n : Nat) : (s.setRef slot n).part = s.part := rfl
@[simp] theorem setRef_failure (slot n : Nat) : (s.setRef slot n).failure = s.failure := rfl
@[simp] theorem setRef_lastFailure (slot n : Nat) : (s.setRef slot n).lastFailure = s.lastFailure := rfl
@[simp] theorem setRef_lastRefused (slot n : Nat) : (s.setRef slot n).lastRefused = s.lastRefused := rfl
@[simp] theorem setRef_bootAddress (slot n : Nat) : (s.setRef slot n).bootAddress = s.bootAddress := rfl
@[simp] theorem setRef_params (slot n : Nat) : (s.setRef slot n).params = s.params := rfl
@[simp] theorem setRef_channels (slot n : Nat) : (s.setRef slot n).channels = s.channels := rfl
@[simp] theorem setRef_fetch (slot n : Nat) : (s.setRef slot n).fetch = s.fetch := rfl
@[simp] theorem setRef_lastGranted (slot n : Nat) : (s.setRef slot n).lastGranted = s.lastGranted := rfl
@[simp] theorem setRef_eventSet (slot n : Nat) : (s.setRef slot n).eventSet = s.eventSet := rfl
@[simp] theorem setRef_table (slot n : Nat) : (s.setRef slot n).table = s.table := rfl
@[simp] theorem setRef_lines (slot n : Nat) : (s.setRef slot n).lines = s.lines := rfl
@[simp] theorem setRef_recency (slot n : Nat) : (s.setRef slot n).recency = s.recency := rfl
@[simp] theorem setRef_setWait (slot n : Nat) : (s.setRef slot n).setWait = s.setWait := rfl
@[simp] theorem setRef_store (slot n : Nat) : (s.setRef slot n).store = s.store := rfl
@[simp] theorem setRef_slotWait (slot n : Nat) : (s.setRef slot n).slotWait = s.slotWait := rfl
@[simp] theorem setRef_episodes (slot n : Nat) : (s.setRef slot n).episodes = s.episodes := rfl
@[simp] theorem setRef_episodeWait (slot n : Nat) : (s.setRef slot n).episodeWait = s.episodeWait := rfl
@[simp] theorem setRef_dirtyCount (slot n : Nat) : (s.setRef slot n).dirtyCount = s.dirtyCount := rfl
@[simp] theorem setRef_pressure (slot n : Nat) : (s.setRef slot n).pressure = s.pressure := rfl
@[simp] theorem setRef_units (slot n : Nat) : (s.setRef slot n).units = s.units := rfl
@[simp] theorem setRef_now (slot n : Nat) : (s.setRef slot n).now = s.now := rfl
@[simp] theorem setRef_joins (slot n : Nat) : (s.setRef slot n).joins = s.joins := rfl
@[simp] theorem setRef_protectSamples (slot n : Nat) : (s.setRef slot n).protectSamples = s.protectSamples := rfl
@[simp] theorem setRef_endedInFailed (slot n : Nat) : (s.setRef slot n).endedInFailed = s.endedInFailed := rfl
@[simp] theorem setRef_agenda (slot n : Nat) : (s.setRef slot n).agenda = s.agenda := rfl
@[simp] theorem setRef_outbox (slot n : Nat) : (s.setRef slot n).outbox = s.outbox := rfl
@[simp] theorem setRef_pending (slot n : Nat) : (s.setRef slot n).pending = s.pending := rfl

@[simp] theorem setEpisode_part (n : Nat) (x : Option Episode) : (s.setEpisode n x).part = s.part := rfl
@[simp] theorem setEpisode_failure (n : Nat) (x : Option Episode) : (s.setEpisode n x).failure = s.failure := rfl
@[simp] theorem setEpisode_lastFailure (n : Nat) (x : Option Episode) : (s.setEpisode n x).lastFailure = s.lastFailure := rfl
@[simp] theorem setEpisode_lastRefused (n : Nat) (x : Option Episode) : (s.setEpisode n x).lastRefused = s.lastRefused := rfl
@[simp] theorem setEpisode_bootAddress (n : Nat) (x : Option Episode) : (s.setEpisode n x).bootAddress = s.bootAddress := rfl
@[simp] theorem setEpisode_params (n : Nat) (x : Option Episode) : (s.setEpisode n x).params = s.params := rfl
@[simp] theorem setEpisode_channels (n : Nat) (x : Option Episode) : (s.setEpisode n x).channels = s.channels := rfl
@[simp] theorem setEpisode_fetch (n : Nat) (x : Option Episode) : (s.setEpisode n x).fetch = s.fetch := rfl
@[simp] theorem setEpisode_lastGranted (n : Nat) (x : Option Episode) : (s.setEpisode n x).lastGranted = s.lastGranted := rfl
@[simp] theorem setEpisode_eventSet (n : Nat) (x : Option Episode) : (s.setEpisode n x).eventSet = s.eventSet := rfl
@[simp] theorem setEpisode_table (n : Nat) (x : Option Episode) : (s.setEpisode n x).table = s.table := rfl
@[simp] theorem setEpisode_lines (n : Nat) (x : Option Episode) : (s.setEpisode n x).lines = s.lines := rfl
@[simp] theorem setEpisode_recency (n : Nat) (x : Option Episode) : (s.setEpisode n x).recency = s.recency := rfl
@[simp] theorem setEpisode_setWait (n : Nat) (x : Option Episode) : (s.setEpisode n x).setWait = s.setWait := rfl
@[simp] theorem setEpisode_refs (n : Nat) (x : Option Episode) : (s.setEpisode n x).refs = s.refs := rfl
@[simp] theorem setEpisode_store (n : Nat) (x : Option Episode) : (s.setEpisode n x).store = s.store := rfl
@[simp] theorem setEpisode_slotWait (n : Nat) (x : Option Episode) : (s.setEpisode n x).slotWait = s.slotWait := rfl
@[simp] theorem setEpisode_episodeWait (n : Nat) (x : Option Episode) : (s.setEpisode n x).episodeWait = s.episodeWait := rfl
@[simp] theorem setEpisode_dirtyCount (n : Nat) (x : Option Episode) : (s.setEpisode n x).dirtyCount = s.dirtyCount := rfl
@[simp] theorem setEpisode_pressure (n : Nat) (x : Option Episode) : (s.setEpisode n x).pressure = s.pressure := rfl
@[simp] theorem setEpisode_units (n : Nat) (x : Option Episode) : (s.setEpisode n x).units = s.units := rfl
@[simp] theorem setEpisode_now (n : Nat) (x : Option Episode) : (s.setEpisode n x).now = s.now := rfl
@[simp] theorem setEpisode_joins (n : Nat) (x : Option Episode) : (s.setEpisode n x).joins = s.joins := rfl
@[simp] theorem setEpisode_protectSamples (n : Nat) (x : Option Episode) : (s.setEpisode n x).protectSamples = s.protectSamples := rfl
@[simp] theorem setEpisode_endedInFailed (n : Nat) (x : Option Episode) : (s.setEpisode n x).endedInFailed = s.endedInFailed := rfl
@[simp] theorem setEpisode_agenda (n : Nat) (x : Option Episode) : (s.setEpisode n x).agenda = s.agenda := rfl
@[simp] theorem setEpisode_outbox (n : Nat) (x : Option Episode) : (s.setEpisode n x).outbox = s.outbox := rfl
@[simp] theorem setEpisode_pending (n : Nat) (x : Option Episode) : (s.setEpisode n x).pending = s.pending := rfl

@[simp] theorem setWaiters_part (t : Nat) (l : List Nat) : (s.setWaiters t l).part = s.part := rfl
@[simp] theorem setWaiters_failure (t : Nat) (l : List Nat) : (s.setWaiters t l).failure = s.failure := rfl
@[simp] theorem setWaiters_lastFailure (t : Nat) (l : List Nat) : (s.setWaiters t l).lastFailure = s.lastFailure := rfl
@[simp] theorem setWaiters_lastRefused (t : Nat) (l : List Nat) : (s.setWaiters t l).lastRefused = s.lastRefused := rfl
@[simp] theorem setWaiters_bootAddress (t : Nat) (l : List Nat) : (s.setWaiters t l).bootAddress = s.bootAddress := rfl
@[simp] theorem setWaiters_params (t : Nat) (l : List Nat) : (s.setWaiters t l).params = s.params := rfl
@[simp] theorem setWaiters_channels (t : Nat) (l : List Nat) : (s.setWaiters t l).channels = s.channels := rfl
@[simp] theorem setWaiters_fetch (t : Nat) (l : List Nat) : (s.setWaiters t l).fetch = s.fetch := rfl
@[simp] theorem setWaiters_lastGranted (t : Nat) (l : List Nat) : (s.setWaiters t l).lastGranted = s.lastGranted := rfl
@[simp] theorem setWaiters_eventSet (t : Nat) (l : List Nat) : (s.setWaiters t l).eventSet = s.eventSet := rfl
@[simp] theorem setWaiters_table (t : Nat) (l : List Nat) : (s.setWaiters t l).table = s.table := rfl
@[simp] theorem setWaiters_lines (t : Nat) (l : List Nat) : (s.setWaiters t l).lines = s.lines := rfl
@[simp] theorem setWaiters_recency (t : Nat) (l : List Nat) : (s.setWaiters t l).recency = s.recency := rfl
@[simp] theorem setWaiters_refs (t : Nat) (l : List Nat) : (s.setWaiters t l).refs = s.refs := rfl
@[simp] theorem setWaiters_store (t : Nat) (l : List Nat) : (s.setWaiters t l).store = s.store := rfl
@[simp] theorem setWaiters_slotWait (t : Nat) (l : List Nat) : (s.setWaiters t l).slotWait = s.slotWait := rfl
@[simp] theorem setWaiters_episodes (t : Nat) (l : List Nat) : (s.setWaiters t l).episodes = s.episodes := rfl
@[simp] theorem setWaiters_episodeWait (t : Nat) (l : List Nat) : (s.setWaiters t l).episodeWait = s.episodeWait := rfl
@[simp] theorem setWaiters_dirtyCount (t : Nat) (l : List Nat) : (s.setWaiters t l).dirtyCount = s.dirtyCount := rfl
@[simp] theorem setWaiters_pressure (t : Nat) (l : List Nat) : (s.setWaiters t l).pressure = s.pressure := rfl
@[simp] theorem setWaiters_units (t : Nat) (l : List Nat) : (s.setWaiters t l).units = s.units := rfl
@[simp] theorem setWaiters_now (t : Nat) (l : List Nat) : (s.setWaiters t l).now = s.now := rfl
@[simp] theorem setWaiters_joins (t : Nat) (l : List Nat) : (s.setWaiters t l).joins = s.joins := rfl
@[simp] theorem setWaiters_protectSamples (t : Nat) (l : List Nat) : (s.setWaiters t l).protectSamples = s.protectSamples := rfl
@[simp] theorem setWaiters_endedInFailed (t : Nat) (l : List Nat) : (s.setWaiters t l).endedInFailed = s.endedInFailed := rfl
@[simp] theorem setWaiters_agenda (t : Nat) (l : List Nat) : (s.setWaiters t l).agenda = s.agenda := rfl
@[simp] theorem setWaiters_outbox (t : Nat) (l : List Nat) : (s.setWaiters t l).outbox = s.outbox := rfl
@[simp] theorem setWaiters_pending (t : Nat) (l : List Nat) : (s.setWaiters t l).pending = s.pending := rfl

@[simp] theorem setOrder_part (t : Nat) (l : List Nat) : (s.setOrder t l).part = s.part := rfl
@[simp] theorem setOrder_failure (t : Nat) (l : List Nat) : (s.setOrder t l).failure = s.failure := rfl
@[simp] theorem setOrder_lastFailure (t : Nat) (l : List Nat) : (s.setOrder t l).lastFailure = s.lastFailure := rfl
@[simp] theorem setOrder_lastRefused (t : Nat) (l : List Nat) : (s.setOrder t l).lastRefused = s.lastRefused := rfl
@[simp] theorem setOrder_bootAddress (t : Nat) (l : List Nat) : (s.setOrder t l).bootAddress = s.bootAddress := rfl
@[simp] theorem setOrder_params (t : Nat) (l : List Nat) : (s.setOrder t l).params = s.params := rfl
@[simp] theorem setOrder_channels (t : Nat) (l : List Nat) : (s.setOrder t l).channels = s.channels := rfl
@[simp] theorem setOrder_fetch (t : Nat) (l : List Nat) : (s.setOrder t l).fetch = s.fetch := rfl
@[simp] theorem setOrder_lastGranted (t : Nat) (l : List Nat) : (s.setOrder t l).lastGranted = s.lastGranted := rfl
@[simp] theorem setOrder_eventSet (t : Nat) (l : List Nat) : (s.setOrder t l).eventSet = s.eventSet := rfl
@[simp] theorem setOrder_table (t : Nat) (l : List Nat) : (s.setOrder t l).table = s.table := rfl
@[simp] theorem setOrder_lines (t : Nat) (l : List Nat) : (s.setOrder t l).lines = s.lines := rfl
@[simp] theorem setOrder_setWait (t : Nat) (l : List Nat) : (s.setOrder t l).setWait = s.setWait := rfl
@[simp] theorem setOrder_refs (t : Nat) (l : List Nat) : (s.setOrder t l).refs = s.refs := rfl
@[simp] theorem setOrder_store (t : Nat) (l : List Nat) : (s.setOrder t l).store = s.store := rfl
@[simp] theorem setOrder_slotWait (t : Nat) (l : List Nat) : (s.setOrder t l).slotWait = s.slotWait := rfl
@[simp] theorem setOrder_episodes (t : Nat) (l : List Nat) : (s.setOrder t l).episodes = s.episodes := rfl
@[simp] theorem setOrder_episodeWait (t : Nat) (l : List Nat) : (s.setOrder t l).episodeWait = s.episodeWait := rfl
@[simp] theorem setOrder_dirtyCount (t : Nat) (l : List Nat) : (s.setOrder t l).dirtyCount = s.dirtyCount := rfl
@[simp] theorem setOrder_pressure (t : Nat) (l : List Nat) : (s.setOrder t l).pressure = s.pressure := rfl
@[simp] theorem setOrder_units (t : Nat) (l : List Nat) : (s.setOrder t l).units = s.units := rfl
@[simp] theorem setOrder_now (t : Nat) (l : List Nat) : (s.setOrder t l).now = s.now := rfl
@[simp] theorem setOrder_joins (t : Nat) (l : List Nat) : (s.setOrder t l).joins = s.joins := rfl
@[simp] theorem setOrder_protectSamples (t : Nat) (l : List Nat) : (s.setOrder t l).protectSamples = s.protectSamples := rfl
@[simp] theorem setOrder_endedInFailed (t : Nat) (l : List Nat) : (s.setOrder t l).endedInFailed = s.endedInFailed := rfl
@[simp] theorem setOrder_agenda (t : Nat) (l : List Nat) : (s.setOrder t l).agenda = s.agenda := rfl
@[simp] theorem setOrder_outbox (t : Nat) (l : List Nat) : (s.setOrder t l).outbox = s.outbox := rfl
@[simp] theorem setOrder_pending (t : Nat) (l : List Nat) : (s.setOrder t l).pending = s.pending := rfl

@[simp] theorem updChannel_part (c : Nat) (f : Channel → Channel) : (s.updChannel c f).part = s.part := rfl
@[simp] theorem updChannel_failure (c : Nat) (f : Channel → Channel) : (s.updChannel c f).failure = s.failure := rfl
@[simp] theorem updChannel_lastFailure (c : Nat) (f : Channel → Channel) : (s.updChannel c f).lastFailure = s.lastFailure := rfl
@[simp] theorem updChannel_lastRefused (c : Nat) (f : Channel → Channel) : (s.updChannel c f).lastRefused = s.lastRefused := rfl
@[simp] theorem updChannel_bootAddress (c : Nat) (f : Channel → Channel) : (s.updChannel c f).bootAddress = s.bootAddress := rfl
@[simp] theorem updChannel_params (c : Nat) (f : Channel → Channel) : (s.updChannel c f).params = s.params := rfl
@[simp] theorem updChannel_fetch (c : Nat) (f : Channel → Channel) : (s.updChannel c f).fetch = s.fetch := rfl
@[simp] theorem updChannel_lastGranted (c : Nat) (f : Channel → Channel) : (s.updChannel c f).lastGranted = s.lastGranted := rfl
@[simp] theorem updChannel_eventSet (c : Nat) (f : Channel → Channel) : (s.updChannel c f).eventSet = s.eventSet := rfl
@[simp] theorem updChannel_table (c : Nat) (f : Channel → Channel) : (s.updChannel c f).table = s.table := rfl
@[simp] theorem updChannel_lines (c : Nat) (f : Channel → Channel) : (s.updChannel c f).lines = s.lines := rfl
@[simp] theorem updChannel_recency (c : Nat) (f : Channel → Channel) : (s.updChannel c f).recency = s.recency := rfl
@[simp] theorem updChannel_setWait (c : Nat) (f : Channel → Channel) : (s.updChannel c f).setWait = s.setWait := rfl
@[simp] theorem updChannel_refs (c : Nat) (f : Channel → Channel) : (s.updChannel c f).refs = s.refs := rfl
@[simp] theorem updChannel_store (c : Nat) (f : Channel → Channel) : (s.updChannel c f).store = s.store := rfl
@[simp] theorem updChannel_slotWait (c : Nat) (f : Channel → Channel) : (s.updChannel c f).slotWait = s.slotWait := rfl
@[simp] theorem updChannel_episodes (c : Nat) (f : Channel → Channel) : (s.updChannel c f).episodes = s.episodes := rfl
@[simp] theorem updChannel_episodeWait (c : Nat) (f : Channel → Channel) : (s.updChannel c f).episodeWait = s.episodeWait := rfl
@[simp] theorem updChannel_dirtyCount (c : Nat) (f : Channel → Channel) : (s.updChannel c f).dirtyCount = s.dirtyCount := rfl
@[simp] theorem updChannel_pressure (c : Nat) (f : Channel → Channel) : (s.updChannel c f).pressure = s.pressure := rfl
@[simp] theorem updChannel_units (c : Nat) (f : Channel → Channel) : (s.updChannel c f).units = s.units := rfl
@[simp] theorem updChannel_now (c : Nat) (f : Channel → Channel) : (s.updChannel c f).now = s.now := rfl
@[simp] theorem updChannel_joins (c : Nat) (f : Channel → Channel) : (s.updChannel c f).joins = s.joins := rfl
@[simp] theorem updChannel_protectSamples (c : Nat) (f : Channel → Channel) : (s.updChannel c f).protectSamples = s.protectSamples := rfl
@[simp] theorem updChannel_endedInFailed (c : Nat) (f : Channel → Channel) : (s.updChannel c f).endedInFailed = s.endedInFailed := rfl
@[simp] theorem updChannel_agenda (c : Nat) (f : Channel → Channel) : (s.updChannel c f).agenda = s.agenda := rfl
@[simp] theorem updChannel_outbox (c : Nat) (f : Channel → Channel) : (s.updChannel c f).outbox = s.outbox := rfl
@[simp] theorem updChannel_pending (c : Nat) (f : Channel → Channel) : (s.updChannel c f).pending = s.pending := rfl

@[simp] theorem updUnit_part (u : Nat) (f : UnitRec → UnitRec) : (s.updUnit u f).part = s.part := rfl
@[simp] theorem updUnit_failure (u : Nat) (f : UnitRec → UnitRec) : (s.updUnit u f).failure = s.failure := rfl
@[simp] theorem updUnit_lastFailure (u : Nat) (f : UnitRec → UnitRec) : (s.updUnit u f).lastFailure = s.lastFailure := rfl
@[simp] theorem updUnit_lastRefused (u : Nat) (f : UnitRec → UnitRec) : (s.updUnit u f).lastRefused = s.lastRefused := rfl
@[simp] theorem updUnit_bootAddress (u : Nat) (f : UnitRec → UnitRec) : (s.updUnit u f).bootAddress = s.bootAddress := rfl
@[simp] theorem updUnit_params (u : Nat) (f : UnitRec → UnitRec) : (s.updUnit u f).params = s.params := rfl
@[simp] theorem updUnit_channels (u : Nat) (f : UnitRec → UnitRec) : (s.updUnit u f).channels = s.channels := rfl
@[simp] theorem updUnit_fetch (u : Nat) (f : UnitRec → UnitRec) : (s.updUnit u f).fetch = s.fetch := rfl
@[simp] theorem updUnit_lastGranted (u : Nat) (f : UnitRec → UnitRec) : (s.updUnit u f).lastGranted = s.lastGranted := rfl
@[simp] theorem updUnit_eventSet (u : Nat) (f : UnitRec → UnitRec) : (s.updUnit u f).eventSet = s.eventSet := rfl
@[simp] theorem updUnit_table (u : Nat) (f : UnitRec → UnitRec) : (s.updUnit u f).table = s.table := rfl
@[simp] theorem updUnit_lines (u : Nat) (f : UnitRec → UnitRec) : (s.updUnit u f).lines = s.lines := rfl
@[simp] theorem updUnit_recency (u : Nat) (f : UnitRec → UnitRec) : (s.updUnit u f).recency = s.recency := rfl
@[simp] theorem updUnit_setWait (u : Nat) (f : UnitRec → UnitRec) : (s.updUnit u f).setWait = s.setWait := rfl
@[simp] theorem updUnit_refs (u : Nat) (f : UnitRec → UnitRec) : (s.updUnit u f).refs = s.refs := rfl
@[simp] theorem updUnit_store (u : Nat) (f : UnitRec → UnitRec) : (s.updUnit u f).store = s.store := rfl
@[simp] theorem updUnit_slotWait (u : Nat) (f : UnitRec → UnitRec) : (s.updUnit u f).slotWait = s.slotWait := rfl
@[simp] theorem updUnit_episodes (u : Nat) (f : UnitRec → UnitRec) : (s.updUnit u f).episodes = s.episodes := rfl
@[simp] theorem updUnit_episodeWait (u : Nat) (f : UnitRec → UnitRec) : (s.updUnit u f).episodeWait = s.episodeWait := rfl
@[simp] theorem updUnit_dirtyCount (u : Nat) (f : UnitRec → UnitRec) : (s.updUnit u f).dirtyCount = s.dirtyCount := rfl
@[simp] theorem updUnit_pressure (u : Nat) (f : UnitRec → UnitRec) : (s.updUnit u f).pressure = s.pressure := rfl
@[simp] theorem updUnit_now (u : Nat) (f : UnitRec → UnitRec) : (s.updUnit u f).now = s.now := rfl
@[simp] theorem updUnit_joins (u : Nat) (f : UnitRec → UnitRec) : (s.updUnit u f).joins = s.joins := rfl
@[simp] theorem updUnit_protectSamples (u : Nat) (f : UnitRec → UnitRec) : (s.updUnit u f).protectSamples = s.protectSamples := rfl
@[simp] theorem updUnit_endedInFailed (u : Nat) (f : UnitRec → UnitRec) : (s.updUnit u f).endedInFailed = s.endedInFailed := rfl
@[simp] theorem updUnit_agenda (u : Nat) (f : UnitRec → UnitRec) : (s.updUnit u f).agenda = s.agenda := rfl
@[simp] theorem updUnit_outbox (u : Nat) (f : UnitRec → UnitRec) : (s.updUnit u f).outbox = s.outbox := rfl
@[simp] theorem updUnit_pending (u : Nat) (f : UnitRec → UnitRec) : (s.updUnit u f).pending = s.pending := rfl

@[simp] theorem updLine_part (k : Nat) (f : Line → Line) : (s.updLine k f).part = s.part := rfl
@[simp] theorem updLine_failure (k : Nat) (f : Line → Line) : (s.updLine k f).failure = s.failure := rfl
@[simp] theorem updLine_lastFailure (k : Nat) (f : Line → Line) : (s.updLine k f).lastFailure = s.lastFailure := rfl
@[simp] theorem updLine_lastRefused (k : Nat) (f : Line → Line) : (s.updLine k f).lastRefused = s.lastRefused := rfl
@[simp] theorem updLine_bootAddress (k : Nat) (f : Line → Line) : (s.updLine k f).bootAddress = s.bootAddress := rfl
@[simp] theorem updLine_params (k : Nat) (f : Line → Line) : (s.updLine k f).params = s.params := rfl
@[simp] theorem updLine_channels (k : Nat) (f : Line → Line) : (s.updLine k f).channels = s.channels := rfl
@[simp] theorem updLine_fetch (k : Nat) (f : Line → Line) : (s.updLine k f).fetch = s.fetch := rfl
@[simp] theorem updLine_lastGranted (k : Nat) (f : Line → Line) : (s.updLine k f).lastGranted = s.lastGranted := rfl
@[simp] theorem updLine_eventSet (k : Nat) (f : Line → Line) : (s.updLine k f).eventSet = s.eventSet := rfl
@[simp] theorem updLine_table (k : Nat) (f : Line → Line) : (s.updLine k f).table = s.table := rfl
@[simp] theorem updLine_recency (k : Nat) (f : Line → Line) : (s.updLine k f).recency = s.recency := rfl
@[simp] theorem updLine_setWait (k : Nat) (f : Line → Line) : (s.updLine k f).setWait = s.setWait := rfl
@[simp] theorem updLine_refs (k : Nat) (f : Line → Line) : (s.updLine k f).refs = s.refs := rfl
@[simp] theorem updLine_store (k : Nat) (f : Line → Line) : (s.updLine k f).store = s.store := rfl
@[simp] theorem updLine_slotWait (k : Nat) (f : Line → Line) : (s.updLine k f).slotWait = s.slotWait := rfl
@[simp] theorem updLine_episodes (k : Nat) (f : Line → Line) : (s.updLine k f).episodes = s.episodes := rfl
@[simp] theorem updLine_episodeWait (k : Nat) (f : Line → Line) : (s.updLine k f).episodeWait = s.episodeWait := rfl
@[simp] theorem updLine_dirtyCount (k : Nat) (f : Line → Line) : (s.updLine k f).dirtyCount = s.dirtyCount := rfl
@[simp] theorem updLine_pressure (k : Nat) (f : Line → Line) : (s.updLine k f).pressure = s.pressure := rfl
@[simp] theorem updLine_units (k : Nat) (f : Line → Line) : (s.updLine k f).units = s.units := rfl
@[simp] theorem updLine_now (k : Nat) (f : Line → Line) : (s.updLine k f).now = s.now := rfl
@[simp] theorem updLine_joins (k : Nat) (f : Line → Line) : (s.updLine k f).joins = s.joins := rfl
@[simp] theorem updLine_protectSamples (k : Nat) (f : Line → Line) : (s.updLine k f).protectSamples = s.protectSamples := rfl
@[simp] theorem updLine_endedInFailed (k : Nat) (f : Line → Line) : (s.updLine k f).endedInFailed = s.endedInFailed := rfl
@[simp] theorem updLine_agenda (k : Nat) (f : Line → Line) : (s.updLine k f).agenda = s.agenda := rfl
@[simp] theorem updLine_outbox (k : Nat) (f : Line → Line) : (s.updLine k f).outbox = s.outbox := rfl
@[simp] theorem updLine_pending (k : Nat) (f : Line → Line) : (s.updLine k f).pending = s.pending := rfl

@[simp] theorem updRequest_part (e : Nat) (f : Request → Request) : (s.updRequest e f).part = s.part := rfl
@[simp] theorem updRequest_failure (e : Nat) (f : Request → Request) : (s.updRequest e f).failure = s.failure := rfl
@[simp] theorem updRequest_lastFailure (e : Nat) (f : Request → Request) : (s.updRequest e f).lastFailure = s.lastFailure := rfl
@[simp] theorem updRequest_lastRefused (e : Nat) (f : Request → Request) : (s.updRequest e f).lastRefused = s.lastRefused := rfl
@[simp] theorem updRequest_bootAddress (e : Nat) (f : Request → Request) : (s.updRequest e f).bootAddress = s.bootAddress := rfl
@[simp] theorem updRequest_params (e : Nat) (f : Request → Request) : (s.updRequest e f).params = s.params := rfl
@[simp] theorem updRequest_channels (e : Nat) (f : Request → Request) : (s.updRequest e f).channels = s.channels := rfl
@[simp] theorem updRequest_fetch (e : Nat) (f : Request → Request) : (s.updRequest e f).fetch = s.fetch := rfl
@[simp] theorem updRequest_lastGranted (e : Nat) (f : Request → Request) : (s.updRequest e f).lastGranted = s.lastGranted := rfl
@[simp] theorem updRequest_eventSet (e : Nat) (f : Request → Request) : (s.updRequest e f).eventSet = s.eventSet := rfl
@[simp] theorem updRequest_lines (e : Nat) (f : Request → Request) : (s.updRequest e f).lines = s.lines := rfl
@[simp] theorem updRequest_recency (e : Nat) (f : Request → Request) : (s.updRequest e f).recency = s.recency := rfl
@[simp] theorem updRequest_setWait (e : Nat) (f : Request → Request) : (s.updRequest e f).setWait = s.setWait := rfl
@[simp] theorem updRequest_refs (e : Nat) (f : Request → Request) : (s.updRequest e f).refs = s.refs := rfl
@[simp] theorem updRequest_store (e : Nat) (f : Request → Request) : (s.updRequest e f).store = s.store := rfl
@[simp] theorem updRequest_slotWait (e : Nat) (f : Request → Request) : (s.updRequest e f).slotWait = s.slotWait := rfl
@[simp] theorem updRequest_episodes (e : Nat) (f : Request → Request) : (s.updRequest e f).episodes = s.episodes := rfl
@[simp] theorem updRequest_episodeWait (e : Nat) (f : Request → Request) : (s.updRequest e f).episodeWait = s.episodeWait := rfl
@[simp] theorem updRequest_dirtyCount (e : Nat) (f : Request → Request) : (s.updRequest e f).dirtyCount = s.dirtyCount := rfl
@[simp] theorem updRequest_pressure (e : Nat) (f : Request → Request) : (s.updRequest e f).pressure = s.pressure := rfl
@[simp] theorem updRequest_units (e : Nat) (f : Request → Request) : (s.updRequest e f).units = s.units := rfl
@[simp] theorem updRequest_now (e : Nat) (f : Request → Request) : (s.updRequest e f).now = s.now := rfl
@[simp] theorem updRequest_joins (e : Nat) (f : Request → Request) : (s.updRequest e f).joins = s.joins := rfl
@[simp] theorem updRequest_protectSamples (e : Nat) (f : Request → Request) : (s.updRequest e f).protectSamples = s.protectSamples := rfl
@[simp] theorem updRequest_endedInFailed (e : Nat) (f : Request → Request) : (s.updRequest e f).endedInFailed = s.endedInFailed := rfl
@[simp] theorem updRequest_agenda (e : Nat) (f : Request → Request) : (s.updRequest e f).agenda = s.agenda := rfl
@[simp] theorem updRequest_outbox (e : Nat) (f : Request → Request) : (s.updRequest e f).outbox = s.outbox := rfl
@[simp] theorem updRequest_pending (e : Nat) (f : Request → Request) : (s.updRequest e f).pending = s.pending := rfl

@[simp] theorem emit_part (o : Output) : (s.emit o).part = s.part := rfl
@[simp] theorem emit_failure (o : Output) : (s.emit o).failure = s.failure := rfl
@[simp] theorem emit_lastFailure (o : Output) : (s.emit o).lastFailure = s.lastFailure := rfl
@[simp] theorem emit_lastRefused (o : Output) : (s.emit o).lastRefused = s.lastRefused := rfl
@[simp] theorem emit_bootAddress (o : Output) : (s.emit o).bootAddress = s.bootAddress := rfl
@[simp] theorem emit_params (o : Output) : (s.emit o).params = s.params := rfl
@[simp] theorem emit_channels (o : Output) : (s.emit o).channels = s.channels := rfl
@[simp] theorem emit_fetch (o : Output) : (s.emit o).fetch = s.fetch := rfl
@[simp] theorem emit_lastGranted (o : Output) : (s.emit o).lastGranted = s.lastGranted := rfl
@[simp] theorem emit_eventSet (o : Output) : (s.emit o).eventSet = s.eventSet := rfl
@[simp] theorem emit_table (o : Output) : (s.emit o).table = s.table := rfl
@[simp] theorem emit_lines (o : Output) : (s.emit o).lines = s.lines := rfl
@[simp] theorem emit_recency (o : Output) : (s.emit o).recency = s.recency := rfl
@[simp] theorem emit_setWait (o : Output) : (s.emit o).setWait = s.setWait := rfl
@[simp] theorem emit_refs (o : Output) : (s.emit o).refs = s.refs := rfl
@[simp] theorem emit_store (o : Output) : (s.emit o).store = s.store := rfl
@[simp] theorem emit_slotWait (o : Output) : (s.emit o).slotWait = s.slotWait := rfl
@[simp] theorem emit_episodes (o : Output) : (s.emit o).episodes = s.episodes := rfl
@[simp] theorem emit_episodeWait (o : Output) : (s.emit o).episodeWait = s.episodeWait := rfl
@[simp] theorem emit_dirtyCount (o : Output) : (s.emit o).dirtyCount = s.dirtyCount := rfl
@[simp] theorem emit_pressure (o : Output) : (s.emit o).pressure = s.pressure := rfl
@[simp] theorem emit_units (o : Output) : (s.emit o).units = s.units := rfl
@[simp] theorem emit_now (o : Output) : (s.emit o).now = s.now := rfl
@[simp] theorem emit_joins (o : Output) : (s.emit o).joins = s.joins := rfl
@[simp] theorem emit_protectSamples (o : Output) : (s.emit o).protectSamples = s.protectSamples := rfl
@[simp] theorem emit_endedInFailed (o : Output) : (s.emit o).endedInFailed = s.endedInFailed := rfl
@[simp] theorem emit_agenda (o : Output) : (s.emit o).agenda = s.agenda := rfl
@[simp] theorem emit_pending (o : Output) : (s.emit o).pending = s.pending := rfl

@[simp] theorem soon_part (w : List Work) : (s.soon w).part = s.part := rfl
@[simp] theorem soon_failure (w : List Work) : (s.soon w).failure = s.failure := rfl
@[simp] theorem soon_lastFailure (w : List Work) : (s.soon w).lastFailure = s.lastFailure := rfl
@[simp] theorem soon_lastRefused (w : List Work) : (s.soon w).lastRefused = s.lastRefused := rfl
@[simp] theorem soon_bootAddress (w : List Work) : (s.soon w).bootAddress = s.bootAddress := rfl
@[simp] theorem soon_params (w : List Work) : (s.soon w).params = s.params := rfl
@[simp] theorem soon_channels (w : List Work) : (s.soon w).channels = s.channels := rfl
@[simp] theorem soon_fetch (w : List Work) : (s.soon w).fetch = s.fetch := rfl
@[simp] theorem soon_lastGranted (w : List Work) : (s.soon w).lastGranted = s.lastGranted := rfl
@[simp] theorem soon_eventSet (w : List Work) : (s.soon w).eventSet = s.eventSet := rfl
@[simp] theorem soon_table (w : List Work) : (s.soon w).table = s.table := rfl
@[simp] theorem soon_lines (w : List Work) : (s.soon w).lines = s.lines := rfl
@[simp] theorem soon_recency (w : List Work) : (s.soon w).recency = s.recency := rfl
@[simp] theorem soon_setWait (w : List Work) : (s.soon w).setWait = s.setWait := rfl
@[simp] theorem soon_refs (w : List Work) : (s.soon w).refs = s.refs := rfl
@[simp] theorem soon_store (w : List Work) : (s.soon w).store = s.store := rfl
@[simp] theorem soon_slotWait (w : List Work) : (s.soon w).slotWait = s.slotWait := rfl
@[simp] theorem soon_episodes (w : List Work) : (s.soon w).episodes = s.episodes := rfl
@[simp] theorem soon_episodeWait (w : List Work) : (s.soon w).episodeWait = s.episodeWait := rfl
@[simp] theorem soon_dirtyCount (w : List Work) : (s.soon w).dirtyCount = s.dirtyCount := rfl
@[simp] theorem soon_pressure (w : List Work) : (s.soon w).pressure = s.pressure := rfl
@[simp] theorem soon_units (w : List Work) : (s.soon w).units = s.units := rfl
@[simp] theorem soon_now (w : List Work) : (s.soon w).now = s.now := rfl
@[simp] theorem soon_joins (w : List Work) : (s.soon w).joins = s.joins := rfl
@[simp] theorem soon_protectSamples (w : List Work) : (s.soon w).protectSamples = s.protectSamples := rfl
@[simp] theorem soon_endedInFailed (w : List Work) : (s.soon w).endedInFailed = s.endedInFailed := rfl
@[simp] theorem soon_outbox (w : List Work) : (s.soon w).outbox = s.outbox := rfl
@[simp] theorem soon_pending (w : List Work) : (s.soon w).pending = s.pending := rfl

@[simp] theorem later_part (w : List Work) : (s.later w).part = s.part := rfl
@[simp] theorem later_failure (w : List Work) : (s.later w).failure = s.failure := rfl
@[simp] theorem later_lastFailure (w : List Work) : (s.later w).lastFailure = s.lastFailure := rfl
@[simp] theorem later_lastRefused (w : List Work) : (s.later w).lastRefused = s.lastRefused := rfl
@[simp] theorem later_bootAddress (w : List Work) : (s.later w).bootAddress = s.bootAddress := rfl
@[simp] theorem later_params (w : List Work) : (s.later w).params = s.params := rfl
@[simp] theorem later_channels (w : List Work) : (s.later w).channels = s.channels := rfl
@[simp] theorem later_fetch (w : List Work) : (s.later w).fetch = s.fetch := rfl
@[simp] theorem later_lastGranted (w : List Work) : (s.later w).lastGranted = s.lastGranted := rfl
@[simp] theorem later_eventSet (w : List Work) : (s.later w).eventSet = s.eventSet := rfl
@[simp] theorem later_table (w : List Work) : (s.later w).table = s.table := rfl
@[simp] theorem later_lines (w : List Work) : (s.later w).lines = s.lines := rfl
@[simp] theorem later_recency (w : List Work) : (s.later w).recency = s.recency := rfl
@[simp] theorem later_setWait (w : List Work) : (s.later w).setWait = s.setWait := rfl
@[simp] theorem later_refs (w : List Work) : (s.later w).refs = s.refs := rfl
@[simp] theorem later_store (w : List Work) : (s.later w).store = s.store := rfl
@[simp] theorem later_slotWait (w : List Work) : (s.later w).slotWait = s.slotWait := rfl
@[simp] theorem later_episodes (w : List Work) : (s.later w).episodes = s.episodes := rfl
@[simp] theorem later_episodeWait (w : List Work) : (s.later w).episodeWait = s.episodeWait := rfl
@[simp] theorem later_dirtyCount (w : List Work) : (s.later w).dirtyCount = s.dirtyCount := rfl
@[simp] theorem later_pressure (w : List Work) : (s.later w).pressure = s.pressure := rfl
@[simp] theorem later_units (w : List Work) : (s.later w).units = s.units := rfl
@[simp] theorem later_now (w : List Work) : (s.later w).now = s.now := rfl
@[simp] theorem later_joins (w : List Work) : (s.later w).joins = s.joins := rfl
@[simp] theorem later_protectSamples (w : List Work) : (s.later w).protectSamples = s.protectSamples := rfl
@[simp] theorem later_endedInFailed (w : List Work) : (s.later w).endedInFailed = s.endedInFailed := rfl
@[simp] theorem later_outbox (w : List Work) : (s.later w).outbox = s.outbox := rfl
@[simp] theorem later_pending (w : List Work) : (s.later w).pending = s.pending := rfl

@[simp] theorem touch_part (k : Nat) : (s.touch k).part = s.part := rfl
@[simp] theorem touch_failure (k : Nat) : (s.touch k).failure = s.failure := rfl
@[simp] theorem touch_lastFailure (k : Nat) : (s.touch k).lastFailure = s.lastFailure := rfl
@[simp] theorem touch_lastRefused (k : Nat) : (s.touch k).lastRefused = s.lastRefused := rfl
@[simp] theorem touch_bootAddress (k : Nat) : (s.touch k).bootAddress = s.bootAddress := rfl
@[simp] theorem touch_params (k : Nat) : (s.touch k).params = s.params := rfl
@[simp] theorem touch_channels (k : Nat) : (s.touch k).channels = s.channels := rfl
@[simp] theorem touch_fetch (k : Nat) : (s.touch k).fetch = s.fetch := rfl
@[simp] theorem touch_lastGranted (k : Nat) : (s.touch k).lastGranted = s.lastGranted := rfl
@[simp] theorem touch_eventSet (k : Nat) : (s.touch k).eventSet = s.eventSet := rfl
@[simp] theorem touch_table (k : Nat) : (s.touch k).table = s.table := rfl
@[simp] theorem touch_lines (k : Nat) : (s.touch k).lines = s.lines := rfl
@[simp] theorem touch_setWait (k : Nat) : (s.touch k).setWait = s.setWait := rfl
@[simp] theorem touch_refs (k : Nat) : (s.touch k).refs = s.refs := rfl
@[simp] theorem touch_store (k : Nat) : (s.touch k).store = s.store := rfl
@[simp] theorem touch_slotWait (k : Nat) : (s.touch k).slotWait = s.slotWait := rfl
@[simp] theorem touch_episodes (k : Nat) : (s.touch k).episodes = s.episodes := rfl
@[simp] theorem touch_episodeWait (k : Nat) : (s.touch k).episodeWait = s.episodeWait := rfl
@[simp] theorem touch_dirtyCount (k : Nat) : (s.touch k).dirtyCount = s.dirtyCount := rfl
@[simp] theorem touch_pressure (k : Nat) : (s.touch k).pressure = s.pressure := rfl
@[simp] theorem touch_units (k : Nat) : (s.touch k).units = s.units := rfl
@[simp] theorem touch_now (k : Nat) : (s.touch k).now = s.now := rfl
@[simp] theorem touch_joins (k : Nat) : (s.touch k).joins = s.joins := rfl
@[simp] theorem touch_protectSamples (k : Nat) : (s.touch k).protectSamples = s.protectSamples := rfl
@[simp] theorem touch_endedInFailed (k : Nat) : (s.touch k).endedInFailed = s.endedInFailed := rfl
@[simp] theorem touch_agenda (k : Nat) : (s.touch k).agenda = s.agenda := rfl
@[simp] theorem touch_outbox (k : Nat) : (s.touch k).outbox = s.outbox := rfl
@[simp] theorem touch_pending (k : Nat) : (s.touch k).pending = s.pending := rfl

@[simp] theorem takeRef_part (slot : Nat) : (s.takeRef slot).part = s.part := rfl
@[simp] theorem takeRef_failure (slot : Nat) : (s.takeRef slot).failure = s.failure := rfl
@[simp] theorem takeRef_lastFailure (slot : Nat) : (s.takeRef slot).lastFailure = s.lastFailure := rfl
@[simp] theorem takeRef_lastRefused (slot : Nat) : (s.takeRef slot).lastRefused = s.lastRefused := rfl
@[simp] theorem takeRef_bootAddress (slot : Nat) : (s.takeRef slot).bootAddress = s.bootAddress := rfl
@[simp] theorem takeRef_params (slot : Nat) : (s.takeRef slot).params = s.params := rfl
@[simp] theorem takeRef_channels (slot : Nat) : (s.takeRef slot).channels = s.channels := rfl
@[simp] theorem takeRef_fetch (slot : Nat) : (s.takeRef slot).fetch = s.fetch := rfl
@[simp] theorem takeRef_lastGranted (slot : Nat) : (s.takeRef slot).lastGranted = s.lastGranted := rfl
@[simp] theorem takeRef_eventSet (slot : Nat) : (s.takeRef slot).eventSet = s.eventSet := rfl
@[simp] theorem takeRef_table (slot : Nat) : (s.takeRef slot).table = s.table := rfl
@[simp] theorem takeRef_lines (slot : Nat) : (s.takeRef slot).lines = s.lines := rfl
@[simp] theorem takeRef_recency (slot : Nat) : (s.takeRef slot).recency = s.recency := rfl
@[simp] theorem takeRef_setWait (slot : Nat) : (s.takeRef slot).setWait = s.setWait := rfl
@[simp] theorem takeRef_store (slot : Nat) : (s.takeRef slot).store = s.store := rfl
@[simp] theorem takeRef_slotWait (slot : Nat) : (s.takeRef slot).slotWait = s.slotWait := rfl
@[simp] theorem takeRef_episodes (slot : Nat) : (s.takeRef slot).episodes = s.episodes := rfl
@[simp] theorem takeRef_episodeWait (slot : Nat) : (s.takeRef slot).episodeWait = s.episodeWait := rfl
@[simp] theorem takeRef_dirtyCount (slot : Nat) : (s.takeRef slot).dirtyCount = s.dirtyCount := rfl
@[simp] theorem takeRef_pressure (slot : Nat) : (s.takeRef slot).pressure = s.pressure := rfl
@[simp] theorem takeRef_units (slot : Nat) : (s.takeRef slot).units = s.units := rfl
@[simp] theorem takeRef_now (slot : Nat) : (s.takeRef slot).now = s.now := rfl
@[simp] theorem takeRef_joins (slot : Nat) : (s.takeRef slot).joins = s.joins := rfl
@[simp] theorem takeRef_protectSamples (slot : Nat) : (s.takeRef slot).protectSamples = s.protectSamples := rfl
@[simp] theorem takeRef_endedInFailed (slot : Nat) : (s.takeRef slot).endedInFailed = s.endedInFailed := rfl
@[simp] theorem takeRef_agenda (slot : Nat) : (s.takeRef slot).agenda = s.agenda := rfl
@[simp] theorem takeRef_outbox (slot : Nat) : (s.takeRef slot).outbox = s.outbox := rfl
@[simp] theorem takeRef_pending (slot : Nat) : (s.takeRef slot).pending = s.pending := rfl

@[simp] theorem setPart_failure (x : PartState) : (s.setPart x).failure = s.failure := rfl
@[simp] theorem setPart_lastFailure (x : PartState) : (s.setPart x).lastFailure = s.lastFailure := rfl
@[simp] theorem setPart_lastRefused (x : PartState) : (s.setPart x).lastRefused = s.lastRefused := rfl
@[simp] theorem setPart_bootAddress (x : PartState) : (s.setPart x).bootAddress = s.bootAddress := rfl
@[simp] theorem setPart_params (x : PartState) : (s.setPart x).params = s.params := rfl
@[simp] theorem setPart_channels (x : PartState) : (s.setPart x).channels = s.channels := rfl
@[simp] theorem setPart_fetch (x : PartState) : (s.setPart x).fetch = s.fetch := rfl
@[simp] theorem setPart_lastGranted (x : PartState) : (s.setPart x).lastGranted = s.lastGranted := rfl
@[simp] theorem setPart_eventSet (x : PartState) : (s.setPart x).eventSet = s.eventSet := rfl
@[simp] theorem setPart_table (x : PartState) : (s.setPart x).table = s.table := rfl
@[simp] theorem setPart_lines (x : PartState) : (s.setPart x).lines = s.lines := rfl
@[simp] theorem setPart_recency (x : PartState) : (s.setPart x).recency = s.recency := rfl
@[simp] theorem setPart_setWait (x : PartState) : (s.setPart x).setWait = s.setWait := rfl
@[simp] theorem setPart_refs (x : PartState) : (s.setPart x).refs = s.refs := rfl
@[simp] theorem setPart_store (x : PartState) : (s.setPart x).store = s.store := rfl
@[simp] theorem setPart_slotWait (x : PartState) : (s.setPart x).slotWait = s.slotWait := rfl
@[simp] theorem setPart_episodes (x : PartState) : (s.setPart x).episodes = s.episodes := rfl
@[simp] theorem setPart_episodeWait (x : PartState) : (s.setPart x).episodeWait = s.episodeWait := rfl
@[simp] theorem setPart_dirtyCount (x : PartState) : (s.setPart x).dirtyCount = s.dirtyCount := rfl
@[simp] theorem setPart_pressure (x : PartState) : (s.setPart x).pressure = s.pressure := rfl
@[simp] theorem setPart_units (x : PartState) : (s.setPart x).units = s.units := rfl
@[simp] theorem setPart_now (x : PartState) : (s.setPart x).now = s.now := rfl
@[simp] theorem setPart_joins (x : PartState) : (s.setPart x).joins = s.joins := rfl
@[simp] theorem setPart_protectSamples (x : PartState) : (s.setPart x).protectSamples = s.protectSamples := rfl
@[simp] theorem setPart_endedInFailed (x : PartState) : (s.setPart x).endedInFailed = s.endedInFailed := rfl
@[simp] theorem setPart_agenda (x : PartState) : (s.setPart x).agenda = s.agenda := rfl
@[simp] theorem setPart_outbox (x : PartState) : (s.setPart x).outbox = s.outbox := rfl
@[simp] theorem setPart_pending (x : PartState) : (s.setPart x).pending = s.pending := rfl

@[simp] theorem setFetch_part (x : Option Fetch) : (s.setFetch x).part = s.part := rfl
@[simp] theorem setFetch_failure (x : Option Fetch) : (s.setFetch x).failure = s.failure := rfl
@[simp] theorem setFetch_lastFailure (x : Option Fetch) : (s.setFetch x).lastFailure = s.lastFailure := rfl
@[simp] theorem setFetch_lastRefused (x : Option Fetch) : (s.setFetch x).lastRefused = s.lastRefused := rfl
@[simp] theorem setFetch_bootAddress (x : Option Fetch) : (s.setFetch x).bootAddress = s.bootAddress := rfl
@[simp] theorem setFetch_params (x : Option Fetch) : (s.setFetch x).params = s.params := rfl
@[simp] theorem setFetch_channels (x : Option Fetch) : (s.setFetch x).channels = s.channels := rfl
@[simp] theorem setFetch_lastGranted (x : Option Fetch) : (s.setFetch x).lastGranted = s.lastGranted := rfl
@[simp] theorem setFetch_eventSet (x : Option Fetch) : (s.setFetch x).eventSet = s.eventSet := rfl
@[simp] theorem setFetch_table (x : Option Fetch) : (s.setFetch x).table = s.table := rfl
@[simp] theorem setFetch_lines (x : Option Fetch) : (s.setFetch x).lines = s.lines := rfl
@[simp] theorem setFetch_recency (x : Option Fetch) : (s.setFetch x).recency = s.recency := rfl
@[simp] theorem setFetch_setWait (x : Option Fetch) : (s.setFetch x).setWait = s.setWait := rfl
@[simp] theorem setFetch_refs (x : Option Fetch) : (s.setFetch x).refs = s.refs := rfl
@[simp] theorem setFetch_store (x : Option Fetch) : (s.setFetch x).store = s.store := rfl
@[simp] theorem setFetch_slotWait (x : Option Fetch) : (s.setFetch x).slotWait = s.slotWait := rfl
@[simp] theorem setFetch_episodes (x : Option Fetch) : (s.setFetch x).episodes = s.episodes := rfl
@[simp] theorem setFetch_episodeWait (x : Option Fetch) : (s.setFetch x).episodeWait = s.episodeWait := rfl
@[simp] theorem setFetch_dirtyCount (x : Option Fetch) : (s.setFetch x).dirtyCount = s.dirtyCount := rfl
@[simp] theorem setFetch_pressure (x : Option Fetch) : (s.setFetch x).pressure = s.pressure := rfl
@[simp] theorem setFetch_units (x : Option Fetch) : (s.setFetch x).units = s.units := rfl
@[simp] theorem setFetch_now (x : Option Fetch) : (s.setFetch x).now = s.now := rfl
@[simp] theorem setFetch_joins (x : Option Fetch) : (s.setFetch x).joins = s.joins := rfl
@[simp] theorem setFetch_protectSamples (x : Option Fetch) : (s.setFetch x).protectSamples = s.protectSamples := rfl
@[simp] theorem setFetch_endedInFailed (x : Option Fetch) : (s.setFetch x).endedInFailed = s.endedInFailed := rfl
@[simp] theorem setFetch_agenda (x : Option Fetch) : (s.setFetch x).agenda = s.agenda := rfl
@[simp] theorem setFetch_outbox (x : Option Fetch) : (s.setFetch x).outbox = s.outbox := rfl
@[simp] theorem setFetch_pending (x : Option Fetch) : (s.setFetch x).pending = s.pending := rfl

@[simp] theorem setParams_part (x : Option Params) : (s.setParams x).part = s.part := rfl
@[simp] theorem setParams_failure (x : Option Params) : (s.setParams x).failure = s.failure := rfl
@[simp] theorem setParams_lastFailure (x : Option Params) : (s.setParams x).lastFailure = s.lastFailure := rfl
@[simp] theorem setParams_lastRefused (x : Option Params) : (s.setParams x).lastRefused = s.lastRefused := rfl
@[simp] theorem setParams_bootAddress (x : Option Params) : (s.setParams x).bootAddress = s.bootAddress := rfl
@[simp] theorem setParams_channels (x : Option Params) : (s.setParams x).channels = s.channels := rfl
@[simp] theorem setParams_fetch (x : Option Params) : (s.setParams x).fetch = s.fetch := rfl
@[simp] theorem setParams_lastGranted (x : Option Params) : (s.setParams x).lastGranted = s.lastGranted := rfl
@[simp] theorem setParams_eventSet (x : Option Params) : (s.setParams x).eventSet = s.eventSet := rfl
@[simp] theorem setParams_table (x : Option Params) : (s.setParams x).table = s.table := rfl
@[simp] theorem setParams_lines (x : Option Params) : (s.setParams x).lines = s.lines := rfl
@[simp] theorem setParams_recency (x : Option Params) : (s.setParams x).recency = s.recency := rfl
@[simp] theorem setParams_setWait (x : Option Params) : (s.setParams x).setWait = s.setWait := rfl
@[simp] theorem setParams_refs (x : Option Params) : (s.setParams x).refs = s.refs := rfl
@[simp] theorem setParams_store (x : Option Params) : (s.setParams x).store = s.store := rfl
@[simp] theorem setParams_slotWait (x : Option Params) : (s.setParams x).slotWait = s.slotWait := rfl
@[simp] theorem setParams_episodes (x : Option Params) : (s.setParams x).episodes = s.episodes := rfl
@[simp] theorem setParams_episodeWait (x : Option Params) : (s.setParams x).episodeWait = s.episodeWait := rfl
@[simp] theorem setParams_dirtyCount (x : Option Params) : (s.setParams x).dirtyCount = s.dirtyCount := rfl
@[simp] theorem setParams_pressure (x : Option Params) : (s.setParams x).pressure = s.pressure := rfl
@[simp] theorem setParams_units (x : Option Params) : (s.setParams x).units = s.units := rfl
@[simp] theorem setParams_now (x : Option Params) : (s.setParams x).now = s.now := rfl
@[simp] theorem setParams_joins (x : Option Params) : (s.setParams x).joins = s.joins := rfl
@[simp] theorem setParams_protectSamples (x : Option Params) : (s.setParams x).protectSamples = s.protectSamples := rfl
@[simp] theorem setParams_endedInFailed (x : Option Params) : (s.setParams x).endedInFailed = s.endedInFailed := rfl
@[simp] theorem setParams_agenda (x : Option Params) : (s.setParams x).agenda = s.agenda := rfl
@[simp] theorem setParams_outbox (x : Option Params) : (s.setParams x).outbox = s.outbox := rfl
@[simp] theorem setParams_pending (x : Option Params) : (s.setParams x).pending = s.pending := rfl

@[simp] theorem setEventSet_part (x : List Nat) : (s.setEventSet x).part = s.part := rfl
@[simp] theorem setEventSet_failure (x : List Nat) : (s.setEventSet x).failure = s.failure := rfl
@[simp] theorem setEventSet_lastFailure (x : List Nat) : (s.setEventSet x).lastFailure = s.lastFailure := rfl
@[simp] theorem setEventSet_lastRefused (x : List Nat) : (s.setEventSet x).lastRefused = s.lastRefused := rfl
@[simp] theorem setEventSet_bootAddress (x : List Nat) : (s.setEventSet x).bootAddress = s.bootAddress := rfl
@[simp] theorem setEventSet_params (x : List Nat) : (s.setEventSet x).params = s.params := rfl
@[simp] theorem setEventSet_channels (x : List Nat) : (s.setEventSet x).channels = s.channels := rfl
@[simp] theorem setEventSet_fetch (x : List Nat) : (s.setEventSet x).fetch = s.fetch := rfl
@[simp] theorem setEventSet_lastGranted (x : List Nat) : (s.setEventSet x).lastGranted = s.lastGranted := rfl
@[simp] theorem setEventSet_table (x : List Nat) : (s.setEventSet x).table = s.table := rfl
@[simp] theorem setEventSet_lines (x : List Nat) : (s.setEventSet x).lines = s.lines := rfl
@[simp] theorem setEventSet_recency (x : List Nat) : (s.setEventSet x).recency = s.recency := rfl
@[simp] theorem setEventSet_setWait (x : List Nat) : (s.setEventSet x).setWait = s.setWait := rfl
@[simp] theorem setEventSet_refs (x : List Nat) : (s.setEventSet x).refs = s.refs := rfl
@[simp] theorem setEventSet_store (x : List Nat) : (s.setEventSet x).store = s.store := rfl
@[simp] theorem setEventSet_slotWait (x : List Nat) : (s.setEventSet x).slotWait = s.slotWait := rfl
@[simp] theorem setEventSet_episodes (x : List Nat) : (s.setEventSet x).episodes = s.episodes := rfl
@[simp] theorem setEventSet_episodeWait (x : List Nat) : (s.setEventSet x).episodeWait = s.episodeWait := rfl
@[simp] theorem setEventSet_dirtyCount (x : List Nat) : (s.setEventSet x).dirtyCount = s.dirtyCount := rfl
@[simp] theorem setEventSet_pressure (x : List Nat) : (s.setEventSet x).pressure = s.pressure := rfl
@[simp] theorem setEventSet_units (x : List Nat) : (s.setEventSet x).units = s.units := rfl
@[simp] theorem setEventSet_now (x : List Nat) : (s.setEventSet x).now = s.now := rfl
@[simp] theorem setEventSet_joins (x : List Nat) : (s.setEventSet x).joins = s.joins := rfl
@[simp] theorem setEventSet_protectSamples (x : List Nat) : (s.setEventSet x).protectSamples = s.protectSamples := rfl
@[simp] theorem setEventSet_endedInFailed (x : List Nat) : (s.setEventSet x).endedInFailed = s.endedInFailed := rfl
@[simp] theorem setEventSet_agenda (x : List Nat) : (s.setEventSet x).agenda = s.agenda := rfl
@[simp] theorem setEventSet_outbox (x : List Nat) : (s.setEventSet x).outbox = s.outbox := rfl
@[simp] theorem setEventSet_pending (x : List Nat) : (s.setEventSet x).pending = s.pending := rfl

@[simp] theorem setLines_part (x : SMap Line) : (s.setLines x).part = s.part := rfl
@[simp] theorem setLines_failure (x : SMap Line) : (s.setLines x).failure = s.failure := rfl
@[simp] theorem setLines_lastFailure (x : SMap Line) : (s.setLines x).lastFailure = s.lastFailure := rfl
@[simp] theorem setLines_lastRefused (x : SMap Line) : (s.setLines x).lastRefused = s.lastRefused := rfl
@[simp] theorem setLines_bootAddress (x : SMap Line) : (s.setLines x).bootAddress = s.bootAddress := rfl
@[simp] theorem setLines_params (x : SMap Line) : (s.setLines x).params = s.params := rfl
@[simp] theorem setLines_channels (x : SMap Line) : (s.setLines x).channels = s.channels := rfl
@[simp] theorem setLines_fetch (x : SMap Line) : (s.setLines x).fetch = s.fetch := rfl
@[simp] theorem setLines_lastGranted (x : SMap Line) : (s.setLines x).lastGranted = s.lastGranted := rfl
@[simp] theorem setLines_eventSet (x : SMap Line) : (s.setLines x).eventSet = s.eventSet := rfl
@[simp] theorem setLines_table (x : SMap Line) : (s.setLines x).table = s.table := rfl
@[simp] theorem setLines_recency (x : SMap Line) : (s.setLines x).recency = s.recency := rfl
@[simp] theorem setLines_setWait (x : SMap Line) : (s.setLines x).setWait = s.setWait := rfl
@[simp] theorem setLines_refs (x : SMap Line) : (s.setLines x).refs = s.refs := rfl
@[simp] theorem setLines_store (x : SMap Line) : (s.setLines x).store = s.store := rfl
@[simp] theorem setLines_slotWait (x : SMap Line) : (s.setLines x).slotWait = s.slotWait := rfl
@[simp] theorem setLines_episodes (x : SMap Line) : (s.setLines x).episodes = s.episodes := rfl
@[simp] theorem setLines_episodeWait (x : SMap Line) : (s.setLines x).episodeWait = s.episodeWait := rfl
@[simp] theorem setLines_dirtyCount (x : SMap Line) : (s.setLines x).dirtyCount = s.dirtyCount := rfl
@[simp] theorem setLines_pressure (x : SMap Line) : (s.setLines x).pressure = s.pressure := rfl
@[simp] theorem setLines_units (x : SMap Line) : (s.setLines x).units = s.units := rfl
@[simp] theorem setLines_now (x : SMap Line) : (s.setLines x).now = s.now := rfl
@[simp] theorem setLines_joins (x : SMap Line) : (s.setLines x).joins = s.joins := rfl
@[simp] theorem setLines_protectSamples (x : SMap Line) : (s.setLines x).protectSamples = s.protectSamples := rfl
@[simp] theorem setLines_endedInFailed (x : SMap Line) : (s.setLines x).endedInFailed = s.endedInFailed := rfl
@[simp] theorem setLines_agenda (x : SMap Line) : (s.setLines x).agenda = s.agenda := rfl
@[simp] theorem setLines_outbox (x : SMap Line) : (s.setLines x).outbox = s.outbox := rfl
@[simp] theorem setLines_pending (x : SMap Line) : (s.setLines x).pending = s.pending := rfl

@[simp] theorem setStore_part (x : List Host.Cell) : (s.setStore x).part = s.part := rfl
@[simp] theorem setStore_failure (x : List Host.Cell) : (s.setStore x).failure = s.failure := rfl
@[simp] theorem setStore_lastFailure (x : List Host.Cell) : (s.setStore x).lastFailure = s.lastFailure := rfl
@[simp] theorem setStore_lastRefused (x : List Host.Cell) : (s.setStore x).lastRefused = s.lastRefused := rfl
@[simp] theorem setStore_bootAddress (x : List Host.Cell) : (s.setStore x).bootAddress = s.bootAddress := rfl
@[simp] theorem setStore_params (x : List Host.Cell) : (s.setStore x).params = s.params := rfl
@[simp] theorem setStore_channels (x : List Host.Cell) : (s.setStore x).channels = s.channels := rfl
@[simp] theorem setStore_fetch (x : List Host.Cell) : (s.setStore x).fetch = s.fetch := rfl
@[simp] theorem setStore_lastGranted (x : List Host.Cell) : (s.setStore x).lastGranted = s.lastGranted := rfl
@[simp] theorem setStore_eventSet (x : List Host.Cell) : (s.setStore x).eventSet = s.eventSet := rfl
@[simp] theorem setStore_table (x : List Host.Cell) : (s.setStore x).table = s.table := rfl
@[simp] theorem setStore_lines (x : List Host.Cell) : (s.setStore x).lines = s.lines := rfl
@[simp] theorem setStore_recency (x : List Host.Cell) : (s.setStore x).recency = s.recency := rfl
@[simp] theorem setStore_setWait (x : List Host.Cell) : (s.setStore x).setWait = s.setWait := rfl
@[simp] theorem setStore_refs (x : List Host.Cell) : (s.setStore x).refs = s.refs := rfl
@[simp] theorem setStore_slotWait (x : List Host.Cell) : (s.setStore x).slotWait = s.slotWait := rfl
@[simp] theorem setStore_episodes (x : List Host.Cell) : (s.setStore x).episodes = s.episodes := rfl
@[simp] theorem setStore_episodeWait (x : List Host.Cell) : (s.setStore x).episodeWait = s.episodeWait := rfl
@[simp] theorem setStore_dirtyCount (x : List Host.Cell) : (s.setStore x).dirtyCount = s.dirtyCount := rfl
@[simp] theorem setStore_pressure (x : List Host.Cell) : (s.setStore x).pressure = s.pressure := rfl
@[simp] theorem setStore_units (x : List Host.Cell) : (s.setStore x).units = s.units := rfl
@[simp] theorem setStore_now (x : List Host.Cell) : (s.setStore x).now = s.now := rfl
@[simp] theorem setStore_joins (x : List Host.Cell) : (s.setStore x).joins = s.joins := rfl
@[simp] theorem setStore_protectSamples (x : List Host.Cell) : (s.setStore x).protectSamples = s.protectSamples := rfl
@[simp] theorem setStore_endedInFailed (x : List Host.Cell) : (s.setStore x).endedInFailed = s.endedInFailed := rfl
@[simp] theorem setStore_agenda (x : List Host.Cell) : (s.setStore x).agenda = s.agenda := rfl
@[simp] theorem setStore_outbox (x : List Host.Cell) : (s.setStore x).outbox = s.outbox := rfl
@[simp] theorem setStore_pending (x : List Host.Cell) : (s.setStore x).pending = s.pending := rfl

@[simp] theorem setSlotWait_part (x : List Nat) : (s.setSlotWait x).part = s.part := rfl
@[simp] theorem setSlotWait_failure (x : List Nat) : (s.setSlotWait x).failure = s.failure := rfl
@[simp] theorem setSlotWait_lastFailure (x : List Nat) : (s.setSlotWait x).lastFailure = s.lastFailure := rfl
@[simp] theorem setSlotWait_lastRefused (x : List Nat) : (s.setSlotWait x).lastRefused = s.lastRefused := rfl
@[simp] theorem setSlotWait_bootAddress (x : List Nat) : (s.setSlotWait x).bootAddress = s.bootAddress := rfl
@[simp] theorem setSlotWait_params (x : List Nat) : (s.setSlotWait x).params = s.params := rfl
@[simp] theorem setSlotWait_channels (x : List Nat) : (s.setSlotWait x).channels = s.channels := rfl
@[simp] theorem setSlotWait_fetch (x : List Nat) : (s.setSlotWait x).fetch = s.fetch := rfl
@[simp] theorem setSlotWait_lastGranted (x : List Nat) : (s.setSlotWait x).lastGranted = s.lastGranted := rfl
@[simp] theorem setSlotWait_eventSet (x : List Nat) : (s.setSlotWait x).eventSet = s.eventSet := rfl
@[simp] theorem setSlotWait_table (x : List Nat) : (s.setSlotWait x).table = s.table := rfl
@[simp] theorem setSlotWait_lines (x : List Nat) : (s.setSlotWait x).lines = s.lines := rfl
@[simp] theorem setSlotWait_recency (x : List Nat) : (s.setSlotWait x).recency = s.recency := rfl
@[simp] theorem setSlotWait_setWait (x : List Nat) : (s.setSlotWait x).setWait = s.setWait := rfl
@[simp] theorem setSlotWait_refs (x : List Nat) : (s.setSlotWait x).refs = s.refs := rfl
@[simp] theorem setSlotWait_store (x : List Nat) : (s.setSlotWait x).store = s.store := rfl
@[simp] theorem setSlotWait_episodes (x : List Nat) : (s.setSlotWait x).episodes = s.episodes := rfl
@[simp] theorem setSlotWait_episodeWait (x : List Nat) : (s.setSlotWait x).episodeWait = s.episodeWait := rfl
@[simp] theorem setSlotWait_dirtyCount (x : List Nat) : (s.setSlotWait x).dirtyCount = s.dirtyCount := rfl
@[simp] theorem setSlotWait_pressure (x : List Nat) : (s.setSlotWait x).pressure = s.pressure := rfl
@[simp] theorem setSlotWait_units (x : List Nat) : (s.setSlotWait x).units = s.units := rfl
@[simp] theorem setSlotWait_now (x : List Nat) : (s.setSlotWait x).now = s.now := rfl
@[simp] theorem setSlotWait_joins (x : List Nat) : (s.setSlotWait x).joins = s.joins := rfl
@[simp] theorem setSlotWait_protectSamples (x : List Nat) : (s.setSlotWait x).protectSamples = s.protectSamples := rfl
@[simp] theorem setSlotWait_endedInFailed (x : List Nat) : (s.setSlotWait x).endedInFailed = s.endedInFailed := rfl
@[simp] theorem setSlotWait_agenda (x : List Nat) : (s.setSlotWait x).agenda = s.agenda := rfl
@[simp] theorem setSlotWait_outbox (x : List Nat) : (s.setSlotWait x).outbox = s.outbox := rfl
@[simp] theorem setSlotWait_pending (x : List Nat) : (s.setSlotWait x).pending = s.pending := rfl

@[simp] theorem setEpisodeWait_part (x : List Nat) : (s.setEpisodeWait x).part = s.part := rfl
@[simp] theorem setEpisodeWait_failure (x : List Nat) : (s.setEpisodeWait x).failure = s.failure := rfl
@[simp] theorem setEpisodeWait_lastFailure (x : List Nat) : (s.setEpisodeWait x).lastFailure = s.lastFailure := rfl
@[simp] theorem setEpisodeWait_lastRefused (x : List Nat) : (s.setEpisodeWait x).lastRefused = s.lastRefused := rfl
@[simp] theorem setEpisodeWait_bootAddress (x : List Nat) : (s.setEpisodeWait x).bootAddress = s.bootAddress := rfl
@[simp] theorem setEpisodeWait_params (x : List Nat) : (s.setEpisodeWait x).params = s.params := rfl
@[simp] theorem setEpisodeWait_channels (x : List Nat) : (s.setEpisodeWait x).channels = s.channels := rfl
@[simp] theorem setEpisodeWait_fetch (x : List Nat) : (s.setEpisodeWait x).fetch = s.fetch := rfl
@[simp] theorem setEpisodeWait_lastGranted (x : List Nat) : (s.setEpisodeWait x).lastGranted = s.lastGranted := rfl
@[simp] theorem setEpisodeWait_eventSet (x : List Nat) : (s.setEpisodeWait x).eventSet = s.eventSet := rfl
@[simp] theorem setEpisodeWait_table (x : List Nat) : (s.setEpisodeWait x).table = s.table := rfl
@[simp] theorem setEpisodeWait_lines (x : List Nat) : (s.setEpisodeWait x).lines = s.lines := rfl
@[simp] theorem setEpisodeWait_recency (x : List Nat) : (s.setEpisodeWait x).recency = s.recency := rfl
@[simp] theorem setEpisodeWait_setWait (x : List Nat) : (s.setEpisodeWait x).setWait = s.setWait := rfl
@[simp] theorem setEpisodeWait_refs (x : List Nat) : (s.setEpisodeWait x).refs = s.refs := rfl
@[simp] theorem setEpisodeWait_store (x : List Nat) : (s.setEpisodeWait x).store = s.store := rfl
@[simp] theorem setEpisodeWait_slotWait (x : List Nat) : (s.setEpisodeWait x).slotWait = s.slotWait := rfl
@[simp] theorem setEpisodeWait_episodes (x : List Nat) : (s.setEpisodeWait x).episodes = s.episodes := rfl
@[simp] theorem setEpisodeWait_dirtyCount (x : List Nat) : (s.setEpisodeWait x).dirtyCount = s.dirtyCount := rfl
@[simp] theorem setEpisodeWait_pressure (x : List Nat) : (s.setEpisodeWait x).pressure = s.pressure := rfl
@[simp] theorem setEpisodeWait_units (x : List Nat) : (s.setEpisodeWait x).units = s.units := rfl
@[simp] theorem setEpisodeWait_now (x : List Nat) : (s.setEpisodeWait x).now = s.now := rfl
@[simp] theorem setEpisodeWait_joins (x : List Nat) : (s.setEpisodeWait x).joins = s.joins := rfl
@[simp] theorem setEpisodeWait_protectSamples (x : List Nat) : (s.setEpisodeWait x).protectSamples = s.protectSamples := rfl
@[simp] theorem setEpisodeWait_endedInFailed (x : List Nat) : (s.setEpisodeWait x).endedInFailed = s.endedInFailed := rfl
@[simp] theorem setEpisodeWait_agenda (x : List Nat) : (s.setEpisodeWait x).agenda = s.agenda := rfl
@[simp] theorem setEpisodeWait_outbox (x : List Nat) : (s.setEpisodeWait x).outbox = s.outbox := rfl
@[simp] theorem setEpisodeWait_pending (x : List Nat) : (s.setEpisodeWait x).pending = s.pending := rfl

@[simp] theorem setDirtyCount_part (x : Nat) : (s.setDirtyCount x).part = s.part := rfl
@[simp] theorem setDirtyCount_failure (x : Nat) : (s.setDirtyCount x).failure = s.failure := rfl
@[simp] theorem setDirtyCount_lastFailure (x : Nat) : (s.setDirtyCount x).lastFailure = s.lastFailure := rfl
@[simp] theorem setDirtyCount_lastRefused (x : Nat) : (s.setDirtyCount x).lastRefused = s.lastRefused := rfl
@[simp] theorem setDirtyCount_bootAddress (x : Nat) : (s.setDirtyCount x).bootAddress = s.bootAddress := rfl
@[simp] theorem setDirtyCount_params (x : Nat) : (s.setDirtyCount x).params = s.params := rfl
@[simp] theorem setDirtyCount_channels (x : Nat) : (s.setDirtyCount x).channels = s.channels := rfl
@[simp] theorem setDirtyCount_fetch (x : Nat) : (s.setDirtyCount x).fetch = s.fetch := rfl
@[simp] theorem setDirtyCount_lastGranted (x : Nat) : (s.setDirtyCount x).lastGranted = s.lastGranted := rfl
@[simp] theorem setDirtyCount_eventSet (x : Nat) : (s.setDirtyCount x).eventSet = s.eventSet := rfl
@[simp] theorem setDirtyCount_table (x : Nat) : (s.setDirtyCount x).table = s.table := rfl
@[simp] theorem setDirtyCount_lines (x : Nat) : (s.setDirtyCount x).lines = s.lines := rfl
@[simp] theorem setDirtyCount_recency (x : Nat) : (s.setDirtyCount x).recency = s.recency := rfl
@[simp] theorem setDirtyCount_setWait (x : Nat) : (s.setDirtyCount x).setWait = s.setWait := rfl
@[simp] theorem setDirtyCount_refs (x : Nat) : (s.setDirtyCount x).refs = s.refs := rfl
@[simp] theorem setDirtyCount_store (x : Nat) : (s.setDirtyCount x).store = s.store := rfl
@[simp] theorem setDirtyCount_slotWait (x : Nat) : (s.setDirtyCount x).slotWait = s.slotWait := rfl
@[simp] theorem setDirtyCount_episodes (x : Nat) : (s.setDirtyCount x).episodes = s.episodes := rfl
@[simp] theorem setDirtyCount_episodeWait (x : Nat) : (s.setDirtyCount x).episodeWait = s.episodeWait := rfl
@[simp] theorem setDirtyCount_pressure (x : Nat) : (s.setDirtyCount x).pressure = s.pressure := rfl
@[simp] theorem setDirtyCount_units (x : Nat) : (s.setDirtyCount x).units = s.units := rfl
@[simp] theorem setDirtyCount_now (x : Nat) : (s.setDirtyCount x).now = s.now := rfl
@[simp] theorem setDirtyCount_joins (x : Nat) : (s.setDirtyCount x).joins = s.joins := rfl
@[simp] theorem setDirtyCount_protectSamples (x : Nat) : (s.setDirtyCount x).protectSamples = s.protectSamples := rfl
@[simp] theorem setDirtyCount_endedInFailed (x : Nat) : (s.setDirtyCount x).endedInFailed = s.endedInFailed := rfl
@[simp] theorem setDirtyCount_agenda (x : Nat) : (s.setDirtyCount x).agenda = s.agenda := rfl
@[simp] theorem setDirtyCount_outbox (x : Nat) : (s.setDirtyCount x).outbox = s.outbox := rfl
@[simp] theorem setDirtyCount_pending (x : Nat) : (s.setDirtyCount x).pending = s.pending := rfl

@[simp] theorem setPressure_part (x : Bool) : (s.setPressure x).part = s.part := rfl
@[simp] theorem setPressure_failure (x : Bool) : (s.setPressure x).failure = s.failure := rfl
@[simp] theorem setPressure_lastFailure (x : Bool) : (s.setPressure x).lastFailure = s.lastFailure := rfl
@[simp] theorem setPressure_lastRefused (x : Bool) : (s.setPressure x).lastRefused = s.lastRefused := rfl
@[simp] theorem setPressure_bootAddress (x : Bool) : (s.setPressure x).bootAddress = s.bootAddress := rfl
@[simp] theorem setPressure_params (x : Bool) : (s.setPressure x).params = s.params := rfl
@[simp] theorem setPressure_channels (x : Bool) : (s.setPressure x).channels = s.channels := rfl
@[simp] theorem setPressure_fetch (x : Bool) : (s.setPressure x).fetch = s.fetch := rfl
@[simp] theorem setPressure_lastGranted (x : Bool) : (s.setPressure x).lastGranted = s.lastGranted := rfl
@[simp] theorem setPressure_eventSet (x : Bool) : (s.setPressure x).eventSet = s.eventSet := rfl
@[simp] theorem setPressure_table (x : Bool) : (s.setPressure x).table = s.table := rfl
@[simp] theorem setPressure_lines (x : Bool) : (s.setPressure x).lines = s.lines := rfl
@[simp] theorem setPressure_recency (x : Bool) : (s.setPressure x).recency = s.recency := rfl
@[simp] theorem setPressure_setWait (x : Bool) : (s.setPressure x).setWait = s.setWait := rfl
@[simp] theorem setPressure_refs (x : Bool) : (s.setPressure x).refs = s.refs := rfl
@[simp] theorem setPressure_store (x : Bool) : (s.setPressure x).store = s.store := rfl
@[simp] theorem setPressure_slotWait (x : Bool) : (s.setPressure x).slotWait = s.slotWait := rfl
@[simp] theorem setPressure_episodes (x : Bool) : (s.setPressure x).episodes = s.episodes := rfl
@[simp] theorem setPressure_episodeWait (x : Bool) : (s.setPressure x).episodeWait = s.episodeWait := rfl
@[simp] theorem setPressure_dirtyCount (x : Bool) : (s.setPressure x).dirtyCount = s.dirtyCount := rfl
@[simp] theorem setPressure_units (x : Bool) : (s.setPressure x).units = s.units := rfl
@[simp] theorem setPressure_now (x : Bool) : (s.setPressure x).now = s.now := rfl
@[simp] theorem setPressure_joins (x : Bool) : (s.setPressure x).joins = s.joins := rfl
@[simp] theorem setPressure_protectSamples (x : Bool) : (s.setPressure x).protectSamples = s.protectSamples := rfl
@[simp] theorem setPressure_endedInFailed (x : Bool) : (s.setPressure x).endedInFailed = s.endedInFailed := rfl
@[simp] theorem setPressure_agenda (x : Bool) : (s.setPressure x).agenda = s.agenda := rfl
@[simp] theorem setPressure_outbox (x : Bool) : (s.setPressure x).outbox = s.outbox := rfl
@[simp] theorem setPressure_pending (x : Bool) : (s.setPressure x).pending = s.pending := rfl

@[simp] theorem setJoins_part (x : Nat) : (s.setJoins x).part = s.part := rfl
@[simp] theorem setJoins_failure (x : Nat) : (s.setJoins x).failure = s.failure := rfl
@[simp] theorem setJoins_lastFailure (x : Nat) : (s.setJoins x).lastFailure = s.lastFailure := rfl
@[simp] theorem setJoins_lastRefused (x : Nat) : (s.setJoins x).lastRefused = s.lastRefused := rfl
@[simp] theorem setJoins_bootAddress (x : Nat) : (s.setJoins x).bootAddress = s.bootAddress := rfl
@[simp] theorem setJoins_params (x : Nat) : (s.setJoins x).params = s.params := rfl
@[simp] theorem setJoins_channels (x : Nat) : (s.setJoins x).channels = s.channels := rfl
@[simp] theorem setJoins_fetch (x : Nat) : (s.setJoins x).fetch = s.fetch := rfl
@[simp] theorem setJoins_lastGranted (x : Nat) : (s.setJoins x).lastGranted = s.lastGranted := rfl
@[simp] theorem setJoins_eventSet (x : Nat) : (s.setJoins x).eventSet = s.eventSet := rfl
@[simp] theorem setJoins_table (x : Nat) : (s.setJoins x).table = s.table := rfl
@[simp] theorem setJoins_lines (x : Nat) : (s.setJoins x).lines = s.lines := rfl
@[simp] theorem setJoins_recency (x : Nat) : (s.setJoins x).recency = s.recency := rfl
@[simp] theorem setJoins_setWait (x : Nat) : (s.setJoins x).setWait = s.setWait := rfl
@[simp] theorem setJoins_refs (x : Nat) : (s.setJoins x).refs = s.refs := rfl
@[simp] theorem setJoins_store (x : Nat) : (s.setJoins x).store = s.store := rfl
@[simp] theorem setJoins_slotWait (x : Nat) : (s.setJoins x).slotWait = s.slotWait := rfl
@[simp] theorem setJoins_episodes (x : Nat) : (s.setJoins x).episodes = s.episodes := rfl
@[simp] theorem setJoins_episodeWait (x : Nat) : (s.setJoins x).episodeWait = s.episodeWait := rfl
@[simp] theorem setJoins_dirtyCount (x : Nat) : (s.setJoins x).dirtyCount = s.dirtyCount := rfl
@[simp] theorem setJoins_pressure (x : Nat) : (s.setJoins x).pressure = s.pressure := rfl
@[simp] theorem setJoins_units (x : Nat) : (s.setJoins x).units = s.units := rfl
@[simp] theorem setJoins_now (x : Nat) : (s.setJoins x).now = s.now := rfl
@[simp] theorem setJoins_protectSamples (x : Nat) : (s.setJoins x).protectSamples = s.protectSamples := rfl
@[simp] theorem setJoins_endedInFailed (x : Nat) : (s.setJoins x).endedInFailed = s.endedInFailed := rfl
@[simp] theorem setJoins_agenda (x : Nat) : (s.setJoins x).agenda = s.agenda := rfl
@[simp] theorem setJoins_outbox (x : Nat) : (s.setJoins x).outbox = s.outbox := rfl
@[simp] theorem setJoins_pending (x : Nat) : (s.setJoins x).pending = s.pending := rfl

@[simp] theorem setEndedInFailed_part (x : List Nat) : (s.setEndedInFailed x).part = s.part := rfl
@[simp] theorem setEndedInFailed_failure (x : List Nat) : (s.setEndedInFailed x).failure = s.failure := rfl
@[simp] theorem setEndedInFailed_lastFailure (x : List Nat) : (s.setEndedInFailed x).lastFailure = s.lastFailure := rfl
@[simp] theorem setEndedInFailed_lastRefused (x : List Nat) : (s.setEndedInFailed x).lastRefused = s.lastRefused := rfl
@[simp] theorem setEndedInFailed_bootAddress (x : List Nat) : (s.setEndedInFailed x).bootAddress = s.bootAddress := rfl
@[simp] theorem setEndedInFailed_params (x : List Nat) : (s.setEndedInFailed x).params = s.params := rfl
@[simp] theorem setEndedInFailed_channels (x : List Nat) : (s.setEndedInFailed x).channels = s.channels := rfl
@[simp] theorem setEndedInFailed_fetch (x : List Nat) : (s.setEndedInFailed x).fetch = s.fetch := rfl
@[simp] theorem setEndedInFailed_lastGranted (x : List Nat) : (s.setEndedInFailed x).lastGranted = s.lastGranted := rfl
@[simp] theorem setEndedInFailed_eventSet (x : List Nat) : (s.setEndedInFailed x).eventSet = s.eventSet := rfl
@[simp] theorem setEndedInFailed_table (x : List Nat) : (s.setEndedInFailed x).table = s.table := rfl
@[simp] theorem setEndedInFailed_lines (x : List Nat) : (s.setEndedInFailed x).lines = s.lines := rfl
@[simp] theorem setEndedInFailed_recency (x : List Nat) : (s.setEndedInFailed x).recency = s.recency := rfl
@[simp] theorem setEndedInFailed_setWait (x : List Nat) : (s.setEndedInFailed x).setWait = s.setWait := rfl
@[simp] theorem setEndedInFailed_refs (x : List Nat) : (s.setEndedInFailed x).refs = s.refs := rfl
@[simp] theorem setEndedInFailed_store (x : List Nat) : (s.setEndedInFailed x).store = s.store := rfl
@[simp] theorem setEndedInFailed_slotWait (x : List Nat) : (s.setEndedInFailed x).slotWait = s.slotWait := rfl
@[simp] theorem setEndedInFailed_episodes (x : List Nat) : (s.setEndedInFailed x).episodes = s.episodes := rfl
@[simp] theorem setEndedInFailed_episodeWait (x : List Nat) : (s.setEndedInFailed x).episodeWait = s.episodeWait := rfl
@[simp] theorem setEndedInFailed_dirtyCount (x : List Nat) : (s.setEndedInFailed x).dirtyCount = s.dirtyCount := rfl
@[simp] theorem setEndedInFailed_pressure (x : List Nat) : (s.setEndedInFailed x).pressure = s.pressure := rfl
@[simp] theorem setEndedInFailed_units (x : List Nat) : (s.setEndedInFailed x).units = s.units := rfl
@[simp] theorem setEndedInFailed_now (x : List Nat) : (s.setEndedInFailed x).now = s.now := rfl
@[simp] theorem setEndedInFailed_joins (x : List Nat) : (s.setEndedInFailed x).joins = s.joins := rfl
@[simp] theorem setEndedInFailed_protectSamples (x : List Nat) : (s.setEndedInFailed x).protectSamples = s.protectSamples := rfl
@[simp] theorem setEndedInFailed_agenda (x : List Nat) : (s.setEndedInFailed x).agenda = s.agenda := rfl
@[simp] theorem setEndedInFailed_outbox (x : List Nat) : (s.setEndedInFailed x).outbox = s.outbox := rfl
@[simp] theorem setEndedInFailed_pending (x : List Nat) : (s.setEndedInFailed x).pending = s.pending := rfl

@[simp] theorem setAgenda_part (x : List Work) : (s.setAgenda x).part = s.part := rfl
@[simp] theorem setAgenda_failure (x : List Work) : (s.setAgenda x).failure = s.failure := rfl
@[simp] theorem setAgenda_lastFailure (x : List Work) : (s.setAgenda x).lastFailure = s.lastFailure := rfl
@[simp] theorem setAgenda_lastRefused (x : List Work) : (s.setAgenda x).lastRefused = s.lastRefused := rfl
@[simp] theorem setAgenda_bootAddress (x : List Work) : (s.setAgenda x).bootAddress = s.bootAddress := rfl
@[simp] theorem setAgenda_params (x : List Work) : (s.setAgenda x).params = s.params := rfl
@[simp] theorem setAgenda_channels (x : List Work) : (s.setAgenda x).channels = s.channels := rfl
@[simp] theorem setAgenda_fetch (x : List Work) : (s.setAgenda x).fetch = s.fetch := rfl
@[simp] theorem setAgenda_lastGranted (x : List Work) : (s.setAgenda x).lastGranted = s.lastGranted := rfl
@[simp] theorem setAgenda_eventSet (x : List Work) : (s.setAgenda x).eventSet = s.eventSet := rfl
@[simp] theorem setAgenda_table (x : List Work) : (s.setAgenda x).table = s.table := rfl
@[simp] theorem setAgenda_lines (x : List Work) : (s.setAgenda x).lines = s.lines := rfl
@[simp] theorem setAgenda_recency (x : List Work) : (s.setAgenda x).recency = s.recency := rfl
@[simp] theorem setAgenda_setWait (x : List Work) : (s.setAgenda x).setWait = s.setWait := rfl
@[simp] theorem setAgenda_refs (x : List Work) : (s.setAgenda x).refs = s.refs := rfl
@[simp] theorem setAgenda_store (x : List Work) : (s.setAgenda x).store = s.store := rfl
@[simp] theorem setAgenda_slotWait (x : List Work) : (s.setAgenda x).slotWait = s.slotWait := rfl
@[simp] theorem setAgenda_episodes (x : List Work) : (s.setAgenda x).episodes = s.episodes := rfl
@[simp] theorem setAgenda_episodeWait (x : List Work) : (s.setAgenda x).episodeWait = s.episodeWait := rfl
@[simp] theorem setAgenda_dirtyCount (x : List Work) : (s.setAgenda x).dirtyCount = s.dirtyCount := rfl
@[simp] theorem setAgenda_pressure (x : List Work) : (s.setAgenda x).pressure = s.pressure := rfl
@[simp] theorem setAgenda_units (x : List Work) : (s.setAgenda x).units = s.units := rfl
@[simp] theorem setAgenda_now (x : List Work) : (s.setAgenda x).now = s.now := rfl
@[simp] theorem setAgenda_joins (x : List Work) : (s.setAgenda x).joins = s.joins := rfl
@[simp] theorem setAgenda_protectSamples (x : List Work) : (s.setAgenda x).protectSamples = s.protectSamples := rfl
@[simp] theorem setAgenda_endedInFailed (x : List Work) : (s.setAgenda x).endedInFailed = s.endedInFailed := rfl
@[simp] theorem setAgenda_outbox (x : List Work) : (s.setAgenda x).outbox = s.outbox := rfl
@[simp] theorem setAgenda_pending (x : List Work) : (s.setAgenda x).pending = s.pending := rfl

/-! ### What the tables read -/

@[simp] theorem setChannel_unit (c : Nat) (x : Channel) (j : Nat) : (s.setChannel c x).unit j = s.unit j := rfl
@[simp] theorem setChannel_line (c : Nat) (x : Channel) (j : Nat) : (s.setChannel c x).line j = s.line j := rfl
@[simp] theorem setChannel_request (c : Nat) (x : Channel) (j : Nat) : (s.setChannel c x).request j = s.request j := rfl
@[simp] theorem setChannel_refCount (c : Nat) (x : Channel) (j : Nat) : (s.setChannel c x).refCount j = s.refCount j := rfl
@[simp] theorem setChannel_episode (c : Nat) (x : Channel) (j : Nat) : (s.setChannel c x).episode j = s.episode j := rfl
@[simp] theorem setChannel_waiters (c : Nat) (x : Channel) (j : Nat) : (s.setChannel c x).waiters j = s.waiters j := rfl
@[simp] theorem setChannel_order (c : Nat) (x : Channel) (j : Nat) : (s.setChannel c x).order j = s.order j := rfl

@[simp] theorem setUnit_channel (u : Nat) (x : UnitRec) (j : Nat) : (s.setUnit u x).channel j = s.channel j := rfl
@[simp] theorem setUnit_line (u : Nat) (x : UnitRec) (j : Nat) : (s.setUnit u x).line j = s.line j := rfl
@[simp] theorem setUnit_request (u : Nat) (x : UnitRec) (j : Nat) : (s.setUnit u x).request j = s.request j := rfl
@[simp] theorem setUnit_refCount (u : Nat) (x : UnitRec) (j : Nat) : (s.setUnit u x).refCount j = s.refCount j := rfl
@[simp] theorem setUnit_episode (u : Nat) (x : UnitRec) (j : Nat) : (s.setUnit u x).episode j = s.episode j := rfl
@[simp] theorem setUnit_waiters (u : Nat) (x : UnitRec) (j : Nat) : (s.setUnit u x).waiters j = s.waiters j := rfl
@[simp] theorem setUnit_order (u : Nat) (x : UnitRec) (j : Nat) : (s.setUnit u x).order j = s.order j := rfl

@[simp] theorem setLine_channel (k : Nat) (x : Line) (j : Nat) : (s.setLine k x).channel j = s.channel j := rfl
@[simp] theorem setLine_unit (k : Nat) (x : Line) (j : Nat) : (s.setLine k x).unit j = s.unit j := rfl
@[simp] theorem setLine_request (k : Nat) (x : Line) (j : Nat) : (s.setLine k x).request j = s.request j := rfl
@[simp] theorem setLine_refCount (k : Nat) (x : Line) (j : Nat) : (s.setLine k x).refCount j = s.refCount j := rfl
@[simp] theorem setLine_episode (k : Nat) (x : Line) (j : Nat) : (s.setLine k x).episode j = s.episode j := rfl
@[simp] theorem setLine_waiters (k : Nat) (x : Line) (j : Nat) : (s.setLine k x).waiters j = s.waiters j := rfl
@[simp] theorem setLine_order (k : Nat) (x : Line) (j : Nat) : (s.setLine k x).order j = s.order j := rfl

@[simp] theorem setRequest_channel (e : Nat) (x : Option Request) (j : Nat) : (s.setRequest e x).channel j = s.channel j := rfl
@[simp] theorem setRequest_unit (e : Nat) (x : Option Request) (j : Nat) : (s.setRequest e x).unit j = s.unit j := rfl
@[simp] theorem setRequest_line (e : Nat) (x : Option Request) (j : Nat) : (s.setRequest e x).line j = s.line j := rfl
@[simp] theorem setRequest_refCount (e : Nat) (x : Option Request) (j : Nat) : (s.setRequest e x).refCount j = s.refCount j := rfl
@[simp] theorem setRequest_episode (e : Nat) (x : Option Request) (j : Nat) : (s.setRequest e x).episode j = s.episode j := rfl
@[simp] theorem setRequest_waiters (e : Nat) (x : Option Request) (j : Nat) : (s.setRequest e x).waiters j = s.waiters j := rfl
@[simp] theorem setRequest_order (e : Nat) (x : Option Request) (j : Nat) : (s.setRequest e x).order j = s.order j := rfl

@[simp] theorem setRef_channel (slot n : Nat) (j : Nat) : (s.setRef slot n).channel j = s.channel j := rfl
@[simp] theorem setRef_unit (slot n : Nat) (j : Nat) : (s.setRef slot n).unit j = s.unit j := rfl
@[simp] theorem setRef_line (slot n : Nat) (j : Nat) : (s.setRef slot n).line j = s.line j := rfl
@[simp] theorem setRef_request (slot n : Nat) (j : Nat) : (s.setRef slot n).request j = s.request j := rfl
@[simp] theorem setRef_episode (slot n : Nat) (j : Nat) : (s.setRef slot n).episode j = s.episode j := rfl
@[simp] theorem setRef_waiters (slot n : Nat) (j : Nat) : (s.setRef slot n).waiters j = s.waiters j := rfl
@[simp] theorem setRef_order (slot n : Nat) (j : Nat) : (s.setRef slot n).order j = s.order j := rfl

@[simp] theorem setEpisode_channel (n : Nat) (x : Option Episode) (j : Nat) : (s.setEpisode n x).channel j = s.channel j := rfl
@[simp] theorem setEpisode_unit (n : Nat) (x : Option Episode) (j : Nat) : (s.setEpisode n x).unit j = s.unit j := rfl
@[simp] theorem setEpisode_line (n : Nat) (x : Option Episode) (j : Nat) : (s.setEpisode n x).line j = s.line j := rfl
@[simp] theorem setEpisode_request (n : Nat) (x : Option Episode) (j : Nat) : (s.setEpisode n x).request j = s.request j := rfl
@[simp] theorem setEpisode_refCount (n : Nat) (x : Option Episode) (j : Nat) : (s.setEpisode n x).refCount j = s.refCount j := rfl
@[simp] theorem setEpisode_waiters (n : Nat) (x : Option Episode) (j : Nat) : (s.setEpisode n x).waiters j = s.waiters j := rfl
@[simp] theorem setEpisode_order (n : Nat) (x : Option Episode) (j : Nat) : (s.setEpisode n x).order j = s.order j := rfl

@[simp] theorem setWaiters_channel (t : Nat) (l : List Nat) (j : Nat) : (s.setWaiters t l).channel j = s.channel j := rfl
@[simp] theorem setWaiters_unit (t : Nat) (l : List Nat) (j : Nat) : (s.setWaiters t l).unit j = s.unit j := rfl
@[simp] theorem setWaiters_line (t : Nat) (l : List Nat) (j : Nat) : (s.setWaiters t l).line j = s.line j := rfl
@[simp] theorem setWaiters_request (t : Nat) (l : List Nat) (j : Nat) : (s.setWaiters t l).request j = s.request j := rfl
@[simp] theorem setWaiters_refCount (t : Nat) (l : List Nat) (j : Nat) : (s.setWaiters t l).refCount j = s.refCount j := rfl
@[simp] theorem setWaiters_episode (t : Nat) (l : List Nat) (j : Nat) : (s.setWaiters t l).episode j = s.episode j := rfl
@[simp] theorem setWaiters_order (t : Nat) (l : List Nat) (j : Nat) : (s.setWaiters t l).order j = s.order j := rfl

@[simp] theorem setOrder_channel (t : Nat) (l : List Nat) (j : Nat) : (s.setOrder t l).channel j = s.channel j := rfl
@[simp] theorem setOrder_unit (t : Nat) (l : List Nat) (j : Nat) : (s.setOrder t l).unit j = s.unit j := rfl
@[simp] theorem setOrder_line (t : Nat) (l : List Nat) (j : Nat) : (s.setOrder t l).line j = s.line j := rfl
@[simp] theorem setOrder_request (t : Nat) (l : List Nat) (j : Nat) : (s.setOrder t l).request j = s.request j := rfl
@[simp] theorem setOrder_refCount (t : Nat) (l : List Nat) (j : Nat) : (s.setOrder t l).refCount j = s.refCount j := rfl
@[simp] theorem setOrder_episode (t : Nat) (l : List Nat) (j : Nat) : (s.setOrder t l).episode j = s.episode j := rfl
@[simp] theorem setOrder_waiters (t : Nat) (l : List Nat) (j : Nat) : (s.setOrder t l).waiters j = s.waiters j := rfl

@[simp] theorem updChannel_unit (c : Nat) (f : Channel → Channel) (j : Nat) : (s.updChannel c f).unit j = s.unit j := rfl
@[simp] theorem updChannel_line (c : Nat) (f : Channel → Channel) (j : Nat) : (s.updChannel c f).line j = s.line j := rfl
@[simp] theorem updChannel_request (c : Nat) (f : Channel → Channel) (j : Nat) : (s.updChannel c f).request j = s.request j := rfl
@[simp] theorem updChannel_refCount (c : Nat) (f : Channel → Channel) (j : Nat) : (s.updChannel c f).refCount j = s.refCount j := rfl
@[simp] theorem updChannel_episode (c : Nat) (f : Channel → Channel) (j : Nat) : (s.updChannel c f).episode j = s.episode j := rfl
@[simp] theorem updChannel_waiters (c : Nat) (f : Channel → Channel) (j : Nat) : (s.updChannel c f).waiters j = s.waiters j := rfl
@[simp] theorem updChannel_order (c : Nat) (f : Channel → Channel) (j : Nat) : (s.updChannel c f).order j = s.order j := rfl

@[simp] theorem updUnit_channel (u : Nat) (f : UnitRec → UnitRec) (j : Nat) : (s.updUnit u f).channel j = s.channel j := rfl
@[simp] theorem updUnit_line (u : Nat) (f : UnitRec → UnitRec) (j : Nat) : (s.updUnit u f).line j = s.line j := rfl
@[simp] theorem updUnit_request (u : Nat) (f : UnitRec → UnitRec) (j : Nat) : (s.updUnit u f).request j = s.request j := rfl
@[simp] theorem updUnit_refCount (u : Nat) (f : UnitRec → UnitRec) (j : Nat) : (s.updUnit u f).refCount j = s.refCount j := rfl
@[simp] theorem updUnit_episode (u : Nat) (f : UnitRec → UnitRec) (j : Nat) : (s.updUnit u f).episode j = s.episode j := rfl
@[simp] theorem updUnit_waiters (u : Nat) (f : UnitRec → UnitRec) (j : Nat) : (s.updUnit u f).waiters j = s.waiters j := rfl
@[simp] theorem updUnit_order (u : Nat) (f : UnitRec → UnitRec) (j : Nat) : (s.updUnit u f).order j = s.order j := rfl

@[simp] theorem updLine_channel (k : Nat) (f : Line → Line) (j : Nat) : (s.updLine k f).channel j = s.channel j := rfl
@[simp] theorem updLine_unit (k : Nat) (f : Line → Line) (j : Nat) : (s.updLine k f).unit j = s.unit j := rfl
@[simp] theorem updLine_request (k : Nat) (f : Line → Line) (j : Nat) : (s.updLine k f).request j = s.request j := rfl
@[simp] theorem updLine_refCount (k : Nat) (f : Line → Line) (j : Nat) : (s.updLine k f).refCount j = s.refCount j := rfl
@[simp] theorem updLine_episode (k : Nat) (f : Line → Line) (j : Nat) : (s.updLine k f).episode j = s.episode j := rfl
@[simp] theorem updLine_waiters (k : Nat) (f : Line → Line) (j : Nat) : (s.updLine k f).waiters j = s.waiters j := rfl
@[simp] theorem updLine_order (k : Nat) (f : Line → Line) (j : Nat) : (s.updLine k f).order j = s.order j := rfl

@[simp] theorem updRequest_channel (e : Nat) (f : Request → Request) (j : Nat) : (s.updRequest e f).channel j = s.channel j := rfl
@[simp] theorem updRequest_unit (e : Nat) (f : Request → Request) (j : Nat) : (s.updRequest e f).unit j = s.unit j := rfl
@[simp] theorem updRequest_line (e : Nat) (f : Request → Request) (j : Nat) : (s.updRequest e f).line j = s.line j := rfl
@[simp] theorem updRequest_refCount (e : Nat) (f : Request → Request) (j : Nat) : (s.updRequest e f).refCount j = s.refCount j := rfl
@[simp] theorem updRequest_episode (e : Nat) (f : Request → Request) (j : Nat) : (s.updRequest e f).episode j = s.episode j := rfl
@[simp] theorem updRequest_waiters (e : Nat) (f : Request → Request) (j : Nat) : (s.updRequest e f).waiters j = s.waiters j := rfl
@[simp] theorem updRequest_order (e : Nat) (f : Request → Request) (j : Nat) : (s.updRequest e f).order j = s.order j := rfl

@[simp] theorem emit_channel (o : Output) (j : Nat) : (s.emit o).channel j = s.channel j := rfl
@[simp] theorem emit_unit (o : Output) (j : Nat) : (s.emit o).unit j = s.unit j := rfl
@[simp] theorem emit_line (o : Output) (j : Nat) : (s.emit o).line j = s.line j := rfl
@[simp] theorem emit_request (o : Output) (j : Nat) : (s.emit o).request j = s.request j := rfl
@[simp] theorem emit_refCount (o : Output) (j : Nat) : (s.emit o).refCount j = s.refCount j := rfl
@[simp] theorem emit_episode (o : Output) (j : Nat) : (s.emit o).episode j = s.episode j := rfl
@[simp] theorem emit_waiters (o : Output) (j : Nat) : (s.emit o).waiters j = s.waiters j := rfl
@[simp] theorem emit_order (o : Output) (j : Nat) : (s.emit o).order j = s.order j := rfl

@[simp] theorem soon_channel (w : List Work) (j : Nat) : (s.soon w).channel j = s.channel j := rfl
@[simp] theorem soon_unit (w : List Work) (j : Nat) : (s.soon w).unit j = s.unit j := rfl
@[simp] theorem soon_line (w : List Work) (j : Nat) : (s.soon w).line j = s.line j := rfl
@[simp] theorem soon_request (w : List Work) (j : Nat) : (s.soon w).request j = s.request j := rfl
@[simp] theorem soon_refCount (w : List Work) (j : Nat) : (s.soon w).refCount j = s.refCount j := rfl
@[simp] theorem soon_episode (w : List Work) (j : Nat) : (s.soon w).episode j = s.episode j := rfl
@[simp] theorem soon_waiters (w : List Work) (j : Nat) : (s.soon w).waiters j = s.waiters j := rfl
@[simp] theorem soon_order (w : List Work) (j : Nat) : (s.soon w).order j = s.order j := rfl

@[simp] theorem later_channel (w : List Work) (j : Nat) : (s.later w).channel j = s.channel j := rfl
@[simp] theorem later_unit (w : List Work) (j : Nat) : (s.later w).unit j = s.unit j := rfl
@[simp] theorem later_line (w : List Work) (j : Nat) : (s.later w).line j = s.line j := rfl
@[simp] theorem later_request (w : List Work) (j : Nat) : (s.later w).request j = s.request j := rfl
@[simp] theorem later_refCount (w : List Work) (j : Nat) : (s.later w).refCount j = s.refCount j := rfl
@[simp] theorem later_episode (w : List Work) (j : Nat) : (s.later w).episode j = s.episode j := rfl
@[simp] theorem later_waiters (w : List Work) (j : Nat) : (s.later w).waiters j = s.waiters j := rfl
@[simp] theorem later_order (w : List Work) (j : Nat) : (s.later w).order j = s.order j := rfl

@[simp] theorem touch_channel (k : Nat) (j : Nat) : (s.touch k).channel j = s.channel j := rfl
@[simp] theorem touch_unit (k : Nat) (j : Nat) : (s.touch k).unit j = s.unit j := rfl
@[simp] theorem touch_line (k : Nat) (j : Nat) : (s.touch k).line j = s.line j := rfl
@[simp] theorem touch_request (k : Nat) (j : Nat) : (s.touch k).request j = s.request j := rfl
@[simp] theorem touch_refCount (k : Nat) (j : Nat) : (s.touch k).refCount j = s.refCount j := rfl
@[simp] theorem touch_episode (k : Nat) (j : Nat) : (s.touch k).episode j = s.episode j := rfl
@[simp] theorem touch_waiters (k : Nat) (j : Nat) : (s.touch k).waiters j = s.waiters j := rfl

@[simp] theorem takeRef_channel (slot : Nat) (j : Nat) : (s.takeRef slot).channel j = s.channel j := rfl
@[simp] theorem takeRef_unit (slot : Nat) (j : Nat) : (s.takeRef slot).unit j = s.unit j := rfl
@[simp] theorem takeRef_line (slot : Nat) (j : Nat) : (s.takeRef slot).line j = s.line j := rfl
@[simp] theorem takeRef_request (slot : Nat) (j : Nat) : (s.takeRef slot).request j = s.request j := rfl
@[simp] theorem takeRef_episode (slot : Nat) (j : Nat) : (s.takeRef slot).episode j = s.episode j := rfl
@[simp] theorem takeRef_waiters (slot : Nat) (j : Nat) : (s.takeRef slot).waiters j = s.waiters j := rfl
@[simp] theorem takeRef_order (slot : Nat) (j : Nat) : (s.takeRef slot).order j = s.order j := rfl

@[simp] theorem setPart_channel (x : PartState) (j : Nat) : (s.setPart x).channel j = s.channel j := rfl
@[simp] theorem setPart_unit (x : PartState) (j : Nat) : (s.setPart x).unit j = s.unit j := rfl
@[simp] theorem setPart_line (x : PartState) (j : Nat) : (s.setPart x).line j = s.line j := rfl
@[simp] theorem setPart_request (x : PartState) (j : Nat) : (s.setPart x).request j = s.request j := rfl
@[simp] theorem setPart_refCount (x : PartState) (j : Nat) : (s.setPart x).refCount j = s.refCount j := rfl
@[simp] theorem setPart_episode (x : PartState) (j : Nat) : (s.setPart x).episode j = s.episode j := rfl
@[simp] theorem setPart_waiters (x : PartState) (j : Nat) : (s.setPart x).waiters j = s.waiters j := rfl
@[simp] theorem setPart_order (x : PartState) (j : Nat) : (s.setPart x).order j = s.order j := rfl

@[simp] theorem setFetch_channel (x : Option Fetch) (j : Nat) : (s.setFetch x).channel j = s.channel j := rfl
@[simp] theorem setFetch_unit (x : Option Fetch) (j : Nat) : (s.setFetch x).unit j = s.unit j := rfl
@[simp] theorem setFetch_line (x : Option Fetch) (j : Nat) : (s.setFetch x).line j = s.line j := rfl
@[simp] theorem setFetch_request (x : Option Fetch) (j : Nat) : (s.setFetch x).request j = s.request j := rfl
@[simp] theorem setFetch_refCount (x : Option Fetch) (j : Nat) : (s.setFetch x).refCount j = s.refCount j := rfl
@[simp] theorem setFetch_episode (x : Option Fetch) (j : Nat) : (s.setFetch x).episode j = s.episode j := rfl
@[simp] theorem setFetch_waiters (x : Option Fetch) (j : Nat) : (s.setFetch x).waiters j = s.waiters j := rfl
@[simp] theorem setFetch_order (x : Option Fetch) (j : Nat) : (s.setFetch x).order j = s.order j := rfl

@[simp] theorem setParams_channel (x : Option Params) (j : Nat) : (s.setParams x).channel j = s.channel j := rfl
@[simp] theorem setParams_unit (x : Option Params) (j : Nat) : (s.setParams x).unit j = s.unit j := rfl
@[simp] theorem setParams_line (x : Option Params) (j : Nat) : (s.setParams x).line j = s.line j := rfl
@[simp] theorem setParams_request (x : Option Params) (j : Nat) : (s.setParams x).request j = s.request j := rfl
@[simp] theorem setParams_refCount (x : Option Params) (j : Nat) : (s.setParams x).refCount j = s.refCount j := rfl
@[simp] theorem setParams_episode (x : Option Params) (j : Nat) : (s.setParams x).episode j = s.episode j := rfl
@[simp] theorem setParams_waiters (x : Option Params) (j : Nat) : (s.setParams x).waiters j = s.waiters j := rfl
@[simp] theorem setParams_order (x : Option Params) (j : Nat) : (s.setParams x).order j = s.order j := rfl

@[simp] theorem setEventSet_channel (x : List Nat) (j : Nat) : (s.setEventSet x).channel j = s.channel j := rfl
@[simp] theorem setEventSet_unit (x : List Nat) (j : Nat) : (s.setEventSet x).unit j = s.unit j := rfl
@[simp] theorem setEventSet_line (x : List Nat) (j : Nat) : (s.setEventSet x).line j = s.line j := rfl
@[simp] theorem setEventSet_request (x : List Nat) (j : Nat) : (s.setEventSet x).request j = s.request j := rfl
@[simp] theorem setEventSet_refCount (x : List Nat) (j : Nat) : (s.setEventSet x).refCount j = s.refCount j := rfl
@[simp] theorem setEventSet_episode (x : List Nat) (j : Nat) : (s.setEventSet x).episode j = s.episode j := rfl
@[simp] theorem setEventSet_waiters (x : List Nat) (j : Nat) : (s.setEventSet x).waiters j = s.waiters j := rfl
@[simp] theorem setEventSet_order (x : List Nat) (j : Nat) : (s.setEventSet x).order j = s.order j := rfl

@[simp] theorem setLines_channel (x : SMap Line) (j : Nat) : (s.setLines x).channel j = s.channel j := rfl
@[simp] theorem setLines_unit (x : SMap Line) (j : Nat) : (s.setLines x).unit j = s.unit j := rfl
@[simp] theorem setLines_request (x : SMap Line) (j : Nat) : (s.setLines x).request j = s.request j := rfl
@[simp] theorem setLines_refCount (x : SMap Line) (j : Nat) : (s.setLines x).refCount j = s.refCount j := rfl
@[simp] theorem setLines_episode (x : SMap Line) (j : Nat) : (s.setLines x).episode j = s.episode j := rfl
@[simp] theorem setLines_waiters (x : SMap Line) (j : Nat) : (s.setLines x).waiters j = s.waiters j := rfl
@[simp] theorem setLines_order (x : SMap Line) (j : Nat) : (s.setLines x).order j = s.order j := rfl

@[simp] theorem setStore_channel (x : List Host.Cell) (j : Nat) : (s.setStore x).channel j = s.channel j := rfl
@[simp] theorem setStore_unit (x : List Host.Cell) (j : Nat) : (s.setStore x).unit j = s.unit j := rfl
@[simp] theorem setStore_line (x : List Host.Cell) (j : Nat) : (s.setStore x).line j = s.line j := rfl
@[simp] theorem setStore_request (x : List Host.Cell) (j : Nat) : (s.setStore x).request j = s.request j := rfl
@[simp] theorem setStore_refCount (x : List Host.Cell) (j : Nat) : (s.setStore x).refCount j = s.refCount j := rfl
@[simp] theorem setStore_episode (x : List Host.Cell) (j : Nat) : (s.setStore x).episode j = s.episode j := rfl
@[simp] theorem setStore_waiters (x : List Host.Cell) (j : Nat) : (s.setStore x).waiters j = s.waiters j := rfl
@[simp] theorem setStore_order (x : List Host.Cell) (j : Nat) : (s.setStore x).order j = s.order j := rfl

@[simp] theorem setSlotWait_channel (x : List Nat) (j : Nat) : (s.setSlotWait x).channel j = s.channel j := rfl
@[simp] theorem setSlotWait_unit (x : List Nat) (j : Nat) : (s.setSlotWait x).unit j = s.unit j := rfl
@[simp] theorem setSlotWait_line (x : List Nat) (j : Nat) : (s.setSlotWait x).line j = s.line j := rfl
@[simp] theorem setSlotWait_request (x : List Nat) (j : Nat) : (s.setSlotWait x).request j = s.request j := rfl
@[simp] theorem setSlotWait_refCount (x : List Nat) (j : Nat) : (s.setSlotWait x).refCount j = s.refCount j := rfl
@[simp] theorem setSlotWait_episode (x : List Nat) (j : Nat) : (s.setSlotWait x).episode j = s.episode j := rfl
@[simp] theorem setSlotWait_waiters (x : List Nat) (j : Nat) : (s.setSlotWait x).waiters j = s.waiters j := rfl
@[simp] theorem setSlotWait_order (x : List Nat) (j : Nat) : (s.setSlotWait x).order j = s.order j := rfl

@[simp] theorem setEpisodeWait_channel (x : List Nat) (j : Nat) : (s.setEpisodeWait x).channel j = s.channel j := rfl
@[simp] theorem setEpisodeWait_unit (x : List Nat) (j : Nat) : (s.setEpisodeWait x).unit j = s.unit j := rfl
@[simp] theorem setEpisodeWait_line (x : List Nat) (j : Nat) : (s.setEpisodeWait x).line j = s.line j := rfl
@[simp] theorem setEpisodeWait_request (x : List Nat) (j : Nat) : (s.setEpisodeWait x).request j = s.request j := rfl
@[simp] theorem setEpisodeWait_refCount (x : List Nat) (j : Nat) : (s.setEpisodeWait x).refCount j = s.refCount j := rfl
@[simp] theorem setEpisodeWait_episode (x : List Nat) (j : Nat) : (s.setEpisodeWait x).episode j = s.episode j := rfl
@[simp] theorem setEpisodeWait_waiters (x : List Nat) (j : Nat) : (s.setEpisodeWait x).waiters j = s.waiters j := rfl
@[simp] theorem setEpisodeWait_order (x : List Nat) (j : Nat) : (s.setEpisodeWait x).order j = s.order j := rfl

@[simp] theorem setDirtyCount_channel (x : Nat) (j : Nat) : (s.setDirtyCount x).channel j = s.channel j := rfl
@[simp] theorem setDirtyCount_unit (x : Nat) (j : Nat) : (s.setDirtyCount x).unit j = s.unit j := rfl
@[simp] theorem setDirtyCount_line (x : Nat) (j : Nat) : (s.setDirtyCount x).line j = s.line j := rfl
@[simp] theorem setDirtyCount_request (x : Nat) (j : Nat) : (s.setDirtyCount x).request j = s.request j := rfl
@[simp] theorem setDirtyCount_refCount (x : Nat) (j : Nat) : (s.setDirtyCount x).refCount j = s.refCount j := rfl
@[simp] theorem setDirtyCount_episode (x : Nat) (j : Nat) : (s.setDirtyCount x).episode j = s.episode j := rfl
@[simp] theorem setDirtyCount_waiters (x : Nat) (j : Nat) : (s.setDirtyCount x).waiters j = s.waiters j := rfl
@[simp] theorem setDirtyCount_order (x : Nat) (j : Nat) : (s.setDirtyCount x).order j = s.order j := rfl

@[simp] theorem setPressure_channel (x : Bool) (j : Nat) : (s.setPressure x).channel j = s.channel j := rfl
@[simp] theorem setPressure_unit (x : Bool) (j : Nat) : (s.setPressure x).unit j = s.unit j := rfl
@[simp] theorem setPressure_line (x : Bool) (j : Nat) : (s.setPressure x).line j = s.line j := rfl
@[simp] theorem setPressure_request (x : Bool) (j : Nat) : (s.setPressure x).request j = s.request j := rfl
@[simp] theorem setPressure_refCount (x : Bool) (j : Nat) : (s.setPressure x).refCount j = s.refCount j := rfl
@[simp] theorem setPressure_episode (x : Bool) (j : Nat) : (s.setPressure x).episode j = s.episode j := rfl
@[simp] theorem setPressure_waiters (x : Bool) (j : Nat) : (s.setPressure x).waiters j = s.waiters j := rfl
@[simp] theorem setPressure_order (x : Bool) (j : Nat) : (s.setPressure x).order j = s.order j := rfl

@[simp] theorem setJoins_channel (x : Nat) (j : Nat) : (s.setJoins x).channel j = s.channel j := rfl
@[simp] theorem setJoins_unit (x : Nat) (j : Nat) : (s.setJoins x).unit j = s.unit j := rfl
@[simp] theorem setJoins_line (x : Nat) (j : Nat) : (s.setJoins x).line j = s.line j := rfl
@[simp] theorem setJoins_request (x : Nat) (j : Nat) : (s.setJoins x).request j = s.request j := rfl
@[simp] theorem setJoins_refCount (x : Nat) (j : Nat) : (s.setJoins x).refCount j = s.refCount j := rfl
@[simp] theorem setJoins_episode (x : Nat) (j : Nat) : (s.setJoins x).episode j = s.episode j := rfl
@[simp] theorem setJoins_waiters (x : Nat) (j : Nat) : (s.setJoins x).waiters j = s.waiters j := rfl
@[simp] theorem setJoins_order (x : Nat) (j : Nat) : (s.setJoins x).order j = s.order j := rfl

@[simp] theorem setEndedInFailed_channel (x : List Nat) (j : Nat) : (s.setEndedInFailed x).channel j = s.channel j := rfl
@[simp] theorem setEndedInFailed_unit (x : List Nat) (j : Nat) : (s.setEndedInFailed x).unit j = s.unit j := rfl
@[simp] theorem setEndedInFailed_line (x : List Nat) (j : Nat) : (s.setEndedInFailed x).line j = s.line j := rfl
@[simp] theorem setEndedInFailed_request (x : List Nat) (j : Nat) : (s.setEndedInFailed x).request j = s.request j := rfl
@[simp] theorem setEndedInFailed_refCount (x : List Nat) (j : Nat) : (s.setEndedInFailed x).refCount j = s.refCount j := rfl
@[simp] theorem setEndedInFailed_episode (x : List Nat) (j : Nat) : (s.setEndedInFailed x).episode j = s.episode j := rfl
@[simp] theorem setEndedInFailed_waiters (x : List Nat) (j : Nat) : (s.setEndedInFailed x).waiters j = s.waiters j := rfl
@[simp] theorem setEndedInFailed_order (x : List Nat) (j : Nat) : (s.setEndedInFailed x).order j = s.order j := rfl

@[simp] theorem setAgenda_channel (x : List Work) (j : Nat) : (s.setAgenda x).channel j = s.channel j := rfl
@[simp] theorem setAgenda_unit (x : List Work) (j : Nat) : (s.setAgenda x).unit j = s.unit j := rfl
@[simp] theorem setAgenda_line (x : List Work) (j : Nat) : (s.setAgenda x).line j = s.line j := rfl
@[simp] theorem setAgenda_request (x : List Work) (j : Nat) : (s.setAgenda x).request j = s.request j := rfl
@[simp] theorem setAgenda_refCount (x : List Work) (j : Nat) : (s.setAgenda x).refCount j = s.refCount j := rfl
@[simp] theorem setAgenda_episode (x : List Work) (j : Nat) : (s.setAgenda x).episode j = s.episode j := rfl
@[simp] theorem setAgenda_waiters (x : List Work) (j : Nat) : (s.setAgenda x).waiters j = s.waiters j := rfl
@[simp] theorem setAgenda_order (x : List Work) (j : Nat) : (s.setAgenda x).order j = s.order j := rfl

@[simp] theorem setChannel_channel (c : Nat) (x : Channel) (j : Nat) : (s.setChannel c x).channel j = if j = c then x else s.channel j := SMap.get_set ..
@[simp] theorem setUnit_unit (u : Nat) (x : UnitRec) (j : Nat) : (s.setUnit u x).unit j = if j = u then x else s.unit j := SMap.get_set ..
@[simp] theorem setLine_line (k : Nat) (x : Line) (j : Nat) : (s.setLine k x).line j = if j = k then x else s.line j := SMap.get_set ..
@[simp] theorem setRequest_request (e : Nat) (x : Option Request) (j : Nat) : (s.setRequest e x).request j = if j = e then x else s.request j := SMap.get_set ..
@[simp] theorem setRef_refCount (slot n : Nat) (j : Nat) : (s.setRef slot n).refCount j = if j = slot then n else s.refCount j := SMap.get_set ..
@[simp] theorem setEpisode_episode (n : Nat) (x : Option Episode) (j : Nat) : (s.setEpisode n x).episode j = if j = n then x else s.episode j := SMap.get_set ..
@[simp] theorem setWaiters_waiters (t : Nat) (l : List Nat) (j : Nat) : (s.setWaiters t l).waiters j = if j = t then l else s.waiters j := SMap.get_set ..
@[simp] theorem setOrder_order (t : Nat) (l : List Nat) (j : Nat) : (s.setOrder t l).order j = if j = t then l else s.order j := SMap.get_set ..
@[simp] theorem updChannel_channel (c : Nat) (f : Channel → Channel) (j : Nat) : (s.updChannel c f).channel j = if j = c then f (s.channel c) else s.channel j := SMap.get_set ..
@[simp] theorem updUnit_unit (u : Nat) (f : UnitRec → UnitRec) (j : Nat) : (s.updUnit u f).unit j = if j = u then f (s.unit u) else s.unit j := SMap.get_set ..
@[simp] theorem updLine_line (k : Nat) (f : Line → Line) (j : Nat) : (s.updLine k f).line j = if j = k then f (s.line k) else s.line j := SMap.get_set ..
@[simp] theorem updRequest_request (e : Nat) (f : Request → Request) (j : Nat) : (s.updRequest e f).request j = if j = e then (s.request e).map f else s.request j := SMap.get_set ..
@[simp] theorem takeRef_refCount (slot : Nat) (j : Nat) : (s.takeRef slot).refCount j = if j = slot then s.refCount slot + 1 else s.refCount j := setRef_refCount ..

@[simp] theorem setPart_part (x : PartState) : (s.setPart x).part = x := rfl
@[simp] theorem setFetch_fetch (x : Option Fetch) : (s.setFetch x).fetch = x := rfl
@[simp] theorem setParams_params (x : Option Params) : (s.setParams x).params = x := rfl
@[simp] theorem setEventSet_eventSet (x : List Nat) : (s.setEventSet x).eventSet = x := rfl
@[simp] theorem setLines_lines (x : SMap Line) : (s.setLines x).lines = x := rfl
@[simp] theorem setStore_store (x : List Host.Cell) : (s.setStore x).store = x := rfl
@[simp] theorem setSlotWait_slotWait (x : List Nat) : (s.setSlotWait x).slotWait = x := rfl
@[simp] theorem setEpisodeWait_episodeWait (x : List Nat) : (s.setEpisodeWait x).episodeWait = x := rfl
@[simp] theorem setDirtyCount_dirtyCount (x : Nat) : (s.setDirtyCount x).dirtyCount = x := rfl
@[simp] theorem setPressure_pressure (x : Bool) : (s.setPressure x).pressure = x := rfl
@[simp] theorem setJoins_joins (x : Nat) : (s.setJoins x).joins = x := rfl
@[simp] theorem setEndedInFailed_endedInFailed (x : List Nat) : (s.setEndedInFailed x).endedInFailed = x := rfl
@[simp] theorem setAgenda_agenda (x : List Work) : (s.setAgenda x).agenda = x := rfl
@[simp] theorem emit_outbox (o : Output) : (s.emit o).outbox = o :: s.outbox := rfl
@[simp] theorem soon_agenda (w : List Work) : (s.soon w).agenda = w ++ s.agenda := rfl
@[simp] theorem later_agenda (w : List Work) : (s.later w).agenda = s.agenda ++ w := rfl
@[simp] theorem touch_order (k j : Nat) :
    (s.touch k).order j = if j = setOfLine k then wayOfLine k :: leaveList (wayOfLine k) (s.order (setOfLine k)) else s.order j := SMap.get_set ..

/-! ### Updates as record updates, for exact next states -/

theorem setChannel_eq (c : Nat) (x : Channel) : s.setChannel c x = { s with channels := SMap.set {} s.channels c x } := rfl
theorem setUnit_eq (u : Nat) (x : UnitRec) : s.setUnit u x = { s with units := SMap.set {} s.units u x } := rfl
theorem setLine_eq (k : Nat) (x : Line) : s.setLine k x = { s with lines := SMap.set {} s.lines k x } := rfl
theorem setRequest_eq (e : Nat) (x : Option Request) : s.setRequest e x = { s with table := SMap.set none s.table e x } := rfl
theorem setRef_eq (slot n : Nat) : s.setRef slot n = { s with refs := SMap.set 0 s.refs slot n } := rfl
theorem setEpisode_eq (n : Nat) (x : Option Episode) : s.setEpisode n x = { s with episodes := SMap.set none s.episodes n x } := rfl
theorem setWaiters_eq (t : Nat) (l : List Nat) : s.setWaiters t l = { s with setWait := SMap.set [] s.setWait t l } := rfl
theorem setOrder_eq (t : Nat) (l : List Nat) : s.setOrder t l = { s with recency := SMap.set initialOrder s.recency t l } := rfl
theorem setPart_eq (x : PartState) : s.setPart x = { s with part := x } := rfl
theorem setFetch_eq (x : Option Fetch) : s.setFetch x = { s with fetch := x } := rfl
theorem setParams_eq (x : Option Params) : s.setParams x = { s with params := x } := rfl
theorem setEventSet_eq (x : List Nat) : s.setEventSet x = { s with eventSet := x } := rfl
theorem setLines_eq (x : SMap Line) : s.setLines x = { s with lines := x } := rfl
theorem setStore_eq (x : List Host.Cell) : s.setStore x = { s with store := x } := rfl
theorem setSlotWait_eq (x : List Nat) : s.setSlotWait x = { s with slotWait := x } := rfl
theorem setEpisodeWait_eq (x : List Nat) : s.setEpisodeWait x = { s with episodeWait := x } := rfl
theorem setDirtyCount_eq (x : Nat) : s.setDirtyCount x = { s with dirtyCount := x } := rfl
theorem setPressure_eq (x : Bool) : s.setPressure x = { s with pressure := x } := rfl
theorem setJoins_eq (x : Nat) : s.setJoins x = { s with joins := x } := rfl
theorem setEndedInFailed_eq (x : List Nat) : s.setEndedInFailed x = { s with endedInFailed := x } := rfl
theorem setAgenda_eq (x : List Work) : s.setAgenda x = { s with agenda := x } := rfl

end Sys2Proof.Machine.State
end

