-- ==== Sys2Proof/Laws/Settle.lean ====
section
/-! SUPPORT. The end of a step: an empty agenda leaves the state alone, and an agenda that runs dry ends the step. -/

namespace Sys2Proof.Machine.State

theorem settle_nil (n : Nat) (s : State) (h : s.agenda = []) : settle n s = s := by
  cases n with
  | zero => rfl
  | succ n => simp [settle, h]

theorem settle_cons (n : Nat) (s : State) (w : Work) (rest : List Work) (h : s.agenda = w :: rest) :
    settle (n + 1) s = settle n (runWork w (s.setAgenda rest)) := by simp [settle, h]

theorem settle_add (n m : Nat) (s : State) : settle (n + m) s = settle m (settle n s) := by
  induction n generalizing s with
  | zero => simp [settle]
  | succ n ih =>
    rw [show n + 1 + m = n + m + 1 by omega]
    cases h : s.agenda with
    | nil => rw [settle_nil _ _ h, settle_nil _ _ h, settle_nil _ _ h]
    | cons w rest => rw [settle_cons _ _ _ _ h, settle_cons _ _ _ _ h, ih]

/-- If the agenda is empty after `n` pieces of work, that is the end of the step. -/
theorem finish_eq (n : Nat) (s : State) (hn : n ≤ Config.settleFuel) (h : (settle n s).agenda = []) : s.finish = settle n s := by
  unfold finish
  rw [show Config.settleFuel = n + (Config.settleFuel - n) by omega, settle_add, settle_nil _ _ h, ← h]; rfl

/-- A step that has set nothing in motion ends as it stands. -/
theorem finish_nil (s : State) (h : s.agenda = []) : s.finish = s := finish_eq 0 s (Nat.zero_le _) h

/-- After every step the agenda is empty. -/
@[simp] theorem finish_agenda (s : State) : s.finish.agenda = [] := rfl

/-- A step that has set one piece of work in motion, which sets no other in motion. -/
theorem finish_one (s : State) (w : Work) (h : s.agenda = [w]) (h' : (runWork w (s.setAgenda [])).agenda = []) :
    s.finish = runWork w (s.setAgenda []) := by
  have h1 : settle 1 s = runWork w (s.setAgenda []) := settle_cons 0 s w [] h
  rw [finish_eq 1 s (by decide) (by rw [h1]; exact h'), h1]

end Sys2Proof.Machine.State
end

