-- ==== Sys2Proof/Laws/Within.lean ====
section
/-! SUPPORT. What the shared operations can do to the part as a whole, said once for each: the relation `Within`, which every operation that
a step sets in motion keeps. It leaves alone the queue, the time, the line store and PC's fields; it moves a channel only forward through its
states; and it keeps every backlog and capped count within its bound. -/

namespace Sys2Proof.Machine

/-- How far a channel has gone from OPEN (R157): OPEN, CLOSING, FENCING, FENCED, CLOSED. -/
def ChannelState.rank : ChannelState → Nat
  | .open => 0 | .closing => 1 | .fencing => 2 | .fenced => 3 | .closed => 4

/-- What work in motion can do to channel `c`'s context: from `x` to `y`. -/
structure Channel.Within (c : Nat) (x y : Channel) : Prop where
  backlog : y.backlog.length ≤ max x.backlog.length (backlogLimit c)
  lost : y.lost ≤ max x.lost Config.lostLimit
  revoke : y.revokeCount ≤ max x.revokeCount Config.revokeCeiling
  admin : c = 0 → x.state = .open ∨ x.state = .closed → y.state = x.state ∧ y.cause = x.cause
  forward : x.state.rank ≤ y.state.rank
  cause : 2 ≤ x.state.rank → y.cause = x.cause
  rings : y.rings = x.rings
  sqHead : y.sqHead = x.sqHead
  sqTail : y.sqTail = x.sqTail
  cqHead : y.cqHead = x.cqHead
  cqTail : y.cqTail = x.cqTail
  phase : y.phase = x.phase
  posted : y.posted = x.posted
  limit : y.limit = x.limit
  interrupt : y.interrupt = x.interrupt
  writing : y.writing = x.writing
  arrivals : y.arrivals = x.arrivals
  holdQuota : y.holdQuota = x.holdQuota
  revokeLimit : y.revokeLimit = x.revokeLimit
  opened : y.opened = x.opened

theorem Channel.Within.refl (c : Nat) (x : Channel) : Channel.Within c x x := by
  constructor <;> first | rfl | exact Nat.le_max_left _ _ | (intros; exact ⟨rfl, rfl⟩) | (intros; rfl)

theorem Channel.Within.trans {c : Nat} {x y z : Channel} (a : Channel.Within c x y) (b : Channel.Within c y z) :
    Channel.Within c x z where
  backlog := by have := a.backlog; have := b.backlog; omega
  lost := by have := a.lost; have := b.lost; omega
  revoke := by have := a.revoke; have := b.revoke; omega
  admin h0 hx := by
    have h1 := a.admin h0 hx
    have h2 := b.admin h0 (by rw [h1.1]; exact hx)
    exact ⟨h2.1.trans h1.1, h2.2.trans h1.2⟩
  forward := Nat.le_trans a.forward b.forward
  cause h := (b.cause (Nat.le_trans h a.forward)).trans (a.cause h)
  rings := b.rings.trans a.rings
  sqHead := b.sqHead.trans a.sqHead
  sqTail := b.sqTail.trans a.sqTail
  cqHead := b.cqHead.trans a.cqHead
  cqTail := b.cqTail.trans a.cqTail
  phase := b.phase.trans a.phase
  posted := b.posted.trans a.posted
  limit := b.limit.trans a.limit
  interrupt := b.interrupt.trans a.interrupt
  writing := b.writing.trans a.writing
  arrivals := b.arrivals.trans a.arrivals
  holdQuota := b.holdQuota.trans a.holdQuota
  revokeLimit := b.revokeLimit.trans a.revokeLimit
  opened := b.opened.trans a.opened

/-- What work in motion can do to the part: from `s` to `t`. -/
structure Within (s t : State) : Prop where
  part : t.part = s.part ∨ s.part = .quiescing ∧ t.part = .quiesced
  failure : t.failure = s.failure
  lastFailure : t.lastFailure = s.lastFailure
  lastRefused : t.lastRefused = s.lastRefused
  bootAddress : t.bootAddress = s.bootAddress
  params : t.params = s.params
  fetch : t.fetch = s.fetch
  lastGranted : t.lastGranted = s.lastGranted
  store : t.store = s.store
  now : t.now = s.now
  pending : t.pending = s.pending
  channel : ∀ c, Channel.Within c (s.channel c) (t.channel c)
  eventSet : ∀ c ∈ t.eventSet, c ∈ s.eventSet
  outbox : ∃ l, t.outbox = l ++ s.outbox

theorem Within.refl (s : State) : Within s s := by
  constructor <;> first | rfl | exact Or.inl rfl | exact fun c => Channel.Within.refl c _ | exact fun _ h => h | exact ⟨[], rfl⟩

theorem Within.trans {s t u : State} (a : Within s t) (b : Within t u) : Within s u where
  part := by
    rcases a.part with h | ⟨h, h'⟩ <;> rcases b.part with g | ⟨g, g'⟩
    · exact .inl (g.trans h)
    · exact .inr ⟨by rw [← h]; exact g, g'⟩
    · exact .inr ⟨h, g.trans h'⟩
    · rw [h'] at g; cases g
  failure := b.failure.trans a.failure
  lastFailure := b.lastFailure.trans a.lastFailure
  lastRefused := b.lastRefused.trans a.lastRefused
  bootAddress := b.bootAddress.trans a.bootAddress
  params := b.params.trans a.params
  fetch := b.fetch.trans a.fetch
  lastGranted := b.lastGranted.trans a.lastGranted
  store := b.store.trans a.store
  now := b.now.trans a.now
  pending := b.pending.trans a.pending
  channel c := (a.channel c).trans (b.channel c)
  eventSet c h := a.eventSet c (b.eventSet c h)
  outbox := by
    obtain ⟨l, hl⟩ := a.outbox; obtain ⟨m, hm⟩ := b.outbox
    exact ⟨m ++ l, by rw [hm, hl, List.append_assoc]⟩

/-- A change that leaves alone everything `Within` looks at. -/
theorem Within.of_eq {s t : State} (part : t.part = s.part) (failure : t.failure = s.failure) (lastFailure : t.lastFailure = s.lastFailure)
    (lastRefused : t.lastRefused = s.lastRefused) (bootAddress : t.bootAddress = s.bootAddress) (params : t.params = s.params)
    (fetch : t.fetch = s.fetch) (lastGranted : t.lastGranted = s.lastGranted) (store : t.store = s.store) (now : t.now = s.now)
    (pending : t.pending = s.pending) (channels : t.channels = s.channels) (eventSet : t.eventSet = s.eventSet)
    (outbox : t.outbox = s.outbox) : Within s t where
  part := .inl part
  failure := failure
  lastFailure := lastFailure
  lastRefused := lastRefused
  bootAddress := bootAddress
  params := params
  fetch := fetch
  lastGranted := lastGranted
  store := store
  now := now
  pending := pending
  channel c := by rw [State.channel, State.channel, channels]; exact .refl c _
  eventSet c h := by rw [← eventSet]; exact h
  outbox := ⟨[], outbox⟩

namespace State

variable {s : State}

/-! ### The updates nearest to the state -/

theorem setLine_within {k : Nat} {x : Line} : Within s (s.setLine k x) := by apply Within.of_eq <;> rfl
theorem setUnit_within {u : Nat} {x : UnitRec} : Within s (s.setUnit u x) := by apply Within.of_eq <;> rfl
theorem setRequest_within {e : Nat} {x : Option Request} : Within s (s.setRequest e x) := by apply Within.of_eq <;> rfl
theorem setRef_within {slot n : Nat} : Within s (s.setRef slot n) := by apply Within.of_eq <;> rfl
theorem setEpisode_within {n : Nat} {x : Option Episode} : Within s (s.setEpisode n x) := by apply Within.of_eq <;> rfl
theorem setWaiters_within {t : Nat} {l : List Nat} : Within s (s.setWaiters t l) := by apply Within.of_eq <;> rfl
theorem setOrder_within {t : Nat} {l : List Nat} : Within s (s.setOrder t l) := by apply Within.of_eq <;> rfl
theorem updLine_within {k : Nat} {f : Line → Line} : Within s (s.updLine k f) := setLine_within
theorem updUnit_within {u : Nat} {f : UnitRec → UnitRec} : Within s (s.updUnit u f) := setUnit_within
theorem updRequest_within {e : Nat} {f : Request → Request} : Within s (s.updRequest e f) := setRequest_within
theorem soon_within {w : List Work} : Within s (s.soon w) := by apply Within.of_eq <;> rfl
theorem later_within {w : List Work} : Within s (s.later w) := by apply Within.of_eq <;> rfl
theorem agenda_within {w : List Work} : Within s { s with agenda := w } := by apply Within.of_eq <;> rfl
theorem slotWait_within {l : List Nat} : Within s { s with slotWait := l } := by apply Within.of_eq <;> rfl
theorem episodeWait_within {l : List Nat} : Within s { s with episodeWait := l } := by apply Within.of_eq <;> rfl
theorem joins_within {n : Nat} : Within s { s with joins := n } := by apply Within.of_eq <;> rfl
theorem lines_within {l : SMap Line} : Within s { s with lines := l } := by apply Within.of_eq <;> rfl
theorem touch_within {k : Nat} : Within s (s.touch k) := setOrder_within
theorem park_within {e : Nat} {w : WaitList} : Within s (s.park e w) := updRequest_within

theorem emit_within {o : Output} : Within s (s.emit o) where
  part := .inl rfl
  failure := rfl
  lastFailure := rfl
  lastRefused := rfl
  bootAddress := rfl
  params := rfl
  fetch := rfl
  lastGranted := rfl
  store := rfl
  now := rfl
  pending := rfl
  channel c := .refl c _
  eventSet _ h := h
  outbox := ⟨[o], rfl⟩

theorem updChannel_within {c : Nat} {f : Channel → Channel} (h : Channel.Within c (s.channel c) (f (s.channel c))) :
    Within s (s.updChannel c f) where
  part := .inl rfl
  failure := rfl
  lastFailure := rfl
  lastRefused := rfl
  bootAddress := rfl
  params := rfl
  fetch := rfl
  lastGranted := rfl
  store := rfl
  now := rfl
  pending := rfl
  channel d := by
    rw [updChannel_channel]; split
    · next hd => subst hd; exact h
    · exact .refl d _
  eventSet _ h := h
  outbox := ⟨[], rfl⟩

/-- A change of a channel context that no bound or state depends on, and that shortens its backlog if it changes it. -/
theorem neutral {c : Nat} {x y : Channel} (backlog : y.backlog.length ≤ x.backlog.length) (lost : y.lost = x.lost)
    (revoke : y.revokeCount = x.revokeCount) (state : y.state = x.state) (cause : y.cause = x.cause)
    (rings : y.rings = x.rings) (sqHead : y.sqHead = x.sqHead) (sqTail : y.sqTail = x.sqTail) (cqHead : y.cqHead = x.cqHead)
    (cqTail : y.cqTail = x.cqTail) (phase : y.phase = x.phase) (posted : y.posted = x.posted) (limit : y.limit = x.limit)
    (interrupt : y.interrupt = x.interrupt) (writing : y.writing = x.writing) (arrivals : y.arrivals = x.arrivals)
    (holdQuota : y.holdQuota = x.holdQuota) (revokeLimit : y.revokeLimit = x.revokeLimit) (opened : y.opened = x.opened) :
    Channel.Within c x y where
  backlog := Nat.le_trans backlog (Nat.le_max_left _ _)
  lost := by rw [lost]; exact Nat.le_max_left _ _
  revoke := by rw [revoke]; exact Nat.le_max_left _ _
  admin _ _ := ⟨state, cause⟩
  forward := by rw [state]
  cause _ := cause
  rings := rings
  sqHead := sqHead
  sqTail := sqTail
  cqHead := cqHead
  cqTail := cqTail
  phase := phase
  posted := posted
  limit := limit
  interrupt := interrupt
  writing := writing
  arrivals := arrivals
  holdQuota := holdQuota
  revokeLimit := revokeLimit
  opened := opened

theorem inOrder_within {f : State → State} (h : ∀ t, Within t (f t)) : Within s (s.inOrder f) :=
  (agenda_within.trans (h _)).trans agenda_within

theorem forEach_within {α : Type} {l : List α} {f : α → State → State} (h : ∀ a t, Within t (f a t)) : Within s (s.forEach l f) := by
  unfold forEach
  induction l generalizing s with
  | nil => exact .refl s
  | cons a l ih => exact (inOrder_within (h a)).trans ih

theorem foldl_within {α : Type} {l : List α} {f : State → α → State} (h : ∀ t a, Within t (f t a)) : Within s (l.foldl f s) := by
  induction l generalizing s with
  | nil => exact .refl s
  | cons a l ih => exact (h s a).trans ih

/-! ### Ops -/

theorem takeRef_within {slot : Nat} : Within s (s.takeRef slot) := setRef_within

theorem dropRef_within {slot : Nat} : Within s (s.dropRef slot) := by
  unfold dropRef; split
  · split
    · exact setRef_within
    · exact (slotWait_within.trans setRef_within).trans soon_within
  · exact setRef_within

theorem dropSlot_within {slot : Option Nat} : Within s (s.dropSlot slot) := by
  cases slot with
  | none => exact .refl s
  | some _ => exact dropRef_within

theorem noteEvictable_within {k : Nat} : Within s (s.noteEvictable k) := by
  unfold noteEvictable; split
  · exact .refl s
  · exact later_within

theorem noteServe_within {k : Nat} : Within s (s.noteServe k) := by
  unfold noteServe; split
  · exact .refl s
  · exact later_within

theorem noteDrain_within {c : Nat} : Within s (s.noteDrain c) := by
  unfold noteDrain; split
  all_goals first | exact later_within | exact .refl s

theorem noteQuiesce_within : Within s s.noteQuiesce := by
  unfold noteQuiesce; split
  · exact later_within
  · exact .refl s

theorem noteDiscard_within {u : Nat} : Within s (s.noteDiscard u) := by
  unfold noteDiscard; split
  · exact later_within
  · exact .refl s

theorem noteDone_within {c : Nat} : Within s (s.noteDone c) := by
  unfold noteDone; split
  · exact later_within
  · exact .refl s

theorem comparePressure_within : Within s s.comparePressure := by
  unfold comparePressure; split
  · exact .refl s
  · split <;> split <;> first | exact .refl s | (apply Within.of_eq <;> rfl)

theorem leaveFlushList_within {k : Nat} {o n : Line} : Within s (s.leaveFlushList k o n) := by
  unfold leaveFlushList; split
  · split
    · exact updUnit_within
    · exact .refl s
  · exact .refl s

theorem joinFlushList_within {k : Nat} {o n : Line} : Within s (s.joinFlushList k o n) := by
  unfold joinFlushList; split
  · split
    · exact updUnit_within.trans later_within
    · exact .refl s
  · exact .refl s

theorem countStranded_within {o n : Line} : Within s (s.countStranded o n) := by
  unfold countStranded; split
  · split
    · exact updUnit_within
    · exact .refl s
  · split
    · split
      · exact updUnit_within
      · exact .refl s
    · exact .refl s

theorem countDirty_within {o n : Line} : Within s (s.countDirty o n) := by
  unfold countDirty; split
  · refine Within.trans ?_ comparePressure_within; apply Within.of_eq <;> rfl
  · refine Within.trans ?_ comparePressure_within; apply Within.of_eq <;> rfl
  · exact .refl s
  · exact .refl s

theorem putLine_within {k : Nat} {x : Line} : Within s (s.putLine k x) := by
  unfold putLine
  have h := (((setLine_within (s := s) (k := k) (x := x)).trans (leaveFlushList_within (k := k) (o := s.line k) (n := x))).trans
    (joinFlushList_within (k := k) (o := s.line k) (n := x))).trans (countStranded_within (o := s.line k) (n := x))
  have h := h.trans (countDirty_within (o := s.line k) (n := x))
  dsimp only; split
  · exact h.trans noteQuiesce_within
  · exact h

theorem freeLine_within {k : Nat} : Within s (s.freeLine k) := (putLine_within.trans dropSlot_within).trans dropSlot_within

theorem freeEntry_within {e : Nat} : Within s (s.freeEntry e) := by
  unfold freeEntry; split
  · exact .refl s
  · next r _ =>
    have h : Within s (((s.setRequest e none).updChannel r.channel (fun x => { x with inFlight := x.inFlight - 1 })).noteDrain r.channel) :=
      (setRequest_within.trans (updChannel_within (by apply neutral <;> rfl))).trans noteDrain_within
    dsimp only; split
    · split
      · exact h.trans noteQuiesce_within
      · exact h
    · exact h

theorem discardRecord_within {e : Nat} : Within s (s.discardRecord e) := by
  unfold discardRecord; split
  · exact .refl s
  · exact (updChannel_within (by apply neutral <;> rfl)).trans freeEntry_within

theorem complete_within {e : Nat} {x : Completion} : Within s (s.complete e x) := by
  unfold complete; split
  · exact .refl s
  · split
    · exact .refl s
    · dsimp only; split
      · exact (setRequest_within.trans discardRecord_within).trans noteDone_within
      · exact (setRequest_within.trans (updChannel_within (by apply neutral <;> rfl))).trans noteDone_within

/-! ### Holds -/

theorem endWritePhase_within {k : Nat} : Within s (s.endWritePhase k) :=
  (updLine_within.trans noteServe_within).trans noteEvictable_within

theorem startWriteTransfer_within {e slot : Nat} : Within s (s.startWriteTransfer e slot) := by
  unfold startWriteTransfer; split
  · exact .refl s
  · exact setRequest_within.trans emit_within

theorem proceed_within {e : Nat} : Within s (s.proceed e) := by
  unfold proceed; split
  · exact takeRef_within.trans startWriteTransfer_within
  · exact slotWait_within.trans park_within

theorem withdrawRecalls_within {n : Nat} {l : List Nat} : Within s (s.withdrawRecalls n l) :=
  foldl_within fun _ _ => updChannel_within (by apply neutral <;> first | rfl | exact List.length_filter_le _ _)

theorem freeEpisode_within {n : Nat} : Within s (s.freeEpisode n) := by
  unfold freeEpisode; split
  · exact .refl s
  · next ep _ =>
    have h : Within s (((s.setEpisode n none).updLine ep.line (fun x => { x with episode := none })).withdrawRecalls n ep.recalled) :=
      (setEpisode_within.trans updLine_within).trans withdrawRecalls_within
    dsimp only; split
    · exact h
    · exact h.trans later_within

theorem closeEpisode_within {n : Nat} : Within s (s.closeEpisode n) := by
  unfold closeEpisode; split
  · exact .refl s
  · exact freeEpisode_within.trans proceed_within

theorem episodeCheck_within {n : Nat} : Within s (s.episodeCheck n) := by
  unfold episodeCheck; split
  · exact .refl s
  · split
    · exact closeEpisode_within
    · exact .refl s

theorem episodeWaitCheck_within {k : Nat} : Within s (s.episodeWaitCheck k) := by
  unfold episodeWaitCheck; split
  · exact .refl s
  · split
    · exact .refl s
    · split
      · exact episodeWait_within.trans proceed_within
      · exact .refl s

theorem leavePending_within {c : Nat} {n : Option Nat} : Within s (s.leavePending c n) := by
  unfold leavePending; split
  · exact .refl s
  · split
    · exact .refl s
    · split
      · exact setEpisode_within.trans later_within
      · exact .refl s

theorem dropHold_within {c k : Nat} : Within s (s.dropHold c k) := by
  unfold dropHold; dsimp only
  refine Within.trans ?_ noteEvictable_within
  have h := ((updLine_within (s := s) (k := k) (f := fun x => { x with holders := leaveList c x.holders })).trans
    (updChannel_within (c := c) (f := fun x => { x with holdCount := x.holdCount - 1 })
      (by apply neutral <;> rfl))).trans (leavePending_within (c := c) (n := (s.line k).episode))
  split
  · split
    · exact h.trans later_within
    · exact h
  · exact h

theorem dropAllHolds_within {c : Nat} : Within s (s.dropAllHolds c) := forEach_within fun _ _ => dropHold_within

theorem applyHold_within {c k : Nat} {h : Hold} : Within s (s.applyHold c k h) := by
  unfold applyHold; split
  · exact .refl s
  · exact .refl s
  · exact updLine_within.trans (updChannel_within (by apply neutral <;> rfl))

/-! ### Ending, fences, notices, episodes -/

theorem leaveLineList_within {e k : Nat} : Within s (s.leaveLineList e k) := by
  unfold leaveLineList; dsimp only
  refine Within.trans ?_ noteEvictable_within
  split
  · exact updLine_within.trans noteServe_within
  · exact updLine_within

theorem depart_within {e : Nat} {r : Request} : Within s (s.depart e r) := by
  unfold depart; split
  · exact .refl s
  · exact .refl s
  · exact .refl s
  · exact setWaiters_within
  · dsimp only; split
    · exact slotWait_within.trans endWritePhase_within
    · exact slotWait_within
  · split
    · exact leaveLineList_within
    · exact .refl s
  · split
    · exact freeEpisode_within.trans endWritePhase_within
    · exact freeEpisode_within
  · dsimp only; split
    · exact episodeWait_within.trans endWritePhase_within
    · exact episodeWait_within
  · exact updUnit_within
  · exact updUnit_within
  · exact updChannel_within (by apply neutral <;> rfl)

theorem endParked_within {e : Nat} {st : Status} : Within s (s.endParked e st) := by
  unfold endParked; split
  · exact .refl s
  · split
    · exact depart_within.trans complete_within
    · exact .refl s

theorem endAllParked_within {p : Request → Bool} {st : Status} : Within s (s.endAllParked p st) :=
  forEach_within fun _ _ => endParked_within

theorem enterPostError_within {c : Nat} : Within s (s.enterPostError c) :=
  (updChannel_within (by apply neutral <;> rfl)).trans (forEach_within fun _ _ => discardRecord_within)

theorem stopService_within {c : Nat} {st : Status} : Within s (s.stopService c st) :=
  (dropAllHolds_within.trans (updChannel_within (by apply neutral <;> first | rfl | exact Nat.zero_le _))).trans endAllParked_within

/-- A channel that leaves OPEN or CLOSING for FENCING. -/
theorem fencing_within {c : Nat} {x : Channel} {cause : FenceCause} {pend : Bool} (hc : c ≠ 0)
    (h : x.state = .open ∨ x.state = .closing) : Channel.Within c x { x with state := .fencing, cause, closePending := pend } where
  backlog := Nat.le_max_left _ _
  lost := Nat.le_max_left _ _
  revoke := Nat.le_max_left _ _
  admin h0 := absurd h0 hc
  forward := by
    show _ ≤ 2
    rcases h with h | h <;> rw [h] <;> decide
  cause h2 := by rcases h with h | h <;> rw [h] at h2 <;> exact absurd h2 (by decide)
  rings := rfl
  sqHead := rfl
  sqTail := rfl
  cqHead := rfl
  cqTail := rfl
  phase := rfl
  posted := rfl
  limit := rfl
  interrupt := rfl
  writing := rfl
  arrivals := rfl
  holdQuota := rfl
  revokeLimit := rfl
  opened := rfl

/-- A fence leaves every channel within its bounds. -/
theorem fence_within {c : Nat} {cause : FenceCause} : Within s (s.fence c cause) := by
  unfold fence; split
  · exact .refl s
  · next hc =>
    split
    · next ho =>
      have h : Within s ((s.updChannel c (fun x => { x with state := .fencing, cause })).stopService c .fenced) :=
        (updChannel_within (fencing_within hc (.inl ho))).trans stopService_within
      dsimp only; split
      · exact (h.trans enterPostError_within).trans noteDrain_within
      · exact h.trans noteDrain_within
    · next ho =>
      split
      · have h : Within s (s.updChannel c (fun x => { x with state := .fencing, cause, closePending := true })) :=
          updChannel_within (fencing_within hc (.inr ho))
        dsimp only; split
        · exact (h.trans enterPostError_within).trans noteDrain_within
        · exact h.trans noteDrain_within
      · exact .refl s
    · split
      · exact enterPostError_within.trans noteDrain_within
      · exact .refl s
    · exact .refl s
    · exact .refl s

/-- A notice leaves every backlog within its bound. -/
theorem queueNotice_within {c : Nat} {n : Notice} : Within s (s.queueNotice c n) := by
  unfold queueNotice; split
  · exact .refl s
  · split
    · next hlt =>
      refine updChannel_within { Channel.Within.refl c (s.channel c) with backlog := ?_ }
      simp only [List.length_append, List.length_singleton]
      exact Nat.le_trans hlt (Nat.le_max_right _ _)
    · split
      · next hc =>
        subst hc
        refine updChannel_within { Channel.Within.refl 0 (s.channel 0) with lost := ?_ }
        exact Nat.le_trans (Nat.min_le_left _ _) (Nat.le_max_right _ _)
      · exact fence_within

theorem queueToEach_within {l : List Nat} {n : Notice} : Within s (s.queueToEach l n) := forEach_within fun _ _ => queueNotice_within

theorem openEpisode_within {e k n : Nat} {r : Request} {l : List Nat} : Within s (s.openEpisode e k n r l) :=
  (((setEpisode_within.trans updLine_within).trans park_within).trans queueToEach_within).trans episodeCheck_within

theorem takeWriter_within {e k : Nat} : Within s (s.takeWriter e k) := by
  unfold takeWriter; split
  · exact .refl s
  · dsimp only; split
    · exact proceed_within
    · split
      · exact openEpisode_within
      · exact episodeWait_within.trans park_within

theorem episodeFreed_within : Within s s.episodeFreed := by
  unfold episodeFreed; split
  · exact .refl s
  · split
    · split
      · dsimp only; split
        · exact (episodeWait_within.trans proceed_within).trans soon_within
        · exact episodeWait_within.trans takeWriter_within
      · exact .refl s
    · exact .refl s

theorem becomeWriter_within {e k : Nat} : Within s (s.becomeWriter e k) :=
  (updLine_within.trans updRequest_within).trans takeWriter_within

theorem revoke_within {n c : Nat} {ep : Episode} : Within s (s.revoke n ep c) := by
  unfold revoke; dsimp only
  have h : Within s ((s.dropHold c ep.line).queueNotice c (.revoked ep.key n)) := dropHold_within.trans queueNotice_within
  have h' := h.trans (updChannel_within (c := c)
    (f := fun x => { x with revokeCount := min Config.revokeCeiling ((((s.dropHold c ep.line).queueNotice c (.revoked ep.key n)).channel c).revokeCount + 1) })
    { Channel.Within.refl c _ with revoke := Nat.le_trans (Nat.min_le_left _ _) (Nat.le_max_right _ _) })
  split
  · exact h'.trans fence_within
  · exact h'

theorem expireEpisode_within {n : Nat} : Within s (s.expireEpisode n) := by
  unfold expireEpisode; split
  · exact .refl s
  · exact forEach_within fun _ _ => revoke_within

/-! ### The directory -/

theorem startRead_within {e k : Nat} : Within s (s.startRead e k) := by
  unfold startRead; split
  · exact (takeRef_within.trans setRequest_within).trans touch_within
  · exact .refl s
  · exact .refl s

theorem joinLine_within {e k : Nat} : Within s (s.joinLine e k) := updLine_within.trans updRequest_within

theorem arrive_within {e k : Nat} : Within s (s.arrive e k) := by
  unfold arrive; dsimp only; split
  · split
    · exact joinLine_within
    · exact startRead_within
  · split
    · exact joinLine_within
    · exact becomeWriter_within
  · exact .refl s

theorem serveList_within {k : Nat} {l : List Nat} : Within s (serveList k l s) := by
  induction l generalizing s with
  | nil => exact updLine_within
  | cons e l ih =>
    unfold serveList; dsimp only; split
    · exact (updLine_within.trans startRead_within).trans ih
    · exact updLine_within.trans becomeWriter_within
    · exact updLine_within.trans ih

theorem serveLine_within {k : Nat} : Within s (s.serveLine k) := by
  unfold serveLine; dsimp only; split
  · exact .refl s
  · exact serveList_within

theorem joinSetWait_within {e : Nat} {r : Request} : Within s (s.joinSetWait e r) := by
  unfold joinSetWait; dsimp only; split
  · exact (setWaiters_within.trans setRequest_within).trans joins_within
  · split
    · exact complete_within
    · exact setWaiters_within.trans park_within

theorem moveSameKey_within {t k : Nat} {key : Key} : Within s (s.moveSameKey t k key) :=
  setWaiters_within.trans (foldl_within fun _ _ => joinLine_within.trans updRequest_within)

theorem claimFill_within {e k slot : Nat} {r : Request} : Within s (s.claimFill e k slot r) :=
  (((((putLine_within.trans setRef_within).trans setRequest_within).trans touch_within).trans updUnit_within).trans later_within).trans
    moveSameKey_within

theorem claimLoad_within {e k slot : Nat} {r : Request} : Within s (s.claimLoad e k slot r) :=
  ((((putLine_within.trans setRef_within).trans setRequest_within).trans startWriteTransfer_within).trans touch_within).trans
    moveSameKey_within

theorem claim_within {e k slot : Nat} {r : Request} : Within s (s.claim e k slot r) := by
  unfold claim; split
  · exact claimFill_within
  · exact claimLoad_within

theorem allocate_within {e : Nat} {hand : Option Nat} {r : Request} : Within s (s.allocate e hand r) := by
  unfold allocate; dsimp only; split
  · exact complete_within.trans dropSlot_within
  · split
    · exact claim_within
    · split
      · split
        · exact (putLine_within.trans claim_within).trans dropSlot_within
        · exact dropSlot_within
      · split
        · exact slotWait_within.trans park_within
        · exact joinSetWait_within.trans dropSlot_within

theorem toDirectory_within {e : Nat} {hand : Option Nat} : Within s (s.toDirectory e hand) := by
  unfold toDirectory; split
  · exact dropSlot_within
  · split
    · exact arrive_within.trans dropSlot_within
    · exact allocate_within

theorem redispatch_within {e : Nat} : Within s (s.redispatch e) := updRequest_within.trans toDirectory_within

theorem reattempt_within {t : Nat} : Within s (s.reattempt t) := by
  unfold reattempt; split
  · exact .refl s
  · split
    · exact setWaiters_within.trans soon_within
    · split
      · exact (setWaiters_within.trans soon_within).trans allocate_within
      · exact .refl s

theorem evictCheck_within {k : Nat} : Within s (s.evictCheck k) := by
  unfold evictCheck; split
  · exact reattempt_within
  · exact .refl s

theorem slotGiven_within {e slot : Nat} : Within s (s.slotGiven e slot) := by
  unfold slotGiven; split
  · exact dropRef_within
  · split
    · exact dropRef_within
    · split
      · exact startWriteTransfer_within
      · exact toDirectory_within

theorem unparkAll_within {l : List Nat} : Within s (s.unparkAll l) := foldl_within fun _ _ => updRequest_within

theorem fillOutcome_within {k : Nat} {st : Status} {m : Mark} : Within s (s.fillOutcome k st m) := by
  unfold fillOutcome; dsimp only; split
  · exact .refl s
  · split
    · exact ((putLine_within.trans touch_within).trans serveLine_within).trans noteEvictable_within
    · exact (unparkAll_within.trans soon_within).trans freeLine_within

theorem handOn_within {e : Nat} {st : Status} : Within s (s.handOn e st) := by
  unfold handOn; split
  · exact complete_within
  · exact redispatch_within
  · exact .refl s

theorem endAwaited_within {u e : Nat} : Within s (s.endAwaited u e) := by
  unfold endAwaited; split
  · exact .refl s
  · split
    · dsimp only; split
      · exact updUnit_within.trans later_within
      · exact updUnit_within
    · exact .refl s

theorem noteTransferEnd_within {e u : Nat} : Within s (s.noteTransferEnd e u) := endAwaited_within.trans noteDiscard_within

theorem readComplete_within {e k slot : Nat} {r : Request} : Within s (s.readComplete e r k slot) :=
  ((applyHold_within.trans soon_within).trans dropRef_within).trans noteTransferEnd_within

theorem readError_within {e k slot : Nat} {r : Request} : Within s (s.readError e r k slot) :=
  (soon_within.trans dropRef_within).trans noteTransferEnd_within

theorem swap_within {k slot : Nat} {e : Epoch} : Within s (s.swap k slot e) := by
  unfold swap; dsimp only; split
  · exact (putLine_within.trans touch_within).trans dropRef_within
  · exact (putLine_within.trans touch_within).trans dropSlot_within

/-- A WRITE's data goes into the store; all else is within. -/
theorem writeComplete_within {e k slot : Nat} {r : Request} {data : List Byte} :
    Within { s with store := Memory.writeBytes s.store (slot * Config.slotBytes) (data.take Config.slotBytes) }
      (s.writeComplete e r k slot data) := (soon_within.trans swap_within).trans noteTransferEnd_within

theorem afterSwap_within {e : Nat} : Within s (s.afterSwap e) := by
  unfold afterSwap; split
  · exact .refl s
  · split
    · exact .refl s
    · exact ((applyHold_within.trans complete_within).trans updLine_within).trans serveLine_within

/-- What came of a WRITE's data goes into the store; all else is within. -/
theorem writeError_within {e k slot : Nat} {r : Request} {placed : List Byte} :
    Within { s with store := Memory.writeBytes s.store (slot * Config.slotBytes) (placed.take Config.slotBytes) }
      (s.writeError e r k slot placed) := by
  unfold writeError; dsimp only; split
  · exact (((unparkAll_within.trans soon_within).trans dropRef_within).trans freeLine_within).trans noteTransferEnd_within
  · exact (soon_within.trans dropRef_within).trans noteTransferEnd_within

/-! ### Write-back -/

theorem flushOutcome_within {k : Nat} {st : Status} : Within s (s.flushOutcome k st) := by
  unfold flushOutcome; dsimp only; split
  · exact (soon_within.trans putLine_within).trans dropSlot_within
  · exact .refl s

theorem noteStranded_within {k : Nat} {st : Status} : Within s (s.noteStranded k st) := by
  unfold noteStranded; dsimp only; split
  · exact queueNotice_within
  · exact .refl s

theorem retestList_within {u : Nat} {l : List Barrier} : Within s (retestList u l s) := by
  induction l generalizing s with
  | nil => exact .refl s
  | cons b l ih =>
    unfold retestList; split
    · exact .refl s
    · exact (updUnit_within.trans complete_within).trans ih

theorem retest_within {u : Nat} : Within s (s.retest u) := retestList_within

theorem adjustEpochs_within {u : Nat} : Within s (s.adjustEpochs u) := by
  unfold adjustEpochs
  exact updUnit_within.trans lines_within

theorem takeFlush_within {e u : Nat} : Within s (s.takeFlush e u) := by
  unfold takeFlush; dsimp only; split
  · exact ((updUnit_within.trans adjustEpochs_within).trans updUnit_within).trans park_within
  · exact (updUnit_within.trans adjustEpochs_within).trans complete_within

/-! ### The sequencers -/

theorem updOp_within {u : Nat} {f : Operation → Operation} : Within s (s.updOp u f) := updUnit_within
theorem setDeadline_within {u : Nat} : Within s (s.setDeadline u) := updOp_within
theorem enter_within {u : Nat} {q : SeqState} : Within s (s.enter u q) := updUnit_within.trans setDeadline_within
theorem loseHead_within {u : Nat} : Within s (s.loseHead u) := updUnit_within

theorem closeGate_within {u : Nat} : Within s (s.closeGate u) := by
  unfold closeGate; split
  · exact updUnit_within.trans emit_within
  · exact .refl s

theorem report_within {u : Nat} {op : Operation} {st : Status} {m : Mark} : Within s (s.report u op st m) := by
  unfold report; split
  · exact soon_within
  · exact soon_within
  · split
    · exact updRequest_within.trans soon_within
    · exact soon_within

theorem endOp_within {u : Nat} {st : Status} {m : Mark} : Within s (s.endOp u st m) := by
  unfold endOp; split
  · exact .refl s
  · dsimp only; split
    · exact closeGate_within.trans updUnit_within
    · exact ((closeGate_within.trans updUnit_within).trans report_within).trans noteDiscard_within

theorem seekError_within {u : Nat} : Within s (s.seekError u) := loseHead_within.trans endOp_within
theorem startHoming_within {u : Nat} : Within s (s.startHoming u) := (updUnit_within.trans enter_within).trans emit_within
theorem startMove_within {u t : Nat} : Within s (s.startMove u t) := (updUnit_within.trans enter_within).trans emit_within
theorem startVerify_within {u : Nat} : Within s (s.startVerify u) := updOp_within.trans enter_within

theorem startSearch_within {u : Nat} {op : Operation} : Within s (s.startSearch u op) := by
  unfold startSearch; split <;> exact updOp_within.trans enter_within

theorem beginOp_within {u : Nat} {op : Operation} : Within s (s.beginOp u op) := by
  unfold beginOp; dsimp only
  have h : Within s (if (s.unit u).selectedSurface = some op.surface then s
    else (s.updUnit u (fun y => { y with selectedSurface := some op.surface })).emit (.select u op.surface)) := by
    split
    · exact .refl s
    · exact updUnit_within.trans emit_within
  split
  · exact h.trans startHoming_within
  · split
    · exact h.trans startMove_within
    · split
      · exact h.trans startVerify_within
      · exact h.trans startSearch_within

theorem countSample_within : Within s s.countSample := by apply Within.of_eq <;> rfl

theorem startFlush_within {u : Nat} {f : FlushEntry} {sw : Sweep} : Within s (s.startFlush u f sw) := by
  have h : Within s (match (s.line f.line).currentSlot with
      | some slot => (s.putLine f.line { s.line f.line with state := .flushing, flushSource := (s.line f.line).currentSlot }).takeRef slot
      | none => s.putLine f.line { s.line f.line with state := .flushing, flushSource := (s.line f.line).currentSlot }) := by
    split
    · exact putLine_within.trans takeRef_within
    · exact putLine_within
  unfold startFlush; dsimp only; split
  · exact ((h.trans updUnit_within).trans countSample_within).trans endOp_within
  · exact (((h.trans updUnit_within).trans countSample_within).trans updUnit_within).trans beginOp_within

theorem startFill_within {u k : Nat} {l : List Nat} : Within s (s.startFill u k l) := updUnit_within.trans beginOp_within

theorem startSurvey_within {u e : Nat} {l : List Nat} : Within s (s.startSurvey u e l) := by
  unfold startSurvey; split
  · exact updUnit_within
  · exact (updUnit_within.trans updRequest_within).trans beginOp_within

theorem select_within {u : Nat} : Within s (s.select u) := by
  unfold select; dsimp only; split
  · split
    · exact startFlush_within
    · split
      · exact startFill_within
      · exact startSurvey_within
      · split
        · exact startFlush_within
        · exact .refl s
  · exact .refl s

theorem seeHeader_within {u : Nat} {h : Header} : Within s (s.seeHeader u h) := by
  unfold seeHeader; split
  · exact updUnit_within
  · exact .refl s

theorem writeField_within {u k : Nat} : Within s (s.writeField u k) := (updUnit_within.trans enter_within).trans emit_within

theorem examine_within {u : Nat} {o : Operation} {h : Header} : Within s (s.examine u o h) := by
  unfold examine; dsimp only; split
  · split
    · split
      · exact (seeHeader_within.trans updOp_within).trans enter_within
      · exact seeHeader_within.trans writeField_within
      · exact seeHeader_within.trans setDeadline_within
    · exact (seeHeader_within.trans updOp_within).trans setDeadline_within
  · exact seeHeader_within.trans setDeadline_within

theorem resumeSearch_within {u : Nat} {h : Option Header} : Within s (s.resumeSearch u h) := by
  unfold resumeSearch; split
  · exact .refl s
  · split
    · exact endOp_within
    · dsimp only; split
      · exact (updOp_within.trans enter_within).trans examine_within
      · exact updOp_within.trans enter_within

theorem badRead_within {u : Nat} {h : Option Header} : Within s (s.badRead u h) := by
  unfold badRead; split
  · exact .refl s
  · dsimp only; split
    · exact updOp_within.trans endOp_within
    · exact updOp_within.trans resumeSearch_within

/-- The data bytes an event brings go into the store; all else is within. -/
theorem takeData_within {u : Nat} {bs : List Byte} :
    ∃ m, (Memory.wf s.store = true → Memory.wf m = true) ∧ Within { s with store := m } (s.takeData u bs) := by
  unfold takeData; split
  · exact ⟨s.store, id, .refl s⟩
  · split
    · exact ⟨_, Memory.wf_writeBytes _ _ _, updOp_within⟩
    · exact ⟨s.store, id, .refl s⟩
    · exact ⟨s.store, id, .refl s⟩
    · exact ⟨s.store, id, .refl s⟩

theorem onArrived_within {u : Nat} : Within s (s.onArrived u) := by
  unfold onArrived; split
  · exact updUnit_within.trans startVerify_within
  · exact .refl s

theorem onHomeFound_within {u : Nat} : Within s (s.onHomeFound u) := by
  unfold onHomeFound; split
  · dsimp only; split
    · exact updUnit_within.trans startVerify_within
    · exact updUnit_within.trans startMove_within
  · exact .refl s

theorem onPositionFault_within {u : Nat} : Within s (s.onPositionFault u) := seekError_within

theorem onIndex_within {u : Nat} : Within s (s.onIndex u) := by
  unfold onIndex; split
  · exact .refl s
  · dsimp only; split
    · exact .refl s
    · exact .refl s
    · exact .refl s
    · split
      · exact updOp_within.trans seekError_within
      · exact updOp_within.trans setDeadline_within
    · split
      · exact updOp_within.trans endOp_within
      · exact updOp_within.trans setDeadline_within
    · split
      · split
        · split
          · exact updOp_within.trans badRead_within
          · exact updOp_within.trans resumeSearch_within
        · exact updOp_within.trans setDeadline_within
      · exact .refl s
      · exact .refl s
    · split
      · exact endOp_within
      · exact updOp_within.trans setDeadline_within

theorem verifyHeader_within {u : Nat} {o : Operation} {h : Header} : Within s (s.verifyHeader u o h) := by
  unfold verifyHeader; split
  · exact .refl s
  · split
    · dsimp only; split
      · exact (updUnit_within.trans startSearch_within).trans examine_within
      · exact (updUnit_within.trans startSearch_within).trans examine_within
      · exact updUnit_within.trans startSearch_within
    · split
      · exact seekError_within
      · exact updOp_within.trans startHoming_within

theorem onHeader_within {u : Nat} {h : Header} : Within s (s.onHeader u h) := by
  unfold onHeader; split
  · exact seeHeader_within
  · exact verifyHeader_within
  · exact examine_within
  · split
    · split
      · exact badRead_within
      · exact resumeSearch_within
    · exact .refl s
    · exact .refl s
  · exact (seeHeader_within.trans updOp_within).trans setDeadline_within
  · exact .refl s

theorem onDataMark_within {u : Nat} {m : Mark} : Within s (s.onDataMark u m) := by
  unfold onDataMark; split
  · split
    · split
      · exact badRead_within
      · exact updOp_within.trans setDeadline_within
    · exact .refl s
    · exact .refl s
  · exact .refl s

theorem onDataEnd_within {u : Nat} {c : BitVec 16} : Within s (s.onDataEnd u c) := by
  unfold onDataEnd; split
  · split
    · split
      · exact endOp_within
      · exact badRead_within
    · exact .refl s
  · exact .refl s

theorem onWriteAnswer_within {u : Nat} {st : Status} : Within s (s.onWriteAnswer u st) := by
  unfold onWriteAnswer; split
  · split
    · exact endOp_within
    · exact .refl s
    · exact .refl s
  · exact .refl s

theorem tellFall_within {u : Nat} {fills surveys : List Nat} : Within s (s.tellFall u fills surveys) := by
  unfold tellFall; split
  · exact .refl s
  · exact soon_within

theorem fallFromReady_within {u : Nat} : Within s (s.fallFromReady u) :=
  (((updUnit_within.trans tellFall_within).trans endOp_within).trans updUnit_within).trans noteQuiesce_within

theorem onReadyFall_within {u : Nat} : Within s (s.onReadyFall u) := by
  unfold onReadyFall; dsimp only; split
  · exact updUnit_within.trans fallFromReady_within
  · exact updUnit_within

theorem onReadyRise_within {u : Nat} : Within s (s.onReadyRise u) := by
  unfold onReadyRise; dsimp only; split
  · exact updUnit_within
  · split
    · exact ((updUnit_within.trans updUnit_within).trans queueNotice_within).trans later_within
    · exact updUnit_within

theorem expireResponse_within {u : Nat} : Within s (s.expireResponse u) := by
  unfold expireResponse; split
  · exact .refl s
  · split
    · exact seekError_within
    · exact .refl s

theorem takeSurvey_within {e u : Nat} : Within s (s.takeSurvey e u) := by
  unfold takeSurvey; split
  · exact complete_within
  · split
    · exact complete_within
    · exact (updUnit_within.trans park_within).trans later_within

/-! ### Administration -/

theorem leaveEventSet_channel {c d : Nat} : (s.leaveEventSet c).channel d = s.channel d := rfl

theorem leaveEventSet_within {c : Nat} : Within s (s.leaveEventSet c) where
  part := .inl rfl
  failure := rfl
  lastFailure := rfl
  lastRefused := rfl
  bootAddress := rfl
  params := rfl
  fetch := rfl
  lastGranted := rfl
  store := rfl
  now := rfl
  pending := rfl
  channel d := .refl d _
  eventSet _ h := (List.mem_filter.1 h).1
  outbox := ⟨[], rfl⟩

theorem completeClose_within {c : Nat} : Within s (s.completeClose c) := by
  unfold completeClose; split
  · exact .refl s
  · exact (updChannel_within (by apply neutral <;> rfl)).trans complete_within

/-- A channel that goes forward to a state from CLOSING on. -/
theorem forward_within {c : Nat} {x : Channel} {st : ChannelState} (h0 : x.state ≠ .open) (h1 : x.state ≠ .closed)
    (h : x.state.rank ≤ st.rank) : Channel.Within c x { x with state := st } where
  backlog := Nat.le_max_left _ _
  lost := Nat.le_max_left _ _
  revoke := Nat.le_max_left _ _
  admin _ hx := by rcases hx with hx | hx <;> contradiction
  forward := h
  cause _ := rfl
  rings := rfl
  sqHead := rfl
  sqTail := rfl
  cqHead := rfl
  cqTail := rfl
  phase := rfl
  posted := rfl
  limit := rfl
  interrupt := rfl
  writing := rfl
  arrivals := rfl
  holdQuota := rfl
  revokeLimit := rfl
  opened := rfl

theorem queueNotice_state_ne_open {c d : Nat} {n : Notice} (h : (s.channel d).state = .fenced) :
    ((s.queueNotice c n).channel d).state = .fenced ∨ ((s.queueNotice c n).channel d).state = .closed := by
  have := ((queueNotice_within (s := s) (c := c) (n := n)).channel d).forward
  rw [h] at this
  cases hx : ((s.queueNotice c n).channel d).state <;> simp [hx, ChannelState.rank] at this ⊢

theorem drainCheck_within {c : Nat} : Within s (s.drainCheck c) := by
  unfold drainCheck; dsimp only; split
  · split
    · next hs =>
      exact ((updChannel_within (forward_within (by simp [hs]) (by simp [hs]) (by simp [hs, ChannelState.rank]))).trans
        leaveEventSet_within).trans completeClose_within
    · next hs =>
      have h : Within s (((s.updChannel c (fun x => { x with state := .fenced })).leaveEventSet c).queueNotice 0
          (.channelFenced c (s.channel c).cause)) :=
        ((updChannel_within (forward_within (by simp [hs]) (by simp [hs]) (by simp [hs, ChannelState.rank]))).trans
          leaveEventSet_within).trans queueNotice_within
      split
      · refine (h.trans (updChannel_within ?_)).trans completeClose_within
        have hst : (((s.updChannel c (fun x => { x with state := .fenced })).leaveEventSet c).channel c).state = .fenced := by
          rw [leaveEventSet_channel]; simp
        rcases queueNotice_state_ne_open (c := 0) (n := .channelFenced c (s.channel c).cause) hst with h | h
        · exact forward_within (by simp [h]) (by simp [h]) (by simp [h, ChannelState.rank])
        · have : (((s.updChannel c (fun x => { x with state := .fenced })).leaveEventSet c).queueNotice 0
              (.channelFenced c (s.channel c).cause)).channel c
            = { (((s.updChannel c (fun x => { x with state := .fenced })).leaveEventSet c).queueNotice 0
              (.channelFenced c (s.channel c).cause)).channel c with state := .closed } := by rw [← h]
          rw [← this]; exact .refl c _
      · exact h
    · exact .refl s
    · exact .refl s
    · exact .refl s
  · exact .refl s

theorem freeHeldLine_within {k : Nat} : Within s (s.freeHeldLine k) := by
  unfold freeHeldLine; dsimp only
  have h : Within s ((s.forEach (s.line k).holders (fun c t => t.dropHold c k)).freeLine k) :=
    (forEach_within fun _ _ => dropHold_within).trans freeLine_within
  split
  · exact h
  · exact h.trans later_within

theorem continueSlots_within (n : Nat) : ∀ {s : State}, Within s (State.continueSlots n s) := by
  induction n with
  | zero => exact .refl _
  | succ n ih =>
    intro s
    unfold continueSlots; split
    · exact ((agenda_within (w := _)).trans slotGiven_within).trans ih
    · exact .refl s

theorem freeUnitLine_within {u k : Nat} : Within s (s.freeUnitLine u k) := by
  unfold freeUnitLine; split
  · exact freeHeldLine_within.trans (continueSlots_within _)
  · exact .refl s

theorem freeUnit_within {u : Nat} : Within s (s.freeUnit u) := (forEach_within fun _ _ => freeUnitLine_within).trans queueToEach_within

theorem carryOutDetach_within {e u : Nat} : Within s (s.carryOutDetach e u) :=
  (((freeUnit_within.trans retest_within).trans updUnit_within).trans complete_within).trans noteQuiesce_within

theorem detachTest_within {u : Nat} : Within s (s.detachTest u) := by
  unfold detachTest; split
  · exact .refl s
  · split
    · dsimp only; split
      · exact updUnit_within.trans complete_within
      · exact updUnit_within.trans carryOutDetach_within
    · exact .refl s

theorem thirdStage_within {e u : Nat} : Within s (s.thirdStage e u) :=
  (((freeUnit_within.trans retest_within).trans updUnit_within).trans later_within).trans complete_within

theorem discardTest_within {u : Nat} : Within s (s.discardTest u) := by
  unfold discardTest; split
  · exact .refl s
  · split
    · exact thirdStage_within
    · exact .refl s

theorem barrierTest_within {c : Nat} : Within s (s.barrierTest c) := by
  unfold barrierTest; split
  · exact .refl s
  · split
    · exact .refl s
    · split
      · exact .refl s
      · exact (updChannel_within (by apply neutral <;> rfl)).trans complete_within

theorem quiesceCheck_within : Within s s.quiesceCheck := by
  unfold quiesceCheck; split
  · next h => exact { Within.refl s with part := .inr ⟨h.1, rfl⟩ }
  · exact .refl s

/-! ### The end of a step -/

/-- Every piece of work stays within. -/
theorem runWork_within {w : Work} : Within s (runWork w s) := by
  cases w with
  | slotGiven => exact slotGiven_within
  | handOn => exact handOn_within
  | redispatch => exact redispatch_within
  | reattempt => exact reattempt_within
  | evictCheck => exact evictCheck_within
  | serve => exact serveLine_within
  | episodeCheck => exact episodeCheck_within
  | episodeFreed => exact episodeFreed_within
  | episodeWaitCheck => exact episodeWaitCheck_within
  | barrierTest => exact barrierTest_within
  | drainCheck => exact drainCheck_within
  | quiesceCheck => exact quiesceCheck_within
  | detachTest => exact detachTest_within
  | discardTest => exact discardTest_within
  | select => exact select_within
  | fillOutcome => exact fillOutcome_within
  | flushOutcome => exact flushOutcome_within
  | stranded => exact noteStranded_within
  | retest => exact retest_within
  | afterSwap => exact afterSwap_within
  | endWritePhase => exact endWritePhase_within
  | complete => exact complete_within
  | endParked => exact endParked_within
  | notice => exact queueNotice_within

theorem settle_within {n : Nat} : Within s (settle n s) := by
  induction n generalizing s with
  | zero => exact .refl s
  | succ n ih =>
    unfold settle; split
    · exact .refl s
    · exact (agenda_within.trans runWork_within).trans ih

/-- The end of a step stays within. -/
theorem finish_within : Within s s.finish := settle_within.trans agenda_within

end State
end Sys2Proof.Machine
end

