-- ==== Sys2Proof/Laws/Taking.lean ====
section
/-! SUPPORT. The taking of a record, once for every record kind: what the step of a returned fetch comes to, and what validation looks at. -/

namespace Sys2Proof.Machine

variable {s : State} {c e : Nat}

/-- A settled state is its own end of a step. -/
theorem State.Settled.finish (h : s.Settled) : s.finish = s := State.finish_nil s h

/-- Validation looks at the part state and the unit records only. -/
@[simp] theorem State.validate_enterRecord (r q : Record) (d : Nat) : (s.enterRecord c e r).validate d q = s.validate d q := rfl

@[simp] theorem State.validate_setFetch (f : Option Fetch) (q : Record) (d : Nat) : (s.setFetch f).validate d q = s.validate d q := rfl

@[simp] theorem State.enterRecord_request (r : Record) : (s.enterRecord c e r).request e = some (s.newRequest c r) := by
  simp [State.enterRecord]

/-- A fetch that returns a record to a channel that takes it is the taking of that record. -/
theorem State.Takes.fetchReturns (h : s.Takes c e) (r : Record) : s.fetchReturns r = ((s.setFetch none).takeRecord c e r).finish := by
  have hp : s.part ≠ .failed := by rcases h.part with h | h <;> rw [h] <;> simp
  have ht : s.part.takesRecords = true := by rcases h.part with h | h <;> rw [h] <;> rfl
  simp [State.fetchReturns, State.endFetch, h.fetch, hp, ht, h.opened]

/-- The taking of a record that passes validation routes it to the block of its kind. -/
theorem State.takeRecord_routed {r : Record} {k : Kind} (hv : s.validate c r = none) (hk : r.kindOf = some k) :
    s.takeRecord c e r = (s.enterRecord c e r).route e (s.newRequest c r) k := by
  simp only [State.takeRecord, State.validate_enterRecord, hv, hk]

/-- The taking of a record that fails a check completes it. -/
theorem State.takeRecord_refused {r : Record} {status : Status} (hv : s.validate c r = some status) :
    s.takeRecord c e r = (s.enterRecord c e r).complete e { status } := by
  simp only [State.takeRecord, State.validate_enterRecord, hv]

/-- A request that has not ended and whose channel queues its completions completes with no further effect. -/
theorem State.complete_plain {t : State} {r : Request} (x : Completion) (hr : t.request e = some r) (hd : r.place ≠ .done)
    (hp : (t.channel r.channel).postError = false) (hf : (t.channel r.channel).fetchHold = none) :
    t.complete e x = (t.setRequest e (some (r.ended x))).updChannel r.channel (fun y => { y with postQueue := y.postQueue ++ [e] }) := by
  simp [State.complete, hr, hd, hp, State.noteDone, hf]

/-- A record that completes when taken leaves what `answered` says. -/
theorem State.Takes.complete_eq (h : s.Takes c e) (r : Record) (x : Completion) :
    (((s.setFetch none).enterRecord c e r).complete e x) = s.answered c e r x := by
  rw [State.complete_plain x (State.enterRecord_request r) (by simp [State.newRequest]) (by simp [State.enterRecord, State.newRequest, h.posts])
    (by simp [State.enterRecord, State.newRequest, h.clear])]
  simp [State.enterRecord, State.updChannel, State.setChannel_eq, State.setRequest_eq, State.answered, State.newRequest, Channel.taken, nextIndex,
    State.setFetch_eq, State.channel]

/-! ### What a record's taking leaves alone -/

@[simp] theorem State.placed_part (r : Request) : (s.placed c e r).part = s.part := rfl
@[simp] theorem State.placed_failure (r : Request) : (s.placed c e r).failure = s.failure := rfl
@[simp] theorem State.placed_lastFailure (r : Request) : (s.placed c e r).lastFailure = s.lastFailure := rfl
@[simp] theorem State.placed_lastRefused (r : Request) : (s.placed c e r).lastRefused = s.lastRefused := rfl
@[simp] theorem State.placed_bootAddress (r : Request) : (s.placed c e r).bootAddress = s.bootAddress := rfl
@[simp] theorem State.placed_params (r : Request) : (s.placed c e r).params = s.params := rfl
@[simp] theorem State.placed_lastGranted (r : Request) : (s.placed c e r).lastGranted = s.lastGranted := rfl
@[simp] theorem State.placed_eventSet (r : Request) : (s.placed c e r).eventSet = s.eventSet := rfl
@[simp] theorem State.placed_lines (r : Request) : (s.placed c e r).lines = s.lines := rfl
@[simp] theorem State.placed_recency (r : Request) : (s.placed c e r).recency = s.recency := rfl
@[simp] theorem State.placed_setWait (r : Request) : (s.placed c e r).setWait = s.setWait := rfl
@[simp] theorem State.placed_refs (r : Request) : (s.placed c e r).refs = s.refs := rfl
@[simp] theorem State.placed_store (r : Request) : (s.placed c e r).store = s.store := rfl
@[simp] theorem State.placed_slotWait (r : Request) : (s.placed c e r).slotWait = s.slotWait := rfl
@[simp] theorem State.placed_episodes (r : Request) : (s.placed c e r).episodes = s.episodes := rfl
@[simp] theorem State.placed_episodeWait (r : Request) : (s.placed c e r).episodeWait = s.episodeWait := rfl
@[simp] theorem State.placed_dirtyCount (r : Request) : (s.placed c e r).dirtyCount = s.dirtyCount := rfl
@[simp] theorem State.placed_pressure (r : Request) : (s.placed c e r).pressure = s.pressure := rfl
@[simp] theorem State.placed_units (r : Request) : (s.placed c e r).units = s.units := rfl
@[simp] theorem State.placed_now (r : Request) : (s.placed c e r).now = s.now := rfl
@[simp] theorem State.placed_joins (r : Request) : (s.placed c e r).joins = s.joins := rfl
@[simp] theorem State.placed_protectSamples (r : Request) : (s.placed c e r).protectSamples = s.protectSamples := rfl
@[simp] theorem State.placed_endedInFailed (r : Request) : (s.placed c e r).endedInFailed = s.endedInFailed := rfl
@[simp] theorem State.placed_agenda (r : Request) : (s.placed c e r).agenda = s.agenda := rfl
@[simp] theorem State.placed_outbox (r : Request) : (s.placed c e r).outbox = s.outbox := rfl
@[simp] theorem State.placed_pending (r : Request) : (s.placed c e r).pending = s.pending := rfl
@[simp] theorem State.placed_unit (r : Request) (j : Nat) : (s.placed c e r).unit j = s.unit j := rfl
@[simp] theorem State.placed_line (r : Request) (j : Nat) : (s.placed c e r).line j = s.line j := rfl
@[simp] theorem State.placed_refCount (r : Request) (j : Nat) : (s.placed c e r).refCount j = s.refCount j := rfl
@[simp] theorem State.placed_episode (r : Request) (j : Nat) : (s.placed c e r).episode j = s.episode j := rfl
@[simp] theorem State.placed_waiters (r : Request) (j : Nat) : (s.placed c e r).waiters j = s.waiters j := rfl
@[simp] theorem State.placed_order (r : Request) (j : Nat) : (s.placed c e r).order j = s.order j := rfl
@[simp] theorem State.placed_fetch (r : Request) : (s.placed c e r).fetch = none := rfl
@[simp] theorem State.placed_lookup (r : Request) (key : Key) : (s.placed c e r).lookup key = s.lookup key := rfl
@[simp] theorem State.placed_setOfKey (r : Request) (key : Key) : (s.placed c e r).setOfKey key = s.setOfKey key := rfl
@[simp] theorem State.placed_freeSlot (r : Request) : (s.placed c e r).freeSlot = s.freeSlot := rfl
@[simp] theorem State.placed_request (r : Request) (j : Nat) : (s.placed c e r).request j = if j = e then some r else s.request j :=
  SMap.get_set none s.table e j (some r)
@[simp] theorem State.placed_channel (r : Request) (j : Nat) :
    (s.placed c e r).channel j = if j = c then (s.channel c).taken else s.channel j :=
  SMap.get_set ({} : Channel) s.channels c j (s.channel c).taken

/-- A record of kind `k` that passes validation is placed and routed. -/
theorem State.Takes.routed (h : s.Takes c e) {r : Record} {k : Kind} (hv : s.validate c r = none) (hk : r.kindOf = some k) :
    s.fetchReturns r = ((s.placed c e (s.newRequest c r)).route e (s.newRequest c r) k).finish := by
  rw [h.fetchReturns, State.takeRecord_routed (s := s.setFetch none) (by exact hv) hk]
  rfl

/-- A record that completes when it is routed. -/
theorem State.Takes.answers (h : s.Takes c e) (r : Record) (x : Completion) :
    ((s.placed c e (s.newRequest c r)).complete e x) = s.answered c e r x := h.complete_eq r x

end Sys2Proof.Machine
end

