-- ==== Sys2Proof/Laws/Effects.lean ====
section
/-! SUPPORT. What the operations that end a command come to in their plain cases: a completion that nothing waits for, a reference dropped with
no request waiting for a slot, an evict check on a set that nothing waits for, and a settle of two or three pieces of work. -/

namespace Sys2Proof.Machine

variable {s t : State}

/-! ### The spec's comparisons -/

theorem ringDistance_eq (size a b : Nat) : ringDistance size a b = (b + size - a) % size := rfl

/-- R200: the channel that an index post names. -/
theorem postChannel_eq (v : BitVec 32) : postChannel v = v.toNat % 16 := by simp [postChannel, BitVec.extractLsb'_toNat]

/-- R200: the index that an index post carries. -/
theorem postIndex_eq (v : BitVec 32) : postIndex v = v.toNat / 2 ^ 16 % 2 ^ 12 := by
  simp [postIndex, BitVec.extractLsb'_toNat, Nat.shiftRight_eq_div_pow]

/-- R159: a valid tail post. -/
theorem Channel.tailOk_iff (x : Channel) (n : Nat) : x.tailOk n = true ↔
    (n < x.sqSize ∧ (x.sqTail + x.sqSize - x.sqHead) % x.sqSize ≤ (n + x.sqSize - x.sqHead) % x.sqSize) := by
  unfold Channel.tailOk
  rw [Bool.and_eq_true, decide_eq_true_eq, decide_eq_true_eq]
  rfl

/-- R160: a valid head post. -/
theorem Channel.headOk_iff (x : Channel) (n : Nat) : x.headOk n = true ↔
    (n < x.cqSize ∧ (n + x.cqSize - x.cqHead) % x.cqSize ≤ (x.posted + x.cqSize - x.cqHead) % x.cqSize) := by
  unfold Channel.headOk
  rw [Bool.and_eq_true, decide_eq_true_eq, decide_eq_true_eq]
  rfl

/-- R194: the test that a step makes is the quiesce condition. -/
theorem State.quiet_iff (s : State) : s.quiet = true ↔ s.QuiesceCondition := by
  simp only [State.quiet, State.noDataRequest, State.readyUnitDirty, State.QuiesceCondition, Bool.and_eq_true, Bool.not_eq_true',
    List.any_eq_false]
  refine and_congr ?_ ?_
  · refine forall_congr' fun p => forall_congr' fun _ => ?_
    cases p.2.kind with
    | none => simp
    | some k => cases k <;> simp [Kind.heldByQuiesce]
  · refine forall_congr' fun p => forall_congr' fun _ => ?_
    cases p.2.key with
    | none => simp
    | some k => cases hs : p.2.state <;> simp [LineState.holdsQuiesce]

/-! ### Completions -/

/-- R152: what completing a request comes to when its channel queues its completions. -/
theorem State.Completes.complete_eq {e : Nat} {r : Request} (h : s.Completes e r) (x : Completion) : s.complete e x = s.completed e r x := by
  rw [State.complete_plain x h.held h.undone h.posts h.clear]
  simp only [State.setRequest_eq, State.updChannel, State.setChannel_eq, State.completed, State.channel]

/-- The same on a state that agrees on the request table and on the channels. -/
theorem State.Completes.complete_like {e : Nat} {r : Request} (h : s.Completes e r) (x : Completion) (h1 : t.table = s.table)
    (h2 : t.channels = s.channels) :
    t.complete e x = { t with table := (s.completed e r x).table, channels := (s.completed e r x).channels } := by
  rw [State.complete_plain (r := r) x (by rw [State.request, h1]; exact h.held) h.undone (by rw [State.channel, h2]; exact h.posts)
    (by rw [State.channel, h2]; exact h.clear)]
  simp only [State.setRequest_eq, State.updChannel, State.setChannel_eq, State.completed, State.channel, h1, h2]

/-- R152: a request that is DONE keeps its record. -/
theorem State.complete_done {e : Nat} {r : Request} (hr : t.request e = some r) (hd : r.place = .done) (x : Completion) : t.complete e x = t := by
  simp [State.complete, hr, hd]

/-! ### Writes to host memory (log 4) -/

/-- A write that reaches its end puts its bytes out. -/
theorem State.emitWrite_all {a : Nat} {data : List Byte} (h : data ≠ []) : t.emitWrite a data none = t.emit (.hostWrite a data) := by
  cases data with
  | nil => exact absurd rfl h
  | cons b bs => rfl

/-- A write that ends with an error before its first byte puts nothing out. -/
theorem State.emitWrite_zero {a : Nat} {data : List Byte} : t.emitWrite a data (some 0) = t := rfl

/-- A write that ends with an error after `n` bytes puts these out. -/
theorem State.emitWrite_some {a n : Nat} {data : List Byte} (h : data ≠ []) (hn : 0 < n) :
    t.emitWrite a data (some n) = t.emit (.hostWrite a (data.take n)) := by
  cases data with
  | nil => exact absurd rfl h
  | cons b bs => cases n with
    | zero => omega
    | succ n => rfl

/-- A slot holds 1024 bytes, so it is not empty. -/
theorem State.slotData_ne_nil {slot : Nat} : t.slotData slot ≠ [] := by
  intro h
  have := congrArg List.length h
  simp [State.slotData, Memory.readBytes, Config.slotBytes] at this

/-- A read transfer that reaches its end puts the slot's bytes out. -/
theorem State.deliver_all {r : Request} {slot : Nat} :
    t.deliver r slot none = t.emit (.hostWrite r.record.buffer.toNat (t.slotData slot)) := emitWrite_all slotData_ne_nil

/-- A read transfer that ends with an error after `n` bytes puts these out. -/
theorem State.deliver_some {r : Request} {slot n : Nat} (hn : 0 < n) :
    t.deliver r slot (some n) = t.emit (.hostWrite r.record.buffer.toNat (Memory.readBytes t.store (slot * 1024) (min n 1024))) := by
  have h : (t.slotData slot).take n = Memory.readBytes t.store (slot * 1024) (min n 1024) := by
    rw [State.slotData, Memory.readBytes, Memory.readBytes, ← List.map_take]
    congr 1
    apply List.ext_getElem <;> simp [Config.slotBytes]
  rw [State.deliver, emitWrite_some slotData_ne_nil hn, h]

/-- R71: what follows from the end of a transfer's writes happens in a part that is not FAILED. -/
theorem State.afterWrites_running {e : Nat} {f : State → State} (h : t.part ≠ .failed) : t.afterWrites e f = (f t).finish := if_neg h

/-- R71, R154: in FAILED nothing follows. -/
theorem State.afterWrites_failed {e : Nat} {f : State → State} (h : t.part = .failed) : t.afterWrites e f = t.endInFailed e := if_pos h

/-! ### References -/

/-- R17: an evict check with no request on the set's wait list has no effect. -/
theorem State.evictCheck_nil {k : Nat} (h : t.waiters (k / 4) = []) : t.evictCheck k = t := by
  unfold State.evictCheck State.reattempt
  simp [setOfLine, Config.ways, h]

/-- R14: a reference dropped with no request waiting for a slot lowers the count and does nothing else. -/
theorem State.dropRef_nil {slot : Nat} (h : t.slotWait = []) : t.dropRef slot = t.setRef slot (t.refCount slot - 1) := by
  unfold State.dropRef
  by_cases hh : t.refCount slot ≤ 1
  · have hh' : t.refCount slot - 1 = 0 := by omega
    rw [if_pos hh, h, hh']
  · rw [if_neg hh]

/-- R179, R182: the end of a transfer on a unit with neither a detach nor a discard in progress sets nothing in motion there. -/
theorem State.noteTransferEnd_nil {e u : Nat} (h1 : (t.unit u).detach = none) (h2 : (t.unit u).discard = none) : t.noteTransferEnd e u = t := by
  simp [State.noteTransferEnd, State.endAwaited, h1, State.noteDiscard, h2]

/-! ### A settle of a few pieces of work -/

theorem State.finish_two {t1 t2 : State} {w1 w2 : Work} (h : s.agenda = [w1, w2]) (h1 : runWork w1 (s.setAgenda [w2]) = t1)
    (h1a : t1.agenda = [w2]) (h2 : runWork w2 (t1.setAgenda []) = t2) (h2a : t2.agenda = []) : s.finish = t2 := by
  have : settle 2 s = t2 := by simp [settle, h, h1, h1a, h2]
  rw [State.finish_eq 2 s (by decide) (by rw [this]; exact h2a), this]

theorem State.finish_three {t1 t2 t3 : State} {w1 w2 w3 : Work} (h : s.agenda = [w1, w2, w3])
    (h1 : runWork w1 (s.setAgenda [w2, w3]) = t1) (h1a : t1.agenda = [w2, w3]) (h2 : runWork w2 (t1.setAgenda [w3]) = t2)
    (h2a : t2.agenda = [w3]) (h3 : runWork w3 (t2.setAgenda []) = t3) (h3a : t3.agenda = []) : s.finish = t3 := by
  have : settle 3 s = t3 := by simp [settle, h, h1, h1a, h2, h2a, h3]
  rw [State.finish_eq 3 s (by decide) (by rw [this]; exact h3a), this]

end Sys2Proof.Machine
end

