-- ==== Sys2Proof/Tests/Slice0.lean ====
section
/-! SUPPORT. The model's own tests: the WellFormed smoke test, one or two small facts for each command, each about one step on a small state
with a result taken from the rule it names, and, for each statement with hypotheses, states and operands that meet all of them together
(`witness_…`). -/

set_option maxRecDepth 100000

namespace Sys2Proof.Tests

open Sys2Proof Sys2Proof.Machine

/-! ### Small states -/

/-- The next state of an outcome. -/
def nextOf : Host.Outcome State Fault Refusal → Option State
  | .next t => some t
  | .fault _ | .refused _ => none

/-- One fact about the next state of a command. -/
def after (i : Instr) (s : State) (p : State → Bool) : Bool := (nextOf (exec i s)).any p

/-- Channel 0 with rings of 16 and 64 entries. -/
def admin : Channel := { state := .open, rings := some ⟨0x1000, 16, 0x2000, 64⟩, limit := some 8, sqTail := 4, opened := true }

/-- A data channel with rings of 32 and 64 entries. -/
def data : Channel :=
  { state := .open, rings := some ⟨0x10000, 32, 0x20000, 64⟩, limit := some 8, interrupt := true, sqTail := 4, holdQuota := 8, revokeLimit := 4,
    opened := true }

/-- A READY unit of 2000 tracks, 2 surfaces and 16 sectors, its heads on track 5. -/
def unit1 : UnitRec :=
  { state := .ready, geometry := some ⟨2000, 2, 16⟩, retries := some 2, readyLine := true, believed := some 5, selectedSurface := some 0,
    lastHeader := some 1 }

/-- A RUNNING part with channels 0 to 3 OPEN and unit 1 attached. -/
def small : State :=
  { State.reset with
    part := .running, params := some ⟨500, 2000, 100, 50⟩, channels := [(0, admin), (1, data), (2, data), (3, data)], units := [(1, unit1)] }

/-- The sector of unit 1 that the tests use: it maps to set 419 (R2). -/
def key : Key := ⟨1, 0, 5, 2⟩

/-- A CLEAN line of that sector in slot 0. -/
def clean : Line := { state := .clean, key := some key, currentSlot := some 0 }

/-- The state with a line at set 419, way 3, its slot 0 held once. -/
def withLine (s : State) (ln : Line) : State := { s with lines := [(1679, ln)], refs := [(0, 1)] }

/-- The state with unit 1's record changed. -/
def withUnit (s : State) (f : UnitRec → UnitRec) : State := { s with units := [(1, f unit1)] }

/-- The state with a channel's context changed. -/
def withChannel (s : State) (c : Nat) (f : Channel → Channel) : State := { s with channels := SMap.set {} s.channels c (f (s.channel c)) }

/-- The state with entry 9 set aside and the record of channel `c` being read. -/
def fetching (s : State) (c : Nat) : State :=
  { withChannel s c (fun x => { x with inFlight := x.inFlight + 1, reserved := x.reserved + 1 }) with fetch := some ⟨c, 9⟩ }

/-- A request of channel `c`. -/
def asked (c : Nat) (record : Record) (place : Place) : Request := { channel := c, record, arrival := 0, place }

/-- The state with a request in entry 7, counted in flight on its channel. -/
def holding (s : State) (r : Request) : State :=
  { withChannel s r.channel (fun x => { x with inFlight := 1, reserved := 1, arrivals := 1 }) with table := [(7, some r)] }

/-- A READ of the sector. -/
def theRead : Record := readRecord 0x21 false 1 0 5 2 0x4000
/-- A WRITE of the sector. -/
def theWrite : Record := writeRecord 0x22 false 1 0 5 2 0x4000

/-- An operation in flight on unit 1 for the sector. -/
def working (subject : Subject) : Operation := { subject, track := 5, surface := 0, sector := some 2, deadline := 1000 }

/-- The state with unit 1's sequencer in a state with an operation. -/
def busy (s : State) (seq : SeqState) (o : Operation) : State := withUnit s (fun x => { x with seq, op := some o })

/-- The check of the header of track 5, surface 0 and a sector. -/
def checkOf (sector : Byte) : BitVec 16 := checkBytes 0xFFFF [0, 5, 0, sector, 3]

theorem takes_of {s : State} {c e : Nat} (h : s.fetch = some ⟨c, e⟩ ∧ (s.part = .running ∨ s.part = .quiescing) ∧ (s.channel c).state = .open
    ∧ (s.channel c).postError = false ∧ (s.channel c).fetchHold = none ∧ s.agenda = []) : s.Takes c e :=
  ⟨h.1, h.2.1, h.2.2.1, h.2.2.2.1, h.2.2.2.2.1, h.2.2.2.2.2⟩

theorem completes_of {s : State} {e : Nat} {r : Request} (h : s.request e = some r ∧ r.place ≠ .done ∧ (s.channel r.channel).postError = false
    ∧ (s.channel r.channel).fetchHold = none ∧ s.agenda = []) : s.Completes e r := ⟨h.1, h.2.1, h.2.2.1, h.2.2.2.1, h.2.2.2.2⟩

theorem freesPlainly_of {s : State} {u : Nat} (h : SMap.wf {} s.lines = true ∧ s.setWait = [] ∧ s.slotWait = [] ∧ s.episodeWait = []
    ∧ (∀ p ∈ s.lines, p.2.ofUnit u = true → p.2.episode = none ∧ p.2.writer = none)
    ∧ ∀ p ∈ s.lines, p.2.ofUnit u = true → ∀ d ∈ p.2.holders,
      1 ≤ d ∧ d ≤ 15 ∧ (s.channel d).state = .open ∧ (s.channel d).backlog.length < 48) : s.FreesPlainly u :=
  ⟨h.1, h.2.1, h.2.2.1, h.2.2.2.1, h.2.2.2.2.1, h.2.2.2.2.2⟩

/-- Every slot held once. -/
def everySlot : List (Nat × Nat) := (List.range' 0 4224).map (fun n => (n, 1))

theorem everySlot_held {n : Nat} (h : n < 4224) : SMap.get 0 everySlot n ≠ 0 := by
  have : ∀ m i, i ≤ n → n < i + m → SMap.get 0 ((List.range' i m).map (fun n => (n, 1))) n = 1 := by
    intro m
    induction m with
    | zero => intro i hi hn; omega
    | succ m ih =>
      intro i hi hn
      simp only [List.range'_succ, List.map_cons, SMap.get]
      split
      · rfl
      · exact ih (i + 1) (by omega) (by omega)
  rw [everySlot, this 4224 0 (Nat.zero_le n) (by omega)]
  exact Nat.one_ne_zero

theorem no_request {s : State} (hn : s.table = []) (e : Nat) : s.request e = none := by rw [State.request, hn]; rfl

theorem counted_of {s : State} (hn : s.table = []) (hc : ∀ c, (s.channel c).inFlight = if s.fetch.any (fun f => f.channel == c) then 1 else 0)
    (ha : ∀ f, s.fetch = some f → f.entry < 256) (hd : ∀ c, (s.channel c).state = .closed → (s.channel c).inFlight = 0)
    (hf : ∀ c, (s.channel c).state ≠ .fenced) (hb : s.part = .running) : s.InFlightCounted where
  counts c := by simp [hc c, State.heldBy, no_request hn]
  aside f h := ⟨ha f h, no_request hn _⟩
  entries e _ := no_request hn e
  drained c h := h.elim (hd c) (fun h => absurd h (hf c))
  boot h := by simp [hb] at h

theorem held_of {s : State} {i : Nat} {q : Request} (h : s.request i = some q) : (i, q) ∈ s.held := by
  have : ∀ m : SMap (Option Request), SMap.get none m i = some q → (i, q) ∈ m.filterMap (fun p => p.2.map (fun r => (p.1, r))) := by
    intro m
    induction m with
    | nil => exact fun h => nomatch h
    | cons p m ih =>
      obtain ⟨a, v⟩ := p
      intro h
      simp only [SMap.get] at h
      split at h
      · next ha => subst ha; subst h; simp
      · exact List.mem_filterMap.mpr ((List.mem_filterMap.mp (ih h)).imp fun p hp => ⟨List.mem_cons_of_mem _ hp.1, hp.2⟩)
  exact this s.table h

theorem none_earlier {s : State} {e c n : Nat} (d : ∀ p ∈ s.held, p.1 ≠ e → p.2.channel = c → p.2.arrival < n → p.2.place = .done)
    {i : Nat} {y : Request} (h : s.request i = some y) (he : i ≠ e) (hc : y.channel = c) (ha : y.arrival < n) : y.place = .done :=
  d (i, y) (held_of h) he hc ha

theorem parked_of {s : State} {u : Nat} (d : ∀ p ∈ s.held, p.2.names u = true → p.2.isParked = true →
      (s.request p.1 = some p.2 ∧ p.2.place ≠ .done ∧ (s.channel p.2.channel).postError = false ∧ (s.channel p.2.channel).fetchHold = none
        ∧ s.agenda = []) ∧ (p.2.place = .parked .setWait ∨ p.2.place = .parked .surveyQueue ∨ p.2.place = .parked .barrierList)) :
    ∀ i q, s.request i = some q → q.names u = true → q.isParked = true →
      s.Completes i q ∧ (q.place = .parked .setWait ∨ q.place = .parked .surveyQueue ∨ q.place = .parked .barrierList) := fun i q h hn hp =>
  (d (i, q) (held_of h) hn hp).imp completes_of id

theorem only_entry {s : State} {r q : Request} {j : Nat} (ht : s.table = [(7, some r)]) (h : s.request j = some q) : j = 7 := by
  simp only [State.request, ht, SMap.get] at h
  split at h
  · assumption
  · cases h

/-! ### WellFormed: for each check a term that it refuses -/

theorem test_illformed_invalidCommand : (Instr.invalidCommand 3).wellFormed = false := by decide
theorem test_illformed_registerWriteIgnored : (Instr.registerWriteIgnored 0x018 4 0).wellFormed = false := by decide
theorem test_wellformed_registerWriteIgnored : (Instr.registerWriteIgnored 0x018 2 0).wellFormed = true := by decide
theorem test_illformed_bootReadEnd : (Instr.bootReadEnd (some (List.replicate 63 0))).wellFormed = false := by decide
theorem test_illformed_fetchEnd : (Instr.fetchEnd (some (List.replicate 65 0))).wellFormed = false := by decide
theorem test_illformed_snapshot_entry : (Instr.snapshotWriteEnd 256 none).wellFormed = false := by decide
theorem test_illformed_snapshot_length : (Instr.snapshotWriteEnd 255 (some 64)).wellFormed = false := by decide
theorem test_illformed_recordWriteStart : (Instr.recordWriteStart 16).wellFormed = false := by decide
theorem test_illformed_recordWriteEnd : (Instr.recordWriteEnd 16 true).wellFormed = false := by decide
theorem test_illformed_channelDrain : (Instr.channelDrain 16).wellFormed = false := by decide
theorem test_illformed_readComplete : (Instr.readTransferComplete 256).wellFormed = false := by decide
theorem test_illformed_readError : (Instr.readTransferError 0 1024).wellFormed = false := by decide
theorem test_illformed_writeComplete : (Instr.writeTransferComplete 0 [1]).wellFormed = false := by decide
theorem test_illformed_writeError : (Instr.writeTransferError 256 []).wellFormed = false := by decide
theorem test_illformed_survey : (Instr.surveyEntryWriteEnd 0 (some 512)).wellFormed = false := by decide
theorem test_illformed_setWait : (Instr.setWaitDeadlineExpiry 256).wellFormed = false := by decide
theorem test_illformed_episode : (Instr.recallDeadlineExpiry 32).wellFormed = false := by decide
theorem test_illformed_unit : [Instr.unitResponseLimitExpiry 4, .arrived 4, .homeFound 4, .positionFault 4, .index 4 [],
    .header 4 0 0 0 0 0 [], .dataMark 4 .data [], .dataEnd 4 0 [], .writeDone 4, .writeFault 4, .readyRise 4, .readyFall 4,
    .detachAwaitedReadsEnd 4, .discardThirdStage 4].all (fun i => !i.wellFormed) = true := by decide

/-! ### Worked values of the spec -/

/-- R2: two keys of set 198. -/
theorem test_set_of_key : small.setOfKey ⟨1, 0, 30, 5⟩ = 198 ∧ small.setOfKey ⟨1, 0, 62, 5⟩ = 198 := by decide
/-- 6.1, "Example: the check of a header". -/
theorem test_header_check : checkBytes 0xFFFF [0, 0, 0, 0, 3] = 0x216F := by decide
/-- R200: a write of each word of the window. -/
theorem test_window_words : decodeWrite 0x004 4 1 = .run ∧ decodeWrite 0x004 4 2 = .quiesce ∧ decodeWrite 0x004 4 3 = .reset
    ∧ decodeWrite 0x004 4 4 = .invalidCommand 4 ∧ decodeWrite 0x018 4 5 = .sqTail 5 ∧ decodeWrite 0x01C 4 5 = .cqHead 5
    ∧ decodeWrite 0x014 4 5 = .bootAddressWrite true 5 ∧ decodeWrite 0x000 4 5 = .registerWriteIgnored 0x000 4 5 := by decide
/-- R199: a READ's kind code stands at byte 0 and its tag at bytes 2 and 3, low byte first. -/
theorem test_record_bytes : theRead.bytes.take 9 = [0x01, 0x00, 0x21, 0x00, 0x01, 0x00, 0x05, 0x00, 0x02] := by decide
/-- The reset state keeps the canonical form of its line store. -/
theorem test_reset_store : Memory.wf State.reset.store = true := by decide

/-! ### Commands -/

theorem test_run : after .run State.reset (fun t => t.part == .starting && t.outbox == [.hostRead 0 64]) = true := by decide
theorem test_run_refused : after .run small (fun t => t.part == .running && t.lastRefused == .run) = true := by decide
theorem test_quiesce : after .quiesce small (·.part == .quiesced) = true := by decide
theorem test_reset : after .reset { small with part := .failed, failure := .adminBadHead } (fun t => t.part == .halted
    && t.failure == .none && t.lastFailure == .adminBadHead) = true := by decide
theorem test_invalidCommand : after (.invalidCommand 9) small (·.lastRefused == .invalid) = true := by decide
theorem test_powerOnReset : after .powerOnReset { small with bootAddress := 64 } (fun t => t.part == .halted && t.bootAddress == 0) = true := by
  decide
theorem test_bootAddressWrite : after (.bootAddressWrite true 1) { State.reset with bootAddress := 64 }
    (·.bootAddress == 0x100000040) = true := by decide
theorem test_sqTail : after (.sqTail 0x00050001) small (fun t => (t.channel 1).sqTail == 5) = true := by decide
theorem test_sqTail_bad : after (.sqTail 0x00200001) small (fun t => (t.channel 1).cause == .badTail && (t.channel 1).state == .fenced) = true := by
  decide
theorem test_cqHead : after (.cqHead 0x00020001) { withChannel small 1 (fun x => { x with posted := 2, cqTail := 2 }) with eventSet := [1] }
    (fun t => (t.channel 1).cqHead == 2 && t.eventSet == []) = true := by decide
theorem test_cqHead_bad : after (.cqHead 0x00010000) small (fun t => t.part == .failed && t.failure == .adminBadHead) = true := by decide
theorem test_registerWriteIgnored : after (.registerWriteIgnored 0x018 2 7) small (· == small) = true := by decide
theorem test_bootReadEnd : after (.bootReadEnd none) { State.reset with part := .starting } (·.failure == .bootFetchError) = true := by decide
theorem test_fetchGrant : after .fetchGrant small (fun t => t.fetch == some ⟨0, 0⟩ && t.lastGranted == 15) = true := by decide
theorem test_fetchGrant_turn : after .fetchGrant (withChannel { small with lastGranted := 1 } 0 (fun x => { x with sqTail := 0 }))
    (fun t => t.fetch == some ⟨2, 0⟩ && t.lastGranted == 2) = true := by decide
theorem test_fetchEnd_error : after (.fetchEnd none) (fetching small 1) (fun t => (t.channel 1).cause == .submitFetchError
    && (t.channel 1).inFlight == 0) = true := by decide
theorem test_read_miss : after (.read 5 false 1 0 5 2 0x4000) (fetching small 1) (fun t => (t.line 1679).state == .filling
    && (t.unit 1).seq == .searching) = true := by decide
theorem test_read_bad_address : after (.read 5 false 1 0 5 2 0x4001) (fetching small 1)
    (fun t => (t.request 9).any (·.completion == some { status := .badAddress })) = true := by decide
theorem test_write_miss : after (.write 5 false 1 0 5 2 0x4000) (fetching small 1) (fun t => (t.line 1679).state == .loading
    && t.dirtyCount == 1) = true := by decide
theorem test_write_recalls : after (.write 5 false 1 0 5 2 0x4000) (fetching (withLine small { clean with holders := [1, 2] }) 1)
    (fun t => (t.channel 2).backlog == [.recall key 0] && (t.channel 1).backlog == []) = true := by decide
theorem test_release : after (.release 5 none 1 0 5 2) (fetching (withLine small { clean with holders := [1, 2] }) 1)
    (fun t => (t.line 1679).holders == [2]) = true := by decide
theorem test_release_late : after (.release 5 (some 0) 1 0 5 2) (fetching (withLine small { clean with holders := [1, 2] }) 1)
    (fun t => (t.line 1679).holders == [1, 2] && (t.request 9).any (·.completion == some { status := .tooLate })) = true := by decide
theorem test_flush : after (.flush 5 1) (fetching small 1) (fun t => (t.unit 1).epoch == 2
    && (t.request 9).any (·.completion == some { status := .success, epoch := 1 })) = true := by decide
theorem test_survey : after (.survey 5 1 0 5 0x4000) (fetching small 1) (fun t => (t.unit 1).seq == .surveying) = true := by decide
theorem test_barrier : after (.barrier 5) (fetching (holding small (asked 1 theRead .active)) 1) (fun t => (t.channel 1).fetchHold == some 9) = true := by
  decide
theorem test_abandon : after (.abandon 5 0x21) (fetching (holding small (asked 1 theRead .active)) 1)
    (fun t => (t.request 9).any (·.completion == some { status := .tooLate })) = true := by decide
theorem test_channelOpen : after (.channelOpen 5 true 4 0 0x8000 16 32 8 0 0) (fetching small 0) (fun t => (t.channel 4).state == .open
    && (t.channel 4).phase) = true := by decide
theorem test_channelClose : after (.channelClose 5 1) (fetching small 0) (fun t => (t.channel 1).state == .closed
    && (t.channel 0).postQueue == [9]) = true := by decide
theorem test_unitAttach : after (.unitAttach 5 0 100 1 8 0) (fetching small 0) (fun t => (t.unit 0).state == .notReady
    && (t.unit 0).epoch == 1) = true := by decide
theorem test_unitDetach : after (.unitDetach 5 1) (fetching small 0) (fun t => (t.unit 1).state == .detached && (t.unit 1).readyLine) = true := by
  decide
theorem test_unitDiscard : after (.unitDiscard 5 1) (fetching small 0) (fun t => !(t.unit 1).discarding
    && (t.request 9).any (·.completion == some { status := .success })) = true := by decide
theorem test_setParameters : after (.setParameters 5 1 2 4 3) (fetching small 0) (·.params == some ⟨1, 2, 4, 3⟩) = true := by decide
theorem test_queryChannel : after (.queryChannel 5 1 0x4000) (fetching small 0)
    (fun t => (t.request 9).any (fun r => (r.snapshot.getD []).take 5 == [1, 0, 2, 0, 32])) = true := by decide
theorem test_queryUnit : after (.queryUnit 5 2 0x4000) (fetching small 0)
    (fun t => (t.request 9).any (·.completion == some { status := .unitState })) = true := by decide
theorem test_queryLine : after (.queryLine 5 1 0 5 2 0x4000) (fetching (withLine small clean) 0)
    (fun t => (t.request 9).any (fun r => (r.snapshot.getD []).take 8 == [1, 3, 0, 0, 0xA3, 1, 3, 0])) = true := by decide
theorem test_snapshotWriteEnd : after (.snapshotWriteEnd 7 (some 1))
    (holding small { asked 0 (queryUnitRecord 5 1 0x4000) .active with snapshot := some [2, 3] })
    (fun t => t.outbox == [.hostWrite 0x4000 [2]] && (t.request 7).any (·.completion == some { status := .hostTransferError })) = true := by decide
theorem test_recordWriteStart : after (.recordWriteStart 1) (withChannel small 1 (fun x => { x with backlog := [.recall key 3], cqTail := 63, cqHead := 1 }))
    (fun t => (t.channel 1).cqTail == 0 && !(t.channel 1).phase
      && (t.channel 1).writing.any (fun w => w.address == 0x20000 + 63 * 32 && w.bytes.take 12 == [3, 1, 0, 0, 1, 0, 0, 0, 5, 0, 2, 3])) = true := by decide
theorem test_recordWriteEnd : after (.recordWriteEnd 1 false) (withChannel small 1 (fun x => { x with writing := some ⟨[3], 0x20000, none⟩ }))
    (fun t => t.eventSet == [1] && (t.channel 1).posted == 1 && t.outbox == [.hostWrite 0x20000 [3]]) = true := by decide
theorem test_recordWriteEnd_error : after (.recordWriteEnd 0 true) (withChannel small 0 (fun x => { x with writing := some ⟨[3], 0x20000, none⟩ }))
    (fun t => t.part == .failed && t.failure == .adminPostError) = true := by decide
theorem test_writeTransferComplete : after (.writeTransferComplete 7 [0xAB])
    (holding (withLine (busy small .searching (working (.fill 3))) { clean with writer := some 7 })
      { asked 1 theWrite .active with line := some 1679, staging := some 1 })
    (fun t => (t.line 1679).state == .dirty && (t.line 1679).dirtyEpoch == some 1 && t.refCount 0 == 0
      && Memory.read t.store 1024 == 0xAB) = true := by decide
theorem test_writeTransferError : after (.writeTransferError 7 [])
    (holding (withLine small { clean with writer := some 7 }) { asked 1 theWrite .active with line := some 1679, staging := some 1 })
    (fun t => (t.line 1679).state == .clean && (t.line 1679).writer == none) = true := by decide
theorem test_readTransferComplete : after (.readTransferComplete 7)
    (holding (withLine small { clean with mark := .retired }) { asked 1 theRead .active with line := some 1679, delivered := some 0, captured := some .retired })
    (fun t => t.refCount 0 == 0 && (t.request 7).any (·.completion == some { status := .success, flags := { hit := true, retired := true } })) = true := by decide
theorem test_readTransferError : after (.readTransferError 7 0)
    (holding (withLine small clean) { asked 1 theRead .active with line := some 1679, delivered := some 0 })
    (fun t => t.outbox == [] && (t.request 7).any (·.completion == some { status := .hostTransferError })) = true := by decide
theorem test_surveyEntryWriteEnd : after (.surveyEntryWriteEnd 7 none)
    (holding small { asked 1 (surveyRecord 5 1 0 5 0x4000) .active with survey := some ⟨[⟨5, 0, 2, 3, 0x1234, true, false⟩], true⟩ })
    (fun t => (t.request 7).any (·.completion == some { status := .success, flags := { overflow := true }, count := 1 })) = true := by decide
theorem test_setWaitDeadlineExpiry : after (.setWaitDeadlineExpiry 7)
    { holding small { asked 1 theWrite (.parked .setWait) with deadline := some 0 } with setWait := [(419, [7])] }
    (fun t => t.setWait == [] && (t.request 7).any (·.completion == some { status := .noLine })) = true := by decide
theorem test_recallDeadlineExpiry : after (.recallDeadlineExpiry 0)
    { holding (withLine small { clean with holders := [2], writer := some 7, episode := some 0 })
        { asked 1 theWrite (.parked (.episode 0)) with line := some 1679 } with
      episodes := [(0, some ⟨key, 1679, 7, 1, [2], [2], 0⟩)] }
    (fun t => (t.channel 2).revokeCount == 1 && (t.channel 2).backlog == [.revoked key 0] && (t.line 1679).holders == []) = true := by decide
theorem test_unitResponseLimitExpiry : after (.unitResponseLimitExpiry 1) { busy small .homing (working (.fill 3)) with now := 1000 }
    (fun t => (t.unit 1).op == none && (t.unit 1).verifyPending && (t.unit 1).believed == none) = true := by decide
theorem test_arrived : after (.arrived 1) (busy small .positioning (working (.fill 3))) (fun t => (t.unit 1).seq == .verifying) = true := by decide
theorem test_homeFound : after (.homeFound 1) (busy small .homing (working (.fill 3)))
    (fun t => (t.unit 1).seq == .positioning && t.outbox == [.move 1 5]) = true := by decide
theorem test_positionFault : after (.positionFault 1) small (fun t => (t.unit 1).believed == none) = true := by decide
theorem test_index : after (.index 1 []) (busy small .searching { working (.fill 1679) with indexCount := 2 }) (fun t => (t.unit 1).seq == .idle) = true := by
  decide
theorem test_header : after (.header 1 5 0 2 3 (checkOf 2) []) (busy small .searching (working (.fill 3)))
    (fun t => (t.unit 1).seq == .transferring && (t.unit 1).lastHeader == some 2) = true := by decide
theorem test_dataMark : after (.dataMark 1 .retired []) (busy small .transferring (working (.fill 3)))
    (fun t => (t.unit 1).op.any (fun o => o.field.any (·.mark == .retired))) = true := by decide
theorem test_dataEnd : after (.dataEnd 1 0 [1, 2]) (busy small .transferring { working (.fill 3) with field := some ⟨.data, 0, 0⟩ })
    (fun t => (t.unit 1).seq == .searching && (t.unit 1).op.any (fun o => o.attempts == 1 && o.badData)) = true := by decide
theorem test_writeDone : after (.writeDone 1) (withLine (withUnit small (fun x =>
      { x with seq := .transferring, writeGate := true, op := some (working (.flush 1679)) })) { clean with state := .flushing, flushSource := some 0, dirtyEpoch := some 1 })
    (fun t => (t.line 1679).state == .clean && t.outbox == [.writeGateOff 1]) = true := by decide
theorem test_writeFault : after (.writeFault 1) (withLine (withUnit small (fun x =>
      { x with seq := .transferring, state := .notReady, op := some (working (.flush 1679)) })) { clean with state := .flushing, flushSource := some 0, dirtyEpoch := some 1 })
    (fun t => (t.line 1679).state == .dirty && (t.line 1679).failures == 1) = true := by decide
theorem test_readyRise : after (.readyRise 1) (withUnit small (fun x => { x with state := .notReady }))
    (fun t => (t.unit 1).state == .ready && (t.channel 0).backlog == [.unitReady 1]) = true := by decide
theorem test_readyFall : after (.readyFall 1) small (fun t => (t.unit 1).state == .notReady && (t.unit 1).verifyPending
    && (t.channel 0).backlog == [.unitNotReady 1]) = true := by decide
theorem test_channelDrain : after (.channelDrain 1) (withChannel small 1 (fun x => { x with state := .fencing, cause := .badHead }))
    (fun t => (t.channel 1).state == .fenced && (t.channel 0).backlog == [.channelFenced 1 .badHead]) = true := by decide
theorem test_detachAwaitedReadsEnd : after (.detachAwaitedReadsEnd 1)
    (holding (withUnit small (fun x => { x with detach := some ⟨7, []⟩ })) (asked 0 (unitDetachRecord 5 1) .active))
    (fun t => (t.unit 1).state == .detached) = true := by decide
theorem test_discardThirdStage : after (.discardThirdStage 1)
    (holding (withUnit small (fun x => { x with discarding := true, discard := some 7 })) (asked 0 (unitDiscardRecord 5 1) .active))
    (fun t => !(t.unit 1).discarding) = true := by decide
theorem test_quiescedEntry : after .quiescedEntry { small with part := .quiescing } (·.part == .quiesced) = true := by decide
/-- An empty queue is a millisecond, and a deadline that has stood for one is queued (log 8). -/
theorem test_tick : nextOf (step { busy small .homing (working (.fill 3)) with now := 1000 })
    = some { busy small .homing (working (.fill 3)) with now := 1001, pending := [.unitResponseLimitExpiry 1] } := by decide
/-- The command at the front runs. -/
theorem test_step : nextOf (step { small with pending := [.quiesce, .run] }) = some { small with part := .quiesced, pending := [.run] } := by decide


/-- R71: the writes of a read transfer that ends in FAILED stand in host memory, and nothing else comes of it. -/
theorem test_read_ends_in_failed :
    let r := { asked 1 theRead .active with line := some 1679, delivered := some 0 }
    after (.readTransferComplete 7) { holding (withLine small clean) r with part := .failed } (fun t =>
      t.outbox.length == 1 && t.request 7 == some r && t.refCount 0 == 1 && t.endedInFailed == [7]) = true := by decide
/-- R112, R115: a unit that falls in FAILED with an operation in flight falls in full, and tells channel 0 nothing. -/
theorem test_fall_in_failed : after (.readyFall 1) { busy small .homing (working (.fill 3)) with part := .failed } (fun t =>
    (t.unit 1).state == .notReady && (t.unit 1).op.isNone && (t.unit 1).believed.isNone && (t.channel 0).backlog.isEmpty) = true := by decide
/-- R39: the head of the episode wait list that has no one left to recall uses no record; the next head opens an episode. -/
theorem test_episode_freed :
    let waits := fun c k => { asked c theWrite (.parked .episodeWait) with line := some k }
    let s := { small with
      lines := [(1679, { clean with writer := some 7 }), (1683, { clean with writer := some 8, holders := [3] })], episodeWait := [7, 8]
      table := [(7, some (waits 1 1679)), (8, some (waits 2 1683))] }
    ((s.episodeFreed.finish).episode 0).map (·.writer) = some 8 ∧ (s.episodeFreed.finish).episodeWait = [] := by decide

/-- R22: lines of unit 1 in slots 0 and 1, and three requests that wait for a slot: a READ of a unit that is not READY, and two writers. -/
def slotWaiters : State := fetching { small with
  lines := [(1676, { clean with key := some ⟨1, 0, 5, 3⟩ }), (1679, { clean with currentSlot := some 1 })], refs := [(0, 1), (1, 1)]
  slotWait := [10, 11, 12]
  table := [(10, some (asked 1 (readRecord 0x31 false 2 0 5 2 0x8000) (.parked .slotWait))),
    (11, some { asked 2 (writeRecord 0x32 false 0 0 5 2 0x8000) (.parked .slotWait) with line := some 4 }),
    (12, some { asked 2 (writeRecord 0x33 false 0 0 5 3 0xC000) (.parked .slotWait) with line := some 8 })] } 0

theorem test_detach_slotsInListOrder : let t := (nextOf (exec (.unitDetach 5 1) slotWaiters)).getD small
    (t.request 11).bind Request.staging = some 0 ∧ (t.request 12).bind Request.staging = some 1
      ∧ t.outbox = [.hostRead 0xC000 1024, .hostRead 0x8000 1024] := by decide
/-! ### Witnesses: states and operands that meet the hypotheses of a statement together -/

theorem lawfulSmall : State.Lawful { small with pending := [.quiesce] } :=
  ⟨fun c => by rcases c with _ | _ | _ | _ | c <;> 
      simp [small, admin, data, State.channel, SMap.get, backlogLimit, Config.adminBacklog, Config.dataBacklog],
   ⟨.inr rfl, rfl⟩, by unfold State.CauseMatches; decide,
    fun c => by rcases c with _ | _ | _ | _ | c <;> simp [small, admin, data, State.channel, SMap.get], rfl⟩

theorem countedSmall : State.InFlightCounted { small with pending := [.quiesce] } :=
  counted_of rfl (fun c => by rcases c with _ | _ | _ | _ | c <;> simp [small, State.reset, admin, data, State.channel, SMap.get])
    (fun _ h => nomatch h) (fun c => by rcases c with _ | _ | _ | _ | c <;> simp [small, admin, data, State.channel, SMap.get])
    (fun c => by rcases c with _ | _ | _ | _ | c <;> simp [small, admin, data, State.channel, SMap.get]) rfl

theorem countedFetching : State.InFlightCounted (fetching small 1) :=
  counted_of rfl (fun c => by rcases c with _ | _ | _ | _ | c <;>
      simp [fetching, withChannel, small, State.reset, admin, data, State.channel, SMap.get, SMap.set, SMap.erase, SMap.insert])
    (fun _ h => (Option.some.inj h) ▸ by decide)
    (fun c => by rcases c with _ | _ | _ | _ | c <;> simp [fetching, withChannel, small, admin, data, State.channel, SMap.get, SMap.set, SMap.erase, SMap.insert])
    (fun c => by rcases c with _ | _ | _ | _ | c <;> simp [fetching, withChannel, small, admin, data, State.channel, SMap.get, SMap.set, SMap.erase, SMap.insert]) rfl

def state_StepRunsFrontCommand : State := { small with pending := [.quiesce] }
theorem witness_StepRunsFrontCommand : state_StepRunsFrontCommand.pending = [.quiesce] := by decide
def state_IdleStepQueuesExpiries : State := busy small .homing (working (.fill 3))
theorem witness_IdleStepQueuesExpiries : state_IdleStepQueuesExpiries.pending = [] ∧ state_IdleStepQueuesExpiries.part ≠ .failed := by decide
theorem witness_EveryCommandIsOneWholeStep : State.Settled small := rfl
theorem witness_ControlWritesByPartState_run : State.reset.part = .halted ∧ State.reset.bootAddress.toNat % 64 = 0 ∧ State.reset.bootAddress.toNat +
    64 ≤ 2 ^ 64 := by decide
def state_ControlWritesByPartState_bootInvalid : State := { State.reset with bootAddress := 0xFFFFFFFFFFFFFFE0 }
theorem witness_ControlWritesByPartState_bootInvalid : state_ControlWritesByPartState_bootInvalid.part = .halted ∧ ¬
    (state_ControlWritesByPartState_bootInvalid.bootAddress.toNat % 64 = 0 ∧ state_ControlWritesByPartState_bootInvalid.bootAddress.toNat + 64 ≤ 2 ^
    64) := by decide
def state_ControlWritesByPartState_resumed : State := { small with part := .quiesced }
theorem witness_ControlWritesByPartState_resumed : state_ControlWritesByPartState_resumed.part = .quiesced := by decide
theorem witness_ControlWritesByPartState_runRefused : small.part ≠ .halted ∧ small.part ≠ .quiesced := by decide
theorem witness_ControlWritesByPartState_quiesced : small.part = .running := by decide
theorem witness_ControlWritesByPartState_quiesceRefused : State.reset.part ≠ .running := by decide
theorem witness_ControlWritesByPartState_invalid : (0 : BitVec 32) ≠ 1 ∧ (0 : BitVec 32) ≠ 2 ∧ (0 : BitVec 32) ≠ 3 := by decide
theorem witness_ControlWritesByPartState_others : (∀ v, Instr.fetchGrant ≠ .invalidCommand v) ∧ exec .fetchGrant small = .next ((nextOf (exec
    .fetchGrant small)).getD small) ∧ Instr.fetchGrant ≠ .run ∧ Instr.fetchGrant ≠ .quiesce ∧ Instr.fetchGrant ≠ .reset ∧ Instr.fetchGrant ≠
    .powerOnReset := ⟨(fun _ h => nomatch h), rfl, by decide⟩
theorem witness_QuiescedWhenTheConditionHolds_entered : State.QuiesceCondition small ∧ small.part = .running :=
    ⟨⟨by decide, fun p hp => nomatch hp⟩, by decide⟩
def state_QuiescedWhenTheConditionHolds_waits : State := holding small (asked 1 theRead .active)
theorem witness_QuiescedWhenTheConditionHolds_waits : ¬ State.QuiesceCondition state_QuiescedWhenTheConditionHolds_waits ∧ State.part
    state_QuiescedWhenTheConditionHolds_waits = .running := ⟨(fun h => absurd (h.1 _ (List.mem_singleton.mpr rfl)).1 (by decide)), by decide⟩
def state_QuiescedWhenTheConditionHolds_later : State := { small with part := .quiescing }
theorem witness_QuiescedWhenTheConditionHolds_later : State.QuiesceCondition state_QuiescedWhenTheConditionHolds_later ∧
    state_QuiescedWhenTheConditionHolds_later.part = .quiescing := ⟨⟨by decide, fun p hp => nomatch hp⟩, by decide⟩
def state_QuiescedWhenTheConditionHolds_still : State := { holding small (asked 1 theRead .active) with part := .quiescing }
theorem witness_QuiescedWhenTheConditionHolds_still : ¬ State.QuiesceCondition state_QuiescedWhenTheConditionHolds_still ∧ State.part
    state_QuiescedWhenTheConditionHolds_still = .quiescing := ⟨(fun h => absurd (h.1 _ (List.mem_singleton.mpr rfl)).1 (by decide)), by decide⟩
theorem witness_QuiescedWhenTheConditionHolds_elsewhere : small.part ≠ .quiescing := by decide
def state_ResetsClearEveryBlock_gate : State := withUnit small (fun x => { x with writeGate := true })
theorem witness_ResetsClearEveryBlock_gate : 1 < 4 ∧ (state_ResetsClearEveryBlock_gate.unit 1).writeGate = true := by decide
theorem witness_WindowWritesAndReads_halted : State.reset.part = .halted := by decide
theorem witness_WindowWritesAndReads_elsewhere : small.part ≠ .halted := by decide
theorem witness_WindowWritesAndReads_ignored : ¬ (2 = 4 ∧ ((0x018 : BitVec 12) = 0x004 ∨ (0x018 : BitVec 12) = 0x010 ∨ (0x018 : BitVec 12) = 0x014 ∨
    (0x018 : BitVec 12) = 0x018 ∨ (0x018 : BitVec 12) = 0x01C)) := by decide
def state_BootRecordStartsThePart_least : State := { State.reset with part := .starting }
theorem witness_BootRecordStartsThePart_least : state_BootRecordStartsThePart_least.part = .starting ∧ state_BootRecordStartsThePart_least.pressure =
    false ∧ state_BootRecordStartsThePart_least.dirtyCount = 0 ∧ 4 ≤ 4 ∧ 4 ≤ 8 ∧ 4 ≤ 4 ∧ 4 ≤ 8 ∧ (0 : Addr).toNat % 64 = 0 ∧ (0 : Addr).toNat + 2 ^ 4
    * 64 ≤ 2 ^ 64 ∧ (0 : Addr).toNat % 64 = 0 ∧ (0 : Addr).toNat + 2 ^ 4 * 32 ≤ 2 ^ 64 ∧ 1 ≤ (1 : BitVec 16).toNat ∧ (1 : BitVec 16).toNat ≤ 60000 ∧ 1
    ≤ (1 : BitVec 16).toNat ∧ (1 : BitVec 16).toNat ≤ 60000 ∧ 1 ≤ (1 : BitVec 16).toNat ∧ (1 : BitVec 16).toNat ≤ 4096 ∧ (0 : BitVec 16).toNat < (1 :
    BitVec 16).toNat := by decide
theorem witness_BootRecordStartsThePart_most : state_BootRecordStartsThePart_least.part = .starting ∧ state_BootRecordStartsThePart_least.pressure =
    false ∧ state_BootRecordStartsThePart_least.dirtyCount = 0 ∧ 4 ≤ 8 ∧ 8 ≤ 8 ∧ 4 ≤ 8 ∧ 8 ≤ 8 ∧ (0xFFFFFFFFFFFFC000 : Addr).toNat % 64 = 0 ∧
    (0xFFFFFFFFFFFFC000 : Addr).toNat + 2 ^ 8 * 64 ≤ 2 ^ 64 ∧ (0xFFFFFFFFFFFFE000 : Addr).toNat % 64 = 0 ∧ (0xFFFFFFFFFFFFE000 : Addr).toNat + 2 ^ 8 *
    32 ≤ 2 ^ 64 ∧ 1 ≤ (60000 : BitVec 16).toNat ∧ (60000 : BitVec 16).toNat ≤ 60000 ∧ 1 ≤ (60000 : BitVec 16).toNat ∧ (60000 : BitVec 16).toNat ≤
    60000 ∧ 1 ≤ (4096 : BitVec 16).toNat ∧ (4096 : BitVec 16).toNat ≤ 4096 ∧ (4095 : BitVec 16).toNat < (4096 : BitVec 16).toNat := by decide
def state_WindowWritesAndReads_reads : State := { small with dirtyCount := 4096 }
theorem witness_WindowWritesAndReads_reads : state_WindowWritesAndReads_reads.dirtyCount ≤ 4096 := by decide
theorem witness_TailPostTaken_last : State.Settled small ∧ State.part small ≠ .failed ∧ 1 = (0x001F0001 : BitVec 32).toNat % 16 ∧ 31 = (0x001F0001 :
    BitVec 32).toNat / 2 ^ 16 % 2 ^ 12 ∧ (State.channel small 1).state = .open ∧ (31 < (State.channel small 1).sqSize ∧ ((State.channel small
    1).sqTail + (State.channel small 1).sqSize - (State.channel small 1).sqHead) % (State.channel small 1).sqSize ≤ (31 + (State.channel small
    1).sqSize - (State.channel small 1).sqHead) % (State.channel small 1).sqSize) := ⟨rfl, by decide⟩
theorem witness_TailPostTaken_same : State.Settled small ∧ State.part small ≠ .failed ∧ 1 = (0x00040001 : BitVec 32).toNat % 16 ∧ 4 = (0x00040001 :
    BitVec 32).toNat / 2 ^ 16 % 2 ^ 12 ∧ (State.channel small 1).state = .open ∧ (4 < (State.channel small 1).sqSize ∧ ((State.channel small 1).sqTail
    + (State.channel small 1).sqSize - (State.channel small 1).sqHead) % (State.channel small 1).sqSize ≤ (4 + (State.channel small 1).sqSize -
    (State.channel small 1).sqHead) % (State.channel small 1).sqSize) := ⟨rfl, by decide⟩
theorem witness_TailPostTaken_admin : State.Settled small ∧ State.part small ≠ .failed ∧ 0 = (0x00100000 : BitVec 32).toNat % 16 ∧ 16 = (0x00100000 :
    BitVec 32).toNat / 2 ^ 16 % 2 ^ 12 ∧ (State.channel small 0).state = .open ∧ ¬ (16 < (State.channel small 0).sqSize ∧ ((State.channel small
    0).sqTail + (State.channel small 0).sqSize - (State.channel small 0).sqHead) % (State.channel small 0).sqSize ≤ (16 + (State.channel small
    0).sqSize - (State.channel small 0).sqHead) % (State.channel small 0).sqSize) ∧ 0 = 0 := ⟨rfl, by decide⟩
theorem witness_TailPostTaken_tooLarge : State.Settled small ∧ State.part small ≠ .failed ∧ 1 = (0x00200001 : BitVec 32).toNat % 16 ∧ 32 = (0x00200001
    : BitVec 32).toNat / 2 ^ 16 % 2 ^ 12 ∧ (State.channel small 1).state = .open ∧ ¬ (32 < (State.channel small 1).sqSize ∧ ((State.channel small
    1).sqTail + (State.channel small 1).sqSize - (State.channel small 1).sqHead) % (State.channel small 1).sqSize ≤ (32 + (State.channel small
    1).sqSize - (State.channel small 1).sqHead) % (State.channel small 1).sqSize) ∧ 1 ≠ 0 := ⟨rfl, by decide⟩
theorem witness_TailPostTaken_shorter : State.Settled small ∧ State.part small ≠ .failed ∧ 1 = (0x00030001 : BitVec 32).toNat % 16 ∧ 3 = (0x00030001 :
    BitVec 32).toNat / 2 ^ 16 % 2 ^ 12 ∧ (State.channel small 1).state = .open ∧ ¬ (3 < (State.channel small 1).sqSize ∧ ((State.channel small
    1).sqTail + (State.channel small 1).sqSize - (State.channel small 1).sqHead) % (State.channel small 1).sqSize ≤ (3 + (State.channel small
    1).sqSize - (State.channel small 1).sqHead) % (State.channel small 1).sqSize) ∧ 1 ≠ 0 := ⟨rfl, by decide⟩
theorem witness_TailPostTaken_closed : State.Settled small ∧ State.part small ≠ .failed ∧ 4 = (0x00030004 : BitVec 32).toNat % 16 ∧ 3 = (0x00030004 :
    BitVec 32).toNat / 2 ^ 16 % 2 ^ 12 ∧ (State.channel small 4).state ≠ .open := ⟨rfl, by decide⟩
def state_HeadPostTaken_whole : State := withChannel small 1 (fun x => { x with posted := 2, cqTail := 2 })
theorem witness_HeadPostTaken_whole : State.Settled state_HeadPostTaken_whole ∧ State.part state_HeadPostTaken_whole ≠ .failed ∧ 1 = (0x00020001 :
    BitVec 32).toNat % 16 ∧ 2 = (0x00020001 : BitVec 32).toNat / 2 ^ 16 % 2 ^ 12 ∧ ((State.channel state_HeadPostTaken_whole 1).state = .open ∨
    (State.channel state_HeadPostTaken_whole 1).state = .closing ∨ (State.channel state_HeadPostTaken_whole 1).state = .fencing) ∧ (2 < (State.channel
    state_HeadPostTaken_whole 1).cqSize ∧ (2 + (State.channel state_HeadPostTaken_whole 1).cqSize - (State.channel state_HeadPostTaken_whole
    1).cqHead) % (State.channel state_HeadPostTaken_whole 1).cqSize ≤ ((State.channel state_HeadPostTaken_whole 1).posted + (State.channel
    state_HeadPostTaken_whole 1).cqSize - (State.channel state_HeadPostTaken_whole 1).cqHead) % (State.channel state_HeadPostTaken_whole 1).cqSize) :=
    ⟨rfl, by decide⟩
theorem witness_HeadPostTaken_none : State.Settled state_HeadPostTaken_whole ∧ State.part state_HeadPostTaken_whole ≠ .failed ∧ 1 = (0x00000001 :
    BitVec 32).toNat % 16 ∧ 0 = (0x00000001 : BitVec 32).toNat / 2 ^ 16 % 2 ^ 12 ∧ ((State.channel state_HeadPostTaken_whole 1).state = .open ∨
    (State.channel state_HeadPostTaken_whole 1).state = .closing ∨ (State.channel state_HeadPostTaken_whole 1).state = .fencing) ∧ (0 < (State.channel
    state_HeadPostTaken_whole 1).cqSize ∧ (0 + (State.channel state_HeadPostTaken_whole 1).cqSize - (State.channel state_HeadPostTaken_whole
    1).cqHead) % (State.channel state_HeadPostTaken_whole 1).cqSize ≤ ((State.channel state_HeadPostTaken_whole 1).posted + (State.channel
    state_HeadPostTaken_whole 1).cqSize - (State.channel state_HeadPostTaken_whole 1).cqHead) % (State.channel state_HeadPostTaken_whole 1).cqSize) :=
    ⟨rfl, by decide⟩
theorem witness_HeadPostTaken_admin : State.Settled small ∧ State.part small ≠ .failed ∧ 0 = (0x00010000 : BitVec 32).toNat % 16 ∧ 1 = (0x00010000 :
    BitVec 32).toNat / 2 ^ 16 % 2 ^ 12 ∧ ((State.channel small 0).state = .open ∨ (State.channel small 0).state = .closing ∨ (State.channel small
    0).state = .fencing) ∧ ¬ (1 < (State.channel small 0).cqSize ∧ (1 + (State.channel small 0).cqSize - (State.channel small 0).cqHead) %
    (State.channel small 0).cqSize ≤ ((State.channel small 0).posted + (State.channel small 0).cqSize - (State.channel small 0).cqHead) %
    (State.channel small 0).cqSize) ∧ 0 = 0 := ⟨rfl, by decide⟩
theorem witness_HeadPostTaken_beyond : State.Settled state_HeadPostTaken_whole ∧ State.part state_HeadPostTaken_whole ≠ .failed ∧ 1 = (0x00030001 :
    BitVec 32).toNat % 16 ∧ 3 = (0x00030001 : BitVec 32).toNat / 2 ^ 16 % 2 ^ 12 ∧ ((State.channel state_HeadPostTaken_whole 1).state = .open ∨
    (State.channel state_HeadPostTaken_whole 1).state = .closing) ∧ ¬ (3 < (State.channel state_HeadPostTaken_whole 1).cqSize ∧ (3 + (State.channel
    state_HeadPostTaken_whole 1).cqSize - (State.channel state_HeadPostTaken_whole 1).cqHead) % (State.channel state_HeadPostTaken_whole 1).cqSize ≤
    ((State.channel state_HeadPostTaken_whole 1).posted + (State.channel state_HeadPostTaken_whole 1).cqSize - (State.channel
    state_HeadPostTaken_whole 1).cqHead) % (State.channel state_HeadPostTaken_whole 1).cqSize) ∧ 1 ≠ 0 := ⟨rfl, by decide⟩
def state_HeadPostTaken_fencing : State := withChannel small 1 (fun x => { x with state := .fencing, inFlight := 1 })
theorem witness_HeadPostTaken_fencing : State.Settled state_HeadPostTaken_fencing ∧ State.part state_HeadPostTaken_fencing ≠ .failed ∧ 1 = (0x00400001
    : BitVec 32).toNat % 16 ∧ 64 = (0x00400001 : BitVec 32).toNat / 2 ^ 16 % 2 ^ 12 ∧ (State.channel state_HeadPostTaken_fencing 1).state = .fencing ∧
    ¬ (64 < (State.channel state_HeadPostTaken_fencing 1).cqSize ∧ (64 + (State.channel state_HeadPostTaken_fencing 1).cqSize - (State.channel
    state_HeadPostTaken_fencing 1).cqHead) % (State.channel state_HeadPostTaken_fencing 1).cqSize ≤ ((State.channel state_HeadPostTaken_fencing
    1).posted + (State.channel state_HeadPostTaken_fencing 1).cqSize - (State.channel state_HeadPostTaken_fencing 1).cqHead) % (State.channel
    state_HeadPostTaken_fencing 1).cqSize) ∧ 1 ≠ 0 := ⟨rfl, by decide⟩
theorem witness_HeadPostTaken_closed : State.Settled small ∧ State.part small ≠ .failed ∧ 4 = (0x00010004 : BitVec 32).toNat % 16 ∧ 1 = (0x00010004 :
    BitVec 32).toNat / 2 ^ 16 % 2 ^ 12 ∧ ¬ ((State.channel small 4).state = .open ∨ (State.channel small 4).state = .closing ∨ (State.channel small
    4).state = .fencing) := ⟨rfl, by decide⟩
def state_FenceTakesChannelOutOfService_holds : State := withChannel (withLine (holding small (asked 1 (barrierRecord 5) (.parked .fetchHold)))
    { clean with holders := [1] }) 1 (fun x => { x with fetchHold := some 7, holdCount := 1 })
theorem witness_FenceTakesChannelOutOfService_holds : 1 ≠ 0 ∧ (State.channel state_FenceTakesChannelOutOfService_holds 1).state = .open ∧
    (State.channel state_FenceTakesChannelOutOfService_holds 1).holdCount = ((State.lines state_FenceTakesChannelOutOfService_holds).filter (fun p =>
    p.2.holders.contains 1)).length := by decide
theorem witness_FenceTakesChannelOutOfService_fetchHold : (∀ b, (State.channel state_FenceTakesChannelOutOfService_holds 1).fetchHold = some b → ∃ r,
    State.request state_FenceTakesChannelOutOfService_holds b = some r ∧ r.channel = 1 ∧ r.place = .parked .fetchHold) ∧ 1 ≠ 0 ∧ (State.channel
    state_FenceTakesChannelOutOfService_holds 1).state = .open :=
    ⟨(fun b h => by
      obtain rfl : 7 = b := Option.some.inj h
      exact ⟨_, rfl, rfl, rfl⟩), by decide⟩
def request_FenceTakesChannelOutOfService_ended : Request := asked 1 (barrierRecord 5) (.parked .fetchHold)
theorem witness_FenceTakesChannelOutOfService_ended : 1 ≠ 0 ∧ (State.channel state_FenceTakesChannelOutOfService_holds 1).state = .open ∧
    State.request state_FenceTakesChannelOutOfService_holds 7 = some request_FenceTakesChannelOutOfService_ended ∧
    request_FenceTakesChannelOutOfService_ended.channel = 1 ∧ request_FenceTakesChannelOutOfService_ended.isParked = true ∧ (State.channel
    state_FenceTakesChannelOutOfService_holds 1).postError = false ∧ FenceCause.badTail ≠ .completionPostError := by decide
theorem witness_FenceTakesChannelOutOfService_remaining : 1 ≠ 0 ∧ (State.channel state_FenceTakesChannelOutOfService_holds 1).state = .open ∧
    (State.fence state_FenceTakesChannelOutOfService_holds 1 .badTail).request 7 = some (request_FenceTakesChannelOutOfService_ended.ended
    { status := .fenced, epoch := State.barrierEpoch state_FenceTakesChannelOutOfService_holds 7 request_FenceTakesChannelOutOfService_ended }) ∧
    (request_FenceTakesChannelOutOfService_ended.ended
    { status := .fenced, epoch := State.barrierEpoch state_FenceTakesChannelOutOfService_holds 7 request_FenceTakesChannelOutOfService_ended }).channel
    = 1 := by decide
theorem witness_FenceTakesChannelOutOfService_postError : 1 ≠ 0 ∧ (State.channel state_FenceTakesChannelOutOfService_holds 1).state = .open ∧
    FenceCause.completionPostError = .completionPostError := by decide
theorem witness_FetchGrantedInTurn_grants : (∃ e, e < 256 ∧ small.request e = none) ∧ (∃ c, c ≤ 15 ∧ ((State.channel small c).state = .open ∧
    (State.channel small c).sqHead ≠ (State.channel small c).sqTail ∧ (∃ l, (State.channel small c).limit = some l ∧ (State.channel small c).inFlight
    < l) ∧ (State.channel small c).reserved < (State.channel small c).cqSize - 1 - ((State.channel small c).cqTail + (State.channel small c).cqSize -
    (State.channel small c).cqHead) % (State.channel small c).cqSize ∧ (State.channel small c).fetchHold = none)) ∧ 1 ≤ small.lastGranted ∧
    small.lastGranted ≤ 15 ∧ small.fetch = none ∧ (small.part = .running ∨ small.part = .quiescing) :=
    ⟨⟨255, by decide⟩, ⟨0, by decide, by decide, by decide, ⟨8, by decide⟩, by decide, by decide⟩, by decide⟩
def state_FetchGrantedInTurn_none : State := { small with part := .halted }
theorem witness_FetchGrantedInTurn_none : ¬ (State.fetch state_FetchGrantedInTurn_none = none ∧ (State.part state_FetchGrantedInTurn_none = .running ∨
    State.part state_FetchGrantedInTurn_none = .quiescing) ∧ (∃ e, e < 256 ∧ State.request state_FetchGrantedInTurn_none e = none) ∧ ∃ c, c ≤ 15 ∧
    ((State.channel state_FetchGrantedInTurn_none c).state = .open ∧ (State.channel state_FetchGrantedInTurn_none c).sqHead ≠ (State.channel
    state_FetchGrantedInTurn_none c).sqTail ∧ (∃ l, (State.channel state_FetchGrantedInTurn_none c).limit = some l ∧ (State.channel
    state_FetchGrantedInTurn_none c).inFlight < l) ∧ (State.channel state_FetchGrantedInTurn_none c).reserved < (State.channel
    state_FetchGrantedInTurn_none c).cqSize - 1 - ((State.channel state_FetchGrantedInTurn_none c).cqTail + (State.channel
    state_FetchGrantedInTurn_none c).cqSize - (State.channel state_FetchGrantedInTurn_none c).cqHead) % (State.channel state_FetchGrantedInTurn_none
    c).cqSize ∧ (State.channel state_FetchGrantedInTurn_none c).fetchHold = none)) ∧ 1 ≤ State.lastGranted state_FetchGrantedInTurn_none ∧
    State.lastGranted state_FetchGrantedInTurn_none ≤ 15 := ⟨(fun h => absurd h.2.1 (by decide)), by decide⟩
def state_FetchEndsWithoutARecord_failed : State := { fetching small 1 with part := .failed }
theorem witness_FetchEndsWithoutARecord_failed : State.Settled state_FetchEndsWithoutARecord_failed ∧ State.fetch state_FetchEndsWithoutARecord_failed
    = some ⟨1, 9⟩ ∧ 0 < (State.channel state_FetchEndsWithoutARecord_failed 1).inFlight ∧ (State.channel state_FetchEndsWithoutARecord_failed 1).state
    ≠ .fenced ∧ (State.channel state_FetchEndsWithoutARecord_failed 1).state ≠ .closed ∧ State.part state_FetchEndsWithoutARecord_failed = .failed :=
    ⟨rfl, by decide⟩
def state_FetchEndsWithoutARecord_quiesced : State := { fetching small 1 with part := .quiesced }
theorem witness_FetchEndsWithoutARecord_quiesced : State.Settled state_FetchEndsWithoutARecord_quiesced ∧ State.fetch
    state_FetchEndsWithoutARecord_quiesced = some ⟨1, 9⟩ ∧ 0 < (State.channel state_FetchEndsWithoutARecord_quiesced 1).inFlight ∧ (State.channel
    state_FetchEndsWithoutARecord_quiesced 1).state ≠ .fenced ∧ (State.channel state_FetchEndsWithoutARecord_quiesced 1).state ≠ .closed ∧ State.part
    state_FetchEndsWithoutARecord_quiesced = .quiesced ∧ (State.channel state_FetchEndsWithoutARecord_quiesced 1).state = .open := ⟨rfl, by decide⟩
def state_FetchEndsWithoutARecord_closing : State := fetching (withChannel state_QuiescedWhenTheConditionHolds_waits 1 (fun x =>
    { x with state := .closing })) 1
theorem witness_FetchEndsWithoutARecord_closing : State.Settled state_FetchEndsWithoutARecord_closing ∧ State.fetch
    state_FetchEndsWithoutARecord_closing = some ⟨1, 9⟩ ∧ 0 < (State.channel state_FetchEndsWithoutARecord_closing 1).inFlight ∧ (State.channel
    state_FetchEndsWithoutARecord_closing 1).state ≠ .fenced ∧ (State.channel state_FetchEndsWithoutARecord_closing 1).state ≠ .closed ∧ State.part
    state_FetchEndsWithoutARecord_closing ≠ .failed ∧ 1 ≠ 0 ∧ ((State.channel state_FetchEndsWithoutARecord_closing 1).state = .closing ∨
    (State.channel state_FetchEndsWithoutARecord_closing 1).state = .fencing) ∧ (1 < (State.channel state_FetchEndsWithoutARecord_closing 1).inFlight
    ∨ (State.channel state_FetchEndsWithoutARecord_closing 1).writing ≠ none) := ⟨rfl, by decide⟩
def state_FetchEndsWithoutARecord_fencing : State := fetching (withChannel small 1 (fun x =>
    { x with state := .fencing, writing := some ⟨[], 0, none⟩ })) 1
theorem witness_FetchEndsWithoutARecord_fencing : State.Settled state_FetchEndsWithoutARecord_fencing ∧ State.fetch
    state_FetchEndsWithoutARecord_fencing = some ⟨1, 9⟩ ∧ 0 < (State.channel state_FetchEndsWithoutARecord_fencing 1).inFlight ∧ (State.channel
    state_FetchEndsWithoutARecord_fencing 1).state ≠ .fenced ∧ (State.channel state_FetchEndsWithoutARecord_fencing 1).state ≠ .closed ∧ State.part
    state_FetchEndsWithoutARecord_fencing ≠ .failed ∧ 1 ≠ 0 ∧ ((State.channel state_FetchEndsWithoutARecord_fencing 1).state = .closing ∨
    (State.channel state_FetchEndsWithoutARecord_fencing 1).state = .fencing) ∧ (1 < (State.channel state_FetchEndsWithoutARecord_fencing 1).inFlight
    ∨ (State.channel state_FetchEndsWithoutARecord_fencing 1).writing ≠ none) := ⟨rfl, by decide⟩
def request_FetchEndsWithoutARecord_closed : Request := asked 0 (channelCloseRecord 5 1) .active
def state_FetchEndsWithoutARecord_closed : State := fetching (withChannel (holding small request_FetchEndsWithoutARecord_closed) 1 (fun x =>
    { x with state := .closing, closeEntry := some 7 })) 1
theorem witness_FetchEndsWithoutARecord_closed : State.Settled state_FetchEndsWithoutARecord_closed ∧ State.Completes
    state_FetchEndsWithoutARecord_closed 7 request_FetchEndsWithoutARecord_closed ∧ State.fetch state_FetchEndsWithoutARecord_closed = some ⟨1, 9⟩ ∧ 0
    < (State.channel state_FetchEndsWithoutARecord_closed 1).inFlight ∧ (State.channel state_FetchEndsWithoutARecord_closed 1).state ≠ .fenced ∧
    (State.channel state_FetchEndsWithoutARecord_closed 1).state ≠ .closed ∧ State.part state_FetchEndsWithoutARecord_closed ≠ .failed ∧ 1 ≠ 0 ∧
    (State.channel state_FetchEndsWithoutARecord_closed 1).state = .closing ∧ (State.channel state_FetchEndsWithoutARecord_closed 1).inFlight = 1 ∧
    (State.channel state_FetchEndsWithoutARecord_closed 1).writing = none ∧ (State.channel state_FetchEndsWithoutARecord_closed 1).closeEntry = some 7
    ∧ request_FetchEndsWithoutARecord_closed.channel = 0 ∧ ((none : Option (List Byte)) = none ∨ (none : Option (List Byte)) = some []) :=
    ⟨rfl, completes_of (by decide), by decide⟩
theorem witness_FetchEndsWithoutARecord_closedByARecord : State.Settled state_FetchEndsWithoutARecord_closed ∧ State.Completes
    state_FetchEndsWithoutARecord_closed 7 request_FetchEndsWithoutARecord_closed ∧ State.fetch state_FetchEndsWithoutARecord_closed = some ⟨1, 9⟩ ∧ 0
    < (State.channel state_FetchEndsWithoutARecord_closed 1).inFlight ∧ (State.channel state_FetchEndsWithoutARecord_closed 1).state ≠ .fenced ∧
    (State.channel state_FetchEndsWithoutARecord_closed 1).state ≠ .closed ∧ State.part state_FetchEndsWithoutARecord_closed ≠ .failed ∧ 1 ≠ 0 ∧
    (State.channel state_FetchEndsWithoutARecord_closed 1).state = .closing ∧ (State.channel state_FetchEndsWithoutARecord_closed 1).inFlight = 1 ∧
    (State.channel state_FetchEndsWithoutARecord_closed 1).writing = none ∧ (State.channel state_FetchEndsWithoutARecord_closed 1).closeEntry = some 7
    ∧ request_FetchEndsWithoutARecord_closed.channel = 0 ∧ (some ([] : List Byte) = none ∨ some ([] : List Byte) = some []) :=
    ⟨rfl, completes_of (by decide), by decide⟩
def state_FetchEndsWithoutARecord_drained : State := fetching (withChannel small 1 (fun x => { x with state := .fencing, cause := .badTail })) 1
theorem witness_FetchEndsWithoutARecord_drained : State.Settled state_FetchEndsWithoutARecord_drained ∧ State.fetch
    state_FetchEndsWithoutARecord_drained = some ⟨1, 9⟩ ∧ 0 < (State.channel state_FetchEndsWithoutARecord_drained 1).inFlight ∧ (State.channel
    state_FetchEndsWithoutARecord_drained 1).state ≠ .fenced ∧ (State.channel state_FetchEndsWithoutARecord_drained 1).state ≠ .closed ∧ State.part
    state_FetchEndsWithoutARecord_drained ≠ .failed ∧ 1 ≠ 0 ∧ (State.channel state_FetchEndsWithoutARecord_drained 1).state = .fencing ∧
    (State.channel state_FetchEndsWithoutARecord_drained 1).inFlight = 1 ∧ (State.channel state_FetchEndsWithoutARecord_drained 1).writing = none ∧
    (State.channel state_FetchEndsWithoutARecord_drained 1).closePending = false ∧ (State.channel state_FetchEndsWithoutARecord_drained 0).state =
    .open ∧ (State.channel state_FetchEndsWithoutARecord_drained 0).backlog.length < 32 ∧ (some ([] : List Byte) = none ∨ some ([] : List Byte) = some
    []) := ⟨rfl, by decide⟩
theorem witness_FetchEndsWithoutARecord_admin : State.Settled (fetching small 0) ∧ State.fetch (fetching small 0) = some ⟨0, 9⟩ ∧ 0 < (State.channel
    (fetching small 0) 0).inFlight ∧ (State.channel (fetching small 0) 0).state ≠ .fenced ∧ (State.channel (fetching small 0) 0).state ≠ .closed ∧
    State.part (fetching small 0) ≠ .failed ∧ 0 = 0 ∧ (State.channel (fetching small 0) 0).state = .open := ⟨rfl, by decide⟩
theorem witness_FetchEndsWithoutARecord_fenced : State.Settled (fetching small 1) ∧ State.fetch (fetching small 1) = some ⟨1, 9⟩ ∧ 0 < (State.channel
    (fetching small 1) 1).inFlight ∧ (State.channel (fetching small 1) 1).state ≠ .fenced ∧ (State.channel (fetching small 1) 1).state ≠ .closed ∧
    State.part (fetching small 1) ≠ .failed ∧ 1 ≠ 0 ∧ (State.channel (fetching small 1) 1).state = .open := ⟨rfl, by decide⟩
def state_FetchEndsWithoutARecord_fencedWhole : State := fetching state_QuiescedWhenTheConditionHolds_waits 1
theorem witness_FetchEndsWithoutARecord_fencedWhole : State.Settled state_FetchEndsWithoutARecord_fencedWhole ∧ State.fetch
    state_FetchEndsWithoutARecord_fencedWhole = some ⟨1, 9⟩ ∧ 0 < (State.channel state_FetchEndsWithoutARecord_fencedWhole 1).inFlight ∧
    (State.channel state_FetchEndsWithoutARecord_fencedWhole 1).state ≠ .fenced ∧ (State.channel state_FetchEndsWithoutARecord_fencedWhole 1).state ≠
    .closed ∧ State.part state_FetchEndsWithoutARecord_fencedWhole ≠ .failed ∧ 1 ≠ 0 ∧ (State.channel state_FetchEndsWithoutARecord_fencedWhole
    1).state = .open ∧ 1 < (State.channel state_FetchEndsWithoutARecord_fencedWhole 1).inFlight ∧ (∀ p ∈ State.lines
    state_FetchEndsWithoutARecord_fencedWhole, 1 ∉ p.2.holders) ∧ (∀ p ∈ State.held state_FetchEndsWithoutARecord_fencedWhole, p.2.channel = 1 →
    p.2.isParked = false) := ⟨rfl, by decide⟩
theorem witness_RecordBytesRoundTrip_record : theRead.gap.length = 4 ∧ theRead.rest.length = 24 := by decide
theorem witness_RecordBytesRoundTrip_bytes : (List.replicate 64 (0xFF : Byte)).length = 64 := by decide
theorem witness_RecordBytesRoundTrip_command : (Instr.barrier 5).record = some (barrierRecord 5) := rfl
theorem witness_FailedCheckCompletesAtOnce : State.Takes (fetching small 1) 1 9 ∧ State.validate (fetching small 1) 1 (Record.parse (readRecord 5
    false 1 0 2000 2 0x4000).bytes) = some .badRecord := ⟨takes_of (by decide), by decide⟩
def state_ReadHitStartsItsTransfer : State := fetching (withLine small clean) 1
theorem witness_ReadHitStartsItsTransfer : State.Takes state_ReadHitStartsItsTransfer 1 9 ∧ State.validate state_ReadHitStartsItsTransfer 1 theRead =
    none ∧ State.lookup state_ReadHitStartsItsTransfer key = some 1679 ∧ (State.line state_ReadHitStartsItsTransfer 1679).state ≠ .filling ∧
    (State.line state_ReadHitStartsItsTransfer 1679).state ≠ .loading ∧ (State.line state_ReadHitStartsItsTransfer 1679).waitList = [] ∧ (State.line
    state_ReadHitStartsItsTransfer 1679).currentSlot = some 0 := ⟨takes_of (by decide), by decide⟩
def state_ReadMissClaimsAWay_notReady : State := fetching (withUnit small (fun x => { x with state := .notReady })) 1
theorem witness_ReadMissClaimsAWay_notReady : State.Takes state_ReadMissClaimsAWay_notReady 1 9 ∧ State.validate state_ReadMissClaimsAWay_notReady 1
    theRead = none ∧ State.lookup state_ReadMissClaimsAWay_notReady key = none ∧ (State.unit state_ReadMissClaimsAWay_notReady 1).state ≠ .ready :=
    ⟨takes_of (by decide), by decide⟩
def state_ReadMissClaimsAWay_claims : State := fetching state_IdleStepQueuesExpiries 1
theorem witness_ReadMissClaimsAWay_claims : State.Takes state_ReadMissClaimsAWay_claims 1 9 ∧ State.validate state_ReadMissClaimsAWay_claims 1 theRead
    = none ∧ State.lookup state_ReadMissClaimsAWay_claims key = none ∧ (State.unit state_ReadMissClaimsAWay_claims 1).state = .ready ∧ (State.unit
    state_ReadMissClaimsAWay_claims 1).op.isSome = true ∧ State.leastRecent state_ReadMissClaimsAWay_claims 419 (fun j => (State.line
    state_ReadMissClaimsAWay_claims j).state == .free) = some 1679 ∧ (State.line state_ReadMissClaimsAWay_claims 1679) = {} ∧ State.freeSlot
    state_ReadMissClaimsAWay_claims = some 0 ∧ (∀ p ∈ State.setWait state_ReadMissClaimsAWay_claims, p.1 ≠ 419) ∧ 1679 / 4 = 419 :=
    ⟨takes_of (by decide), by decide⟩
def state_WriteHitBecomesWriter : State := fetching (withLine small { clean with holders := [1] }) 1
theorem witness_WriteHitBecomesWriter : State.Takes state_WriteHitBecomesWriter 1 9 ∧ State.validate state_WriteHitBecomesWriter 1 theWrite = none ∧
    State.lookup state_WriteHitBecomesWriter key = some 1679 ∧ (State.line state_WriteHitBecomesWriter 1679).state ≠ .filling ∧ (State.line
    state_WriteHitBecomesWriter 1679).state ≠ .loading ∧ (State.line state_WriteHitBecomesWriter 1679).waitList = [] ∧ (State.line
    state_WriteHitBecomesWriter 1679).writer = none ∧ (∀ d ∈ (State.line state_WriteHitBecomesWriter 1679).holders, d = 1) ∧ State.freeSlot
    state_WriteHitBecomesWriter = some 1 := ⟨takes_of (by decide), by decide⟩
def state_WriteRecallsTheOtherHolders : State := fetching (withLine small { clean with holders := [1, 2, 3] }) 1
theorem witness_WriteRecallsTheOtherHolders : State.Takes state_WriteRecallsTheOtherHolders 1 9 ∧ (∀ m, m < 0 → State.episode
    state_WriteRecallsTheOtherHolders m ≠ none) ∧ State.validate state_WriteRecallsTheOtherHolders 1 theWrite = none ∧ State.lookup
    state_WriteRecallsTheOtherHolders key = some 1679 ∧ (State.line state_WriteRecallsTheOtherHolders 1679).state ≠ .filling ∧ (State.line
    state_WriteRecallsTheOtherHolders 1679).state ≠ .loading ∧ (State.line state_WriteRecallsTheOtherHolders 1679).waitList = [] ∧ (State.line
    state_WriteRecallsTheOtherHolders 1679).writer = none ∧ ((State.line state_WriteRecallsTheOtherHolders 1679).holders.filter (fun d => decide (d ≠
    1))) ≠ [] ∧ ((State.line state_WriteRecallsTheOtherHolders 1679).holders.filter (fun d => decide (d ≠ 1))).Nodup ∧ 0 ∉ ((State.line
    state_WriteRecallsTheOtherHolders 1679).holders.filter (fun d => decide (d ≠ 1))) ∧ (∀ d ∈ ((State.line state_WriteRecallsTheOtherHolders
    1679).holders.filter (fun d => decide (d ≠ 1))), (State.channel state_WriteRecallsTheOtherHolders d).state = .open ∧ (State.channel
    state_WriteRecallsTheOtherHolders d).backlog.length < 48) ∧ 0 < 32 ∧ State.episode state_WriteRecallsTheOtherHolders 0 = none ∧ State.params
    state_WriteRecallsTheOtherHolders = some ⟨500, 2000, 100, 50⟩ := ⟨takes_of (by decide), (fun m hm => absurd hm (Nat.not_lt_zero m)), by decide⟩
theorem witness_WriteMissLoads : State.Takes (fetching small 1) 1 9 ∧ State.validate (fetching small 1) 1 theWrite = none ∧ State.lookup (fetching
    small 1) key = none ∧ State.leastRecent (fetching small 1) 419 (fun j => (State.line (fetching small 1) j).state == .free) = some 1679 ∧
    (State.line (fetching small 1) 1679) = {} ∧ State.freeSlot (fetching small 1) = some 0 ∧ (∀ p ∈ State.setWait (fetching small 1), p.1 ≠ 419) ∧
    1679 / 4 = 419 ∧ State.params (fetching small 1) = some ⟨500, 2000, 100, 50⟩ := ⟨takes_of (by decide), by decide⟩
def state_MissEvictsOrWaits_evictsForARead : State := fetching
    { busy small .homing (working (.fill 3)) with lines := [(1676, { clean with state := .dirty, key := some ⟨1, 0, 5, 4⟩, currentSlot := some 4, dirtyEpoch := some 1 }), (1677, { clean with state := .dirty, key := some ⟨1, 0, 5, 5⟩, currentSlot := some 5, dirtyEpoch := some 1 }), (1678, { clean with state := .dirty, key := some ⟨1, 0, 5, 6⟩, currentSlot := some 6, dirtyEpoch := some 1 }), (1679, { clean with key := some ⟨1, 0, 37, 2⟩ })], refs := [(0, 1), (4, 1), (5, 1), (6, 1)] }
    1
theorem witness_MissEvictsOrWaits_evictsForARead : State.Takes state_MissEvictsOrWaits_evictsForARead 1 9 ∧ State.lookup
    state_MissEvictsOrWaits_evictsForARead key = none ∧ State.params state_MissEvictsOrWaits_evictsForARead = some ⟨500, 2000, 100, 50⟩ ∧ (State.unit
    state_MissEvictsOrWaits_evictsForARead 1).state = .ready ∧ (State.unit state_MissEvictsOrWaits_evictsForARead 1).op.isSome = true ∧ State.validate
    state_MissEvictsOrWaits_evictsForARead 1 theRead = none ∧ State.leastRecent state_MissEvictsOrWaits_evictsForARead 419 (fun j => (State.line
    state_MissEvictsOrWaits_evictsForARead j).state == .free) = none ∧ State.leastRecent state_MissEvictsOrWaits_evictsForARead 419 (fun j =>
    (State.line state_MissEvictsOrWaits_evictsForARead j).state == .clean && (State.line state_MissEvictsOrWaits_evictsForARead j).holders.isEmpty &&
    (State.line state_MissEvictsOrWaits_evictsForARead j).waitList.isEmpty && (State.line state_MissEvictsOrWaits_evictsForARead j).episode.isNone &&
    (State.line state_MissEvictsOrWaits_evictsForARead j).writer.isNone && (State.line state_MissEvictsOrWaits_evictsForARead j).currentSlot.any (fun
    slot => State.refCount state_MissEvictsOrWaits_evictsForARead slot == 1)) = some 1679 ∧ 1679 / 4 = 419 ∧ (State.line
    state_MissEvictsOrWaits_evictsForARead 1679).currentSlot = some 0 ∧ (∀ q ∈ State.setWait state_MissEvictsOrWaits_evictsForARead, q.1 ≠ 419) :=
    ⟨takes_of (by decide), by decide⟩
theorem witness_MissEvictsOrWaits_evictsForAWrite : State.Takes state_MissEvictsOrWaits_evictsForARead 1 9 ∧ State.lookup
    state_MissEvictsOrWaits_evictsForARead key = none ∧ State.params state_MissEvictsOrWaits_evictsForARead = some ⟨500, 2000, 100, 50⟩ ∧ (State.unit
    state_MissEvictsOrWaits_evictsForARead 1).state = .ready ∧ (State.unit state_MissEvictsOrWaits_evictsForARead 1).op.isSome = true ∧ State.validate
    state_MissEvictsOrWaits_evictsForARead 1 theWrite = none ∧ State.leastRecent state_MissEvictsOrWaits_evictsForARead 419 (fun j => (State.line
    state_MissEvictsOrWaits_evictsForARead j).state == .free) = none ∧ State.leastRecent state_MissEvictsOrWaits_evictsForARead 419 (fun j =>
    (State.line state_MissEvictsOrWaits_evictsForARead j).state == .clean && (State.line state_MissEvictsOrWaits_evictsForARead j).holders.isEmpty &&
    (State.line state_MissEvictsOrWaits_evictsForARead j).waitList.isEmpty && (State.line state_MissEvictsOrWaits_evictsForARead j).episode.isNone &&
    (State.line state_MissEvictsOrWaits_evictsForARead j).writer.isNone && (State.line state_MissEvictsOrWaits_evictsForARead j).currentSlot.any (fun
    slot => State.refCount state_MissEvictsOrWaits_evictsForARead slot == 1)) = some 1679 ∧ 1679 / 4 = 419 ∧ (State.line
    state_MissEvictsOrWaits_evictsForARead 1679).currentSlot = some 0 ∧ (∀ q ∈ State.setWait state_MissEvictsOrWaits_evictsForARead, q.1 ≠ 419) :=
    ⟨takes_of (by decide), by decide⟩
def state_MissEvictsOrWaits_slotWait : State := fetching { busy small .homing (working (.fill 3)) with refs := everySlot } 1
theorem witness_MissEvictsOrWaits_slotWait : State.Takes state_MissEvictsOrWaits_slotWait 1 9 ∧ (∀ slot, slot < 4224 → State.refCount
    state_MissEvictsOrWaits_slotWait slot ≠ 0) ∧ State.lookup state_MissEvictsOrWaits_slotWait key = none ∧ State.params
    state_MissEvictsOrWaits_slotWait = some ⟨500, 2000, 100, 50⟩ ∧ (State.unit state_MissEvictsOrWaits_slotWait 1).state = .ready ∧ (State.unit
    state_MissEvictsOrWaits_slotWait 1).op.isSome = true ∧ State.validate state_MissEvictsOrWaits_slotWait 1 theWrite = none ∧ State.leastRecent
    state_MissEvictsOrWaits_slotWait 419 (fun j => (State.line state_MissEvictsOrWaits_slotWait j).state == .free) ≠ none ∧ State.leastRecent
    state_MissEvictsOrWaits_slotWait 419 (fun j => (State.line state_MissEvictsOrWaits_slotWait j).state == .clean && (State.line
    state_MissEvictsOrWaits_slotWait j).holders.isEmpty && (State.line state_MissEvictsOrWaits_slotWait j).waitList.isEmpty && (State.line
    state_MissEvictsOrWaits_slotWait j).episode.isNone && (State.line state_MissEvictsOrWaits_slotWait j).writer.isNone && (State.line
    state_MissEvictsOrWaits_slotWait j).currentSlot.any (fun slot => State.refCount state_MissEvictsOrWaits_slotWait slot == 1)) = none :=
    ⟨takes_of (by decide), (fun n h => everySlot_held h), by decide⟩
def state_MissEvictsOrWaits_setWait : State := fetching
    { busy small .homing (working (.fill 3)) with lines := [(1676, { clean with state := .dirty, key := some ⟨1, 0, 5, 4⟩, currentSlot := some 4, dirtyEpoch := some 1 }), (1677, { clean with state := .dirty, key := some ⟨1, 0, 5, 5⟩, currentSlot := some 5, dirtyEpoch := some 1 }), (1678, { clean with state := .dirty, key := some ⟨1, 0, 5, 6⟩, currentSlot := some 6, dirtyEpoch := some 1 }), (1679, { clean with key := some ⟨1, 0, 37, 2⟩, holders := [2] })], refs := [(0, 1), (4, 1), (5, 1), (6, 1)] }
    1
theorem witness_MissEvictsOrWaits_setWait : State.Takes state_MissEvictsOrWaits_setWait 1 9 ∧ State.lookup state_MissEvictsOrWaits_setWait key = none
    ∧ State.params state_MissEvictsOrWaits_setWait = some ⟨500, 2000, 100, 50⟩ ∧ (State.unit state_MissEvictsOrWaits_setWait 1).state = .ready ∧
    (State.unit state_MissEvictsOrWaits_setWait 1).op.isSome = true ∧ State.validate state_MissEvictsOrWaits_setWait 1 theRead = none ∧
    State.leastRecent state_MissEvictsOrWaits_setWait 419 (fun j => (State.line state_MissEvictsOrWaits_setWait j).state == .free) = none ∧
    State.leastRecent state_MissEvictsOrWaits_setWait 419 (fun j => (State.line state_MissEvictsOrWaits_setWait j).state == .clean && (State.line
    state_MissEvictsOrWaits_setWait j).holders.isEmpty && (State.line state_MissEvictsOrWaits_setWait j).waitList.isEmpty && (State.line
    state_MissEvictsOrWaits_setWait j).episode.isNone && (State.line state_MissEvictsOrWaits_setWait j).writer.isNone && (State.line
    state_MissEvictsOrWaits_setWait j).currentSlot.any (fun slot => State.refCount state_MissEvictsOrWaits_setWait slot == 1)) = none :=
    ⟨takes_of (by decide), by decide⟩
def request_WaitersGoOnWhenAWayOrASlotFrees_setRead : Request :=
    { asked 2 (readRecord 0x31 false 1 0 37 2 0x4000) (.parked .setWait) with deadline := some 2000 }
def state_WaitersGoOnWhenAWayOrASlotFrees_setRead : State := fetching
    { withChannel state_IdleStepQueuesExpiries 1 (fun x => { x with holdCount := 1 }) with lines := [(1676, { clean with state := .dirty, key := some ⟨1, 0, 5, 4⟩, currentSlot := some 4, dirtyEpoch := some 1 }), (1677, { clean with state := .dirty, key := some ⟨1, 0, 5, 5⟩, currentSlot := some 5, dirtyEpoch := some 1 }), (1678, { clean with state := .dirty, key := some ⟨1, 0, 5, 6⟩, currentSlot := some 6, dirtyEpoch := some 1 }), (1679, { clean with holders := [1] })], refs := [(0, 1), (4, 1), (5, 1), (6, 1)], setWait := [(419, [7, 8, 10])], table := [(7, some request_WaitersGoOnWhenAWayOrASlotFrees_setRead), (8, some { asked 2 (writeRecord 0x32 false 1 0 37 2 0x8000) (.parked .setWait) with deadline := some 2000 }), (10, some { asked 2 (readRecord 0x33 false 1 0 69 2 0xC000) (.parked .setWait) with deadline := some 2000 })] }
    1
theorem witness_WaitersGoOnWhenAWayOrASlotFrees_setRead : State.Takes state_WaitersGoOnWhenAWayOrASlotFrees_setRead 1 9 ∧ (∀ j ∈ [7, 8, 10], ∃ y,
    State.request state_WaitersGoOnWhenAWayOrASlotFrees_setRead j = some y ∧ (y.kind = some .read ∨ y.kind = some .write) ∧ (State.unit
    state_WaitersGoOnWhenAWayOrASlotFrees_setRead y.key.unit).state = .ready) ∧ State.validate state_WaitersGoOnWhenAWayOrASlotFrees_setRead 1
    (releaseRecord 5 none 1 0 5 2) = none ∧ State.lookup state_WaitersGoOnWhenAWayOrASlotFrees_setRead key = some 1679 ∧ (State.line
    state_WaitersGoOnWhenAWayOrASlotFrees_setRead 1679).state = .clean ∧ (State.line state_WaitersGoOnWhenAWayOrASlotFrees_setRead 1679).holders = [1]
    ∧ (State.line state_WaitersGoOnWhenAWayOrASlotFrees_setRead 1679).waitList = [] ∧ (State.line state_WaitersGoOnWhenAWayOrASlotFrees_setRead
    1679).episode = none ∧ (State.line state_WaitersGoOnWhenAWayOrASlotFrees_setRead 1679).writer = none ∧ (State.line
    state_WaitersGoOnWhenAWayOrASlotFrees_setRead 1679).currentSlot = some 0 ∧ State.refCount state_WaitersGoOnWhenAWayOrASlotFrees_setRead 0 = 1 ∧
    1679 % 4 ∈ State.order state_WaitersGoOnWhenAWayOrASlotFrees_setRead (1679 / 4) ∧ State.leastRecent state_WaitersGoOnWhenAWayOrASlotFrees_setRead
    (1679 / 4) (fun j => (State.line state_WaitersGoOnWhenAWayOrASlotFrees_setRead j).state == .free) = none ∧ State.leastRecent
    state_WaitersGoOnWhenAWayOrASlotFrees_setRead (1679 / 4) (State.evictable state_WaitersGoOnWhenAWayOrASlotFrees_setRead) = none ∧ State.waiters
    state_WaitersGoOnWhenAWayOrASlotFrees_setRead (1679 / 4) = [7, 8, 10] ∧ [9, 7, 8, 10].Nodup ∧ State.request
    state_WaitersGoOnWhenAWayOrASlotFrees_setRead 7 = some request_WaitersGoOnWhenAWayOrASlotFrees_setRead ∧ State.setOfKey
    state_WaitersGoOnWhenAWayOrASlotFrees_setRead request_WaitersGoOnWhenAWayOrASlotFrees_setRead.key = 1679 / 4 ∧ (State.unit
    state_WaitersGoOnWhenAWayOrASlotFrees_setRead request_WaitersGoOnWhenAWayOrASlotFrees_setRead.key.unit).op.isSome = true :=
    ⟨takes_of (by decide), (fun j hj => by
      simp only [List.mem_cons, List.not_mem_nil, or_false] at hj
      rcases hj with rfl | rfl | rfl <;> exact ⟨_, rfl, by decide, by decide⟩), by decide⟩
def request_WaitersGoOnWhenAWayOrASlotFrees_setWrite : Request :=
    { asked 2 (writeRecord 0x31 false 1 0 37 2 0x4000) (.parked .setWait) with deadline := some 2000 }
def state_WaitersGoOnWhenAWayOrASlotFrees_setWrite : State := fetching
    { withChannel state_IdleStepQueuesExpiries 1 (fun x => { x with holdCount := 1 }) with lines := [(1676, { clean with state := .dirty, key := some ⟨1, 0, 5, 4⟩, currentSlot := some 4, dirtyEpoch := some 1 }), (1677, { clean with state := .dirty, key := some ⟨1, 0, 5, 5⟩, currentSlot := some 5, dirtyEpoch := some 1 }), (1678, { clean with state := .dirty, key := some ⟨1, 0, 5, 6⟩, currentSlot := some 6, dirtyEpoch := some 1 }), (1679, { clean with holders := [1] })], refs := [(0, 1), (4, 1), (5, 1), (6, 1)], setWait := [(419, [7, 8, 10])], table := [(7, some request_WaitersGoOnWhenAWayOrASlotFrees_setWrite), (8, some { asked 2 (readRecord 0x32 false 1 0 37 2 0x8000) (.parked .setWait) with deadline := some 2000 }), (10, some { asked 2 (readRecord 0x33 false 1 0 69 2 0xC000) (.parked .setWait) with deadline := some 2000 })] }
    1
theorem witness_WaitersGoOnWhenAWayOrASlotFrees_setWrite : State.Takes state_WaitersGoOnWhenAWayOrASlotFrees_setWrite 1 9 ∧ (∀ j ∈ [7, 8, 10], ∃ y,
    State.request state_WaitersGoOnWhenAWayOrASlotFrees_setWrite j = some y ∧ (y.kind = some .read ∨ y.kind = some .write) ∧ (State.unit
    state_WaitersGoOnWhenAWayOrASlotFrees_setWrite y.key.unit).state = .ready) ∧ State.validate state_WaitersGoOnWhenAWayOrASlotFrees_setWrite 1
    (releaseRecord 5 none 1 0 5 2) = none ∧ State.lookup state_WaitersGoOnWhenAWayOrASlotFrees_setWrite key = some 1679 ∧ (State.line
    state_WaitersGoOnWhenAWayOrASlotFrees_setWrite 1679).state = .clean ∧ (State.line state_WaitersGoOnWhenAWayOrASlotFrees_setWrite 1679).holders =
    [1] ∧ (State.line state_WaitersGoOnWhenAWayOrASlotFrees_setWrite 1679).waitList = [] ∧ (State.line state_WaitersGoOnWhenAWayOrASlotFrees_setWrite
    1679).episode = none ∧ (State.line state_WaitersGoOnWhenAWayOrASlotFrees_setWrite 1679).writer = none ∧ (State.line
    state_WaitersGoOnWhenAWayOrASlotFrees_setWrite 1679).currentSlot = some 0 ∧ State.refCount state_WaitersGoOnWhenAWayOrASlotFrees_setWrite 0 = 1 ∧
    1679 % 4 ∈ State.order state_WaitersGoOnWhenAWayOrASlotFrees_setWrite (1679 / 4) ∧ State.leastRecent
    state_WaitersGoOnWhenAWayOrASlotFrees_setWrite (1679 / 4) (fun j => (State.line state_WaitersGoOnWhenAWayOrASlotFrees_setWrite j).state == .free)
    = none ∧ State.leastRecent state_WaitersGoOnWhenAWayOrASlotFrees_setWrite (1679 / 4) (State.evictable
    state_WaitersGoOnWhenAWayOrASlotFrees_setWrite) = none ∧ State.waiters state_WaitersGoOnWhenAWayOrASlotFrees_setWrite (1679 / 4) = [7, 8, 10] ∧
    [9, 7, 8, 10].Nodup ∧ State.request state_WaitersGoOnWhenAWayOrASlotFrees_setWrite 7 = some request_WaitersGoOnWhenAWayOrASlotFrees_setWrite ∧
    State.setOfKey state_WaitersGoOnWhenAWayOrASlotFrees_setWrite request_WaitersGoOnWhenAWayOrASlotFrees_setWrite.key = 1679 / 4 ∧ (State.unit
    state_WaitersGoOnWhenAWayOrASlotFrees_setWrite request_WaitersGoOnWhenAWayOrASlotFrees_setWrite.key.unit).op.isSome = true :=
    ⟨takes_of (by decide), (fun j hj => by
      simp only [List.mem_cons, List.not_mem_nil, or_false] at hj
      rcases hj with rfl | rfl | rfl <;> exact ⟨_, rfl, by decide, by decide⟩), by decide⟩
def request_WaitersGoOnWhenAWayOrASlotFrees_slotWritera : Request := { asked 2 theWrite (.parked .slotWait) with line := some 1679 }
def request_WaitersGoOnWhenAWayOrASlotFrees_slotWriter : Request := { asked 1 theRead .active with line := some 1679, delivered := some 0 }
def state_WaitersGoOnWhenAWayOrASlotFrees_slotWriter : State :=
    { busy small .homing (working (.fill 3)) with lines := [(1679, { clean with currentSlot := some 1, writer := some 8 })], refs := [(0, 1), (1, 1), (2, 1)], slotWait := [8], table := [(7, some request_WaitersGoOnWhenAWayOrASlotFrees_slotWriter), (8, some request_WaitersGoOnWhenAWayOrASlotFrees_slotWritera)] }
theorem witness_WaitersGoOnWhenAWayOrASlotFrees_slotWriter : State.Completes state_WaitersGoOnWhenAWayOrASlotFrees_slotWriter 7
    request_WaitersGoOnWhenAWayOrASlotFrees_slotWriter ∧ (State.unit state_WaitersGoOnWhenAWayOrASlotFrees_slotWriter
    request_WaitersGoOnWhenAWayOrASlotFrees_slotWriter.key.unit).unwaited ∧ State.part state_WaitersGoOnWhenAWayOrASlotFrees_slotWriter = .running ∧
    request_WaitersGoOnWhenAWayOrASlotFrees_slotWriter.place = .active ∧ request_WaitersGoOnWhenAWayOrASlotFrees_slotWriter.kind = some .read ∧
    request_WaitersGoOnWhenAWayOrASlotFrees_slotWriter.line = some 1679 ∧ request_WaitersGoOnWhenAWayOrASlotFrees_slotWriter.delivered = some 0 ∧
    request_WaitersGoOnWhenAWayOrASlotFrees_slotWriter.record.hold = false ∧ State.refCount state_WaitersGoOnWhenAWayOrASlotFrees_slotWriter 0 = 1 ∧
    State.waiters state_WaitersGoOnWhenAWayOrASlotFrees_slotWriter (1679 / 4) = [] ∧ State.slotWait state_WaitersGoOnWhenAWayOrASlotFrees_slotWriter =
    [8] ∧ 8 ≠ 7 ∧ State.request state_WaitersGoOnWhenAWayOrASlotFrees_slotWriter 8 = some request_WaitersGoOnWhenAWayOrASlotFrees_slotWritera ∧
    request_WaitersGoOnWhenAWayOrASlotFrees_slotWritera.place = .parked .slotWait ∧ request_WaitersGoOnWhenAWayOrASlotFrees_slotWritera.line = some
    1679 := ⟨completes_of (by decide), ⟨rfl, rfl⟩, by decide⟩
def request_WaitersGoOnWhenAWayOrASlotFrees_slotAllocation : Request := asked 2 (readRecord 0x23 false 1 0 5 3 0x8000) (.parked .slotWait)
def state_WaitersGoOnWhenAWayOrASlotFrees_slotAllocation : State :=
    { busy small .homing (working (.fill 3)) with lines := [(1679, { clean with currentSlot := some 1 })], refs := [(0, 1), (1, 1), (2, 1)], slotWait := [8], table := [(7, some request_WaitersGoOnWhenAWayOrASlotFrees_slotWriter), (8, some request_WaitersGoOnWhenAWayOrASlotFrees_slotAllocation)] }
theorem witness_WaitersGoOnWhenAWayOrASlotFrees_slotAllocation : State.Completes state_WaitersGoOnWhenAWayOrASlotFrees_slotAllocation 7
    request_WaitersGoOnWhenAWayOrASlotFrees_slotWriter ∧ (State.unit state_WaitersGoOnWhenAWayOrASlotFrees_slotAllocation
    request_WaitersGoOnWhenAWayOrASlotFrees_slotWriter.key.unit).unwaited ∧ State.part state_WaitersGoOnWhenAWayOrASlotFrees_slotAllocation = .running
    ∧ request_WaitersGoOnWhenAWayOrASlotFrees_slotWriter.place = .active ∧ request_WaitersGoOnWhenAWayOrASlotFrees_slotWriter.kind = some .read ∧
    request_WaitersGoOnWhenAWayOrASlotFrees_slotWriter.line = some 1679 ∧ request_WaitersGoOnWhenAWayOrASlotFrees_slotWriter.delivered = some 0 ∧
    request_WaitersGoOnWhenAWayOrASlotFrees_slotWriter.record.hold = false ∧ State.refCount state_WaitersGoOnWhenAWayOrASlotFrees_slotAllocation 0 = 1
    ∧ State.waiters state_WaitersGoOnWhenAWayOrASlotFrees_slotAllocation (1679 / 4) = [] ∧ State.slotWait
    state_WaitersGoOnWhenAWayOrASlotFrees_slotAllocation = [8] ∧ 8 ≠ 7 ∧ State.request state_WaitersGoOnWhenAWayOrASlotFrees_slotAllocation 8 = some
    request_WaitersGoOnWhenAWayOrASlotFrees_slotAllocation ∧ request_WaitersGoOnWhenAWayOrASlotFrees_slotAllocation.place = .parked .slotWait ∧
    request_WaitersGoOnWhenAWayOrASlotFrees_slotAllocation.line = none ∧ request_WaitersGoOnWhenAWayOrASlotFrees_slotAllocation.kind = some .read ∧
    State.lookup state_WaitersGoOnWhenAWayOrASlotFrees_slotAllocation request_WaitersGoOnWhenAWayOrASlotFrees_slotAllocation.key = none ∧ (State.unit
    state_WaitersGoOnWhenAWayOrASlotFrees_slotAllocation request_WaitersGoOnWhenAWayOrASlotFrees_slotAllocation.key.unit).state = .ready ∧ (State.unit
    state_WaitersGoOnWhenAWayOrASlotFrees_slotAllocation request_WaitersGoOnWhenAWayOrASlotFrees_slotAllocation.key.unit).op.isSome = true ∧
    State.leastRecent state_WaitersGoOnWhenAWayOrASlotFrees_slotAllocation (State.setOfKey state_WaitersGoOnWhenAWayOrASlotFrees_slotAllocation
    request_WaitersGoOnWhenAWayOrASlotFrees_slotAllocation.key) (fun i => (State.line state_WaitersGoOnWhenAWayOrASlotFrees_slotAllocation i).state ==
    .free) = some 1683 ∧ 1683 / 4 = State.setOfKey state_WaitersGoOnWhenAWayOrASlotFrees_slotAllocation
    request_WaitersGoOnWhenAWayOrASlotFrees_slotAllocation.key ∧ State.line state_WaitersGoOnWhenAWayOrASlotFrees_slotAllocation 1683 = {} ∧
    State.waiters state_WaitersGoOnWhenAWayOrASlotFrees_slotAllocation (1683 / 4) = [] ∧ 1683 ≠ 1679 :=
    ⟨completes_of (by decide), ⟨rfl, rfl⟩, by decide⟩
def state_WaitersGoOnWhenAWayOrASlotFrees_slotTaken : State :=
    { busy small .homing (working (.fill 3)) with lines := [(1679, { clean with currentSlot := some 1 }), (1683, { clean with key := some ⟨1, 0, 5, 3⟩, currentSlot := some 2 })], refs := [(0, 1), (1, 1), (2, 1)], slotWait := [8], table := [(7, some request_WaitersGoOnWhenAWayOrASlotFrees_slotWriter), (8, some request_WaitersGoOnWhenAWayOrASlotFrees_slotAllocation)] }
theorem witness_WaitersGoOnWhenAWayOrASlotFrees_slotTaken : State.Completes state_WaitersGoOnWhenAWayOrASlotFrees_slotTaken 7
    request_WaitersGoOnWhenAWayOrASlotFrees_slotWriter ∧ (State.unit state_WaitersGoOnWhenAWayOrASlotFrees_slotTaken
    request_WaitersGoOnWhenAWayOrASlotFrees_slotWriter.key.unit).unwaited ∧ State.part state_WaitersGoOnWhenAWayOrASlotFrees_slotTaken = .running ∧
    request_WaitersGoOnWhenAWayOrASlotFrees_slotWriter.place = .active ∧ request_WaitersGoOnWhenAWayOrASlotFrees_slotWriter.kind = some .read ∧
    request_WaitersGoOnWhenAWayOrASlotFrees_slotWriter.line = some 1679 ∧ request_WaitersGoOnWhenAWayOrASlotFrees_slotWriter.delivered = some 0 ∧
    request_WaitersGoOnWhenAWayOrASlotFrees_slotWriter.record.hold = false ∧ State.refCount state_WaitersGoOnWhenAWayOrASlotFrees_slotTaken 0 = 1 ∧
    State.waiters state_WaitersGoOnWhenAWayOrASlotFrees_slotTaken (1679 / 4) = [] ∧ State.slotWait state_WaitersGoOnWhenAWayOrASlotFrees_slotTaken =
    [8] ∧ 8 ≠ 7 ∧ State.request state_WaitersGoOnWhenAWayOrASlotFrees_slotTaken 8 = some request_WaitersGoOnWhenAWayOrASlotFrees_slotAllocation ∧
    request_WaitersGoOnWhenAWayOrASlotFrees_slotAllocation.place = .parked .slotWait ∧ request_WaitersGoOnWhenAWayOrASlotFrees_slotAllocation.line =
    none ∧ request_WaitersGoOnWhenAWayOrASlotFrees_slotAllocation.kind = some .read ∧ State.lookup state_WaitersGoOnWhenAWayOrASlotFrees_slotTaken
    request_WaitersGoOnWhenAWayOrASlotFrees_slotAllocation.key = some 1683 ∧ (State.line state_WaitersGoOnWhenAWayOrASlotFrees_slotTaken 1683).state ≠
    .filling ∧ (State.line state_WaitersGoOnWhenAWayOrASlotFrees_slotTaken 1683).state ≠ .loading ∧ (State.line
    state_WaitersGoOnWhenAWayOrASlotFrees_slotTaken 1683).waitList = [] ∧ (State.line state_WaitersGoOnWhenAWayOrASlotFrees_slotTaken
    1683).currentSlot = some 2 ∧ 2 ≠ 0 ∧ ([] : List Nat) = [] := ⟨completes_of (by decide), ⟨rfl, rfl⟩, by decide⟩
theorem witness_ReleaseDropsTheHold_noLine : State.Takes (fetching small 1) 1 9 ∧ State.validate (fetching small 1) 1 (releaseRecord 5 none 1 0 5 2) =
    none ∧ State.lookup (fetching small 1) key = none := ⟨takes_of (by decide), by decide⟩
theorem witness_ReleaseDropsTheHold_notHeld : State.Takes state_ReadHitStartsItsTransfer 1 9 ∧ State.validate state_ReadHitStartsItsTransfer 1
    (releaseRecord 5 none 1 0 5 2) = none ∧ State.lookup state_ReadHitStartsItsTransfer key = some 1679 ∧ 1 ∉ (State.line
    state_ReadHitStartsItsTransfer 1679).holders := ⟨takes_of (by decide), by decide⟩
theorem witness_ReleaseDropsTheHold_held : State.Takes state_WriteRecallsTheOtherHolders 1 9 ∧ State.validate state_WriteRecallsTheOtherHolders 1
    (releaseRecord 5 none 1 0 5 2) = none ∧ State.lookup state_WriteRecallsTheOtherHolders key = some 1679 ∧ 1 ∈ (State.line
    state_WriteRecallsTheOtherHolders 1679).holders ∧ (State.line state_WriteRecallsTheOtherHolders 1679).episode = none ∧ (State.line
    state_WriteRecallsTheOtherHolders 1679).writer = none ∧ State.waiters state_WriteRecallsTheOtherHolders (1679 / 4) = [] :=
    ⟨takes_of (by decide), by decide⟩
theorem witness_ReleaseDropsTheHold_late : State.Takes state_WriteRecallsTheOtherHolders 1 9 ∧ (∀ ep, State.episode state_WriteRecallsTheOtherHolders
    31 = some ep → ep.key ≠ (releaseRecord 5 (some 31) 1 0 5 2).key ∨ 1 ∉ ep.waiting) ∧ State.validate state_WriteRecallsTheOtherHolders 1
    (releaseRecord 5 (some 31) 1 0 5 2) = none ∧ (31 : Byte).toNat = 31 := ⟨takes_of (by decide), (fun _ h => nomatch h), by decide⟩
def state_ReleaseDropsTheHold_pending : State := fetching
    { withLine small { clean with holders := [1, 2], episode := some 31, writer := some 7 } with episodes := [(31, some (⟨key, 1679, 7, 3, [1, 2], [1, 2], 500⟩ : Episode))] }
    1
theorem witness_ReleaseDropsTheHold_pending : State.Takes state_ReleaseDropsTheHold_pending 1 9 ∧ State.validate state_ReleaseDropsTheHold_pending 1
    (releaseRecord 5 (some 31) 1 0 5 2) = none ∧ (31 : Byte).toNat = 31 ∧ State.episode state_ReleaseDropsTheHold_pending 31 = some
    (⟨key, 1679, 7, 3, [1, 2], [1, 2], 500⟩ : Episode) ∧ (⟨key, 1679, 7, 3, [1, 2], [1, 2], 500⟩ : Episode).key = (releaseRecord 5 (some 31) 1 0 5
    2).key ∧ 1 ∈ (⟨key, 1679, 7, 3, [1, 2], [1, 2], 500⟩ : Episode).waiting ∧ (∃ d ∈ (⟨key, 1679, 7, 3, [1, 2], [1, 2], 500⟩ : Episode).waiting, d ≠
    1) ∧ (State.line state_ReleaseDropsTheHold_pending (⟨key, 1679, 7, 3, [1, 2], [1, 2], 500⟩ : Episode).line).episode = some 31 ∧ State.episodeWait
    state_ReleaseDropsTheHold_pending = [] ∧ State.waiters state_ReleaseDropsTheHold_pending ((⟨key, 1679, 7, 3, [1, 2], [1, 2], 500⟩ : Episode).line
    / 4) = [] := ⟨takes_of (by decide), by decide⟩
theorem witness_FlushCompletesOrParks_success : State.Takes (fetching small 1) 1 9 ∧ (∀ p ∈ State.lines (fetching small 1), ∀ key, p.2.key = some key
    → key.unit = 1 → p.2.state ≠ .dirty ∧ p.2.state ≠ .flushing ∧ p.2.state ≠ .reflush) ∧ State.validate (fetching small 1) 1 (flushRecord 5 1) = none
    := ⟨takes_of (by decide), (fun _ hp => nomatch hp), by decide⟩
def state_FlushCompletesOrParks_incomplete : State := fetching (withLine small { clean with state := .stranded, dirtyEpoch := some 1 }) 1
theorem witness_FlushCompletesOrParks_incomplete : State.Takes state_FlushCompletesOrParks_incomplete 1 9 ∧ (∀ p ∈ State.lines
    state_FlushCompletesOrParks_incomplete, ∀ key, p.2.key = some key → key.unit = 1 → p.2.state ≠ .dirty ∧ p.2.state ≠ .flushing ∧ p.2.state ≠
    .reflush) ∧ State.validate state_FlushCompletesOrParks_incomplete 1 (flushRecord 5 1) = none :=
    ⟨takes_of (by decide), (fun p hp _ _ _ => List.mem_singleton.mp hp ▸ by decide), by decide⟩
def state_FlushCompletesOrParks_parks : State := fetching (withLine small { clean with state := .dirty, dirtyEpoch := some 1 }) 1
theorem witness_FlushCompletesOrParks_parks : State.Takes state_FlushCompletesOrParks_parks 1 9 ∧ (∃ key,
    ({ clean with state := .dirty, dirtyEpoch := some 1 } : Line).key = some key ∧ key.unit = 1) ∧ State.validate state_FlushCompletesOrParks_parks 1
    (flushRecord 5 1) = none ∧ (1679, ({ clean with state := .dirty, dirtyEpoch := some 1 } : Line)) ∈ State.lines state_FlushCompletesOrParks_parks ∧
    ({ clean with state := .dirty, dirtyEpoch := some 1 } : Line).state = .dirty ∧ ({ clean with state := .dirty, dirtyEpoch := some 1 } :
    Line).dirtyEpoch = some 1 ∧ EpochAtMost 1 (State.unit state_FlushCompletesOrParks_parks 1).epoch :=
    ⟨takes_of (by decide), ⟨key, rfl, rfl⟩, by decide⟩
def state_FlushCompletesOrParks_beyond : State := fetching (withLine small { clean with state := .stranded, dirtyEpoch := some 0xC0000001 }) 1
theorem witness_FlushCompletesOrParks_beyond : State.Takes state_FlushCompletesOrParks_beyond 1 9 ∧ State.validate state_FlushCompletesOrParks_beyond
    1 (flushRecord 5 1) = none ∧ (State.line state_FlushCompletesOrParks_beyond 1679).key = some key ∧ key.unit = 1 ∧ ((State.line
    state_FlushCompletesOrParks_beyond 1679).state = .dirty ∨ (State.line state_FlushCompletesOrParks_beyond 1679).state = .flushing ∨ (State.line
    state_FlushCompletesOrParks_beyond 1679).state = .stranded) ∧ (State.line state_FlushCompletesOrParks_beyond 1679).dirtyEpoch = some 0xC0000001 ∧
    (State.line state_FlushCompletesOrParks_beyond 1679).sourceEpoch = none := ⟨takes_of (by decide), by decide⟩
def state_FlushCompletesOrParks_within : State := fetching (withLine small { clean with state := .stranded, dirtyEpoch := some 0xC0000002 }) 1
theorem witness_FlushCompletesOrParks_within : State.Takes state_FlushCompletesOrParks_within 1 9 ∧ State.validate state_FlushCompletesOrParks_within
    1 (flushRecord 5 1) = none ∧ (State.line state_FlushCompletesOrParks_within 1679).key = some key ∧ key.unit = 1 ∧ ((State.line
    state_FlushCompletesOrParks_within 1679).state = .dirty ∨ (State.line state_FlushCompletesOrParks_within 1679).state = .flushing ∨ (State.line
    state_FlushCompletesOrParks_within 1679).state = .stranded) ∧ (State.line state_FlushCompletesOrParks_within 1679).dirtyEpoch = some 0xC0000002 ∧
    (State.line state_FlushCompletesOrParks_within 1679).sourceEpoch = none := ⟨takes_of (by decide), by decide⟩
theorem witness_SurveyJoinsItsUnitsQueue_notReady : State.Takes state_ReadMissClaimsAWay_notReady 1 9 ∧ State.validate
    state_ReadMissClaimsAWay_notReady 1 (surveyRecord 5 1 0 5 0x4000) = none ∧ (State.unit state_ReadMissClaimsAWay_notReady 1).state ≠ .ready :=
    ⟨takes_of (by decide), by decide⟩
theorem witness_SurveyJoinsItsUnitsQueue_joins : State.Takes state_ReadMissClaimsAWay_claims 1 9 ∧ State.validate state_ReadMissClaimsAWay_claims 1
    (surveyRecord 5 1 0 5 0x4000) = none ∧ (State.unit state_ReadMissClaimsAWay_claims 1).state = .ready ∧ (State.unit state_ReadMissClaimsAWay_claims
    1).op.isSome = true := ⟨takes_of (by decide), by decide⟩
theorem witness_BarrierWaitsForEarlierRequests_none : State.Takes (fetching small 1) 1 9 ∧ ¬ (∃ i r, State.request (fetching small 1) i = some r ∧
    r.channel = 1 ∧ r.arrival < (State.channel (fetching small 1) 1).arrivals ∧ r.place ≠ .done) ∧ State.request (fetching small 1) 9 = none ∧ SMap.wf
    none (State.table (fetching small 1)) = true := ⟨takes_of (by decide), (fun ⟨_, _, h, _⟩ => nomatch h), by decide⟩
theorem witness_BarrierWaitsForEarlierRequests_earlier : State.Takes state_FetchEndsWithoutARecord_fencedWhole 1 9 ∧ (∃ i r, State.request
    state_FetchEndsWithoutARecord_fencedWhole i = some r ∧ r.channel = 1 ∧ r.arrival < (State.channel state_FetchEndsWithoutARecord_fencedWhole
    1).arrivals ∧ r.place ≠ .done) ∧ State.request state_FetchEndsWithoutARecord_fencedWhole 9 = none ∧ SMap.wf none (State.table
    state_FetchEndsWithoutARecord_fencedWhole) = true := ⟨takes_of (by decide), ⟨7, _, rfl, by decide⟩, by decide⟩
def request_BarrierWaitsForEarlierRequests_completesa : Request := { asked 1 (barrierRecord 5) (.parked .fetchHold) with arrival := 2 }
def request_BarrierWaitsForEarlierRequests_completes : Request :=
    { asked 1 theRead .active with line := some 1679, delivered := some 0, captured := some .data }
def state_BarrierWaitsForEarlierRequests_completes : State :=
    { withChannel (withLine small clean) 1 (fun x => { x with fetchHold := some 8, inFlight := 3, reserved := 3, arrivals := 3 }) with refs := [(0, 2)], table := [(7, some request_BarrierWaitsForEarlierRequests_completes), (8, some request_BarrierWaitsForEarlierRequests_completesa), (10, some { asked 1 theWrite .done with arrival := 1 }), (11, some { asked 2 theWrite .active with arrival := 1 })] }
theorem witness_BarrierWaitsForEarlierRequests_completes : State.Settled state_BarrierWaitsForEarlierRequests_completes ∧ (State.unit
    state_BarrierWaitsForEarlierRequests_completes request_BarrierWaitsForEarlierRequests_completes.key.unit).unwaited ∧ ¬ (∃ i y, i ≠ 7 ∧
    State.request state_BarrierWaitsForEarlierRequests_completes i = some y ∧ y.channel = 1 ∧ y.arrival <
    request_BarrierWaitsForEarlierRequests_completesa.arrival ∧ y.place ≠ .done) ∧ State.part state_BarrierWaitsForEarlierRequests_completes ≠ .failed
    ∧ SMap.wf none (State.table state_BarrierWaitsForEarlierRequests_completes) = true ∧ State.request state_BarrierWaitsForEarlierRequests_completes
    7 = some request_BarrierWaitsForEarlierRequests_completes ∧ request_BarrierWaitsForEarlierRequests_completes.channel = 1 ∧
    request_BarrierWaitsForEarlierRequests_completes.place = .active ∧ request_BarrierWaitsForEarlierRequests_completes.kind = some .read ∧
    request_BarrierWaitsForEarlierRequests_completes.line = some 1679 ∧ request_BarrierWaitsForEarlierRequests_completes.delivered = some 0 ∧
    request_BarrierWaitsForEarlierRequests_completes.record.hold = false ∧ State.slotWait state_BarrierWaitsForEarlierRequests_completes = [] ∧
    State.waiters state_BarrierWaitsForEarlierRequests_completes (1679 / 4) = [] ∧ State.request state_BarrierWaitsForEarlierRequests_completes 8 =
    some request_BarrierWaitsForEarlierRequests_completesa ∧ request_BarrierWaitsForEarlierRequests_completesa.channel = 1 ∧
    request_BarrierWaitsForEarlierRequests_completesa.place = .parked .fetchHold ∧ (State.channel state_BarrierWaitsForEarlierRequests_completes
    1).fetchHold = some 8 ∧ (State.channel state_BarrierWaitsForEarlierRequests_completes 1).postError = false :=
    ⟨rfl, ⟨rfl, rfl⟩, (fun ⟨i, y, he, h, hc, ha, hp⟩ => hp (none_earlier (s := state_BarrierWaitsForEarlierRequests_completes) (e := 7) (c := 1) (n := 2) (by decide) h he hc ha)), by decide⟩
def state_BarrierWaitsForEarlierRequests_stays : State :=
    { withChannel (withLine small clean) 1 (fun x => { x with fetchHold := some 8, inFlight := 3, reserved := 3, arrivals := 3 }) with refs := [(0, 2)], table := [(7, some request_BarrierWaitsForEarlierRequests_completes), (8, some request_BarrierWaitsForEarlierRequests_completesa), (10, some { asked 1 theWrite .active with arrival := 1 })] }
theorem witness_BarrierWaitsForEarlierRequests_stays : State.Settled state_BarrierWaitsForEarlierRequests_stays ∧ (State.unit
    state_BarrierWaitsForEarlierRequests_stays request_BarrierWaitsForEarlierRequests_completes.key.unit).unwaited ∧ (∃ i y, i ≠ 7 ∧ State.request
    state_BarrierWaitsForEarlierRequests_stays i = some y ∧ y.channel = 1 ∧ y.arrival < request_BarrierWaitsForEarlierRequests_completesa.arrival ∧
    y.place ≠ .done) ∧ State.part state_BarrierWaitsForEarlierRequests_stays ≠ .failed ∧ SMap.wf none (State.table
    state_BarrierWaitsForEarlierRequests_stays) = true ∧ State.request state_BarrierWaitsForEarlierRequests_stays 7 = some
    request_BarrierWaitsForEarlierRequests_completes ∧ request_BarrierWaitsForEarlierRequests_completes.channel = 1 ∧
    request_BarrierWaitsForEarlierRequests_completes.place = .active ∧ request_BarrierWaitsForEarlierRequests_completes.kind = some .read ∧
    request_BarrierWaitsForEarlierRequests_completes.line = some 1679 ∧ request_BarrierWaitsForEarlierRequests_completes.delivered = some 0 ∧
    request_BarrierWaitsForEarlierRequests_completes.record.hold = false ∧ State.slotWait state_BarrierWaitsForEarlierRequests_stays = [] ∧
    State.waiters state_BarrierWaitsForEarlierRequests_stays (1679 / 4) = [] ∧ State.request state_BarrierWaitsForEarlierRequests_stays 8 = some
    request_BarrierWaitsForEarlierRequests_completesa ∧ request_BarrierWaitsForEarlierRequests_completesa.channel = 1 ∧
    request_BarrierWaitsForEarlierRequests_completesa.place = .parked .fetchHold ∧ (State.channel state_BarrierWaitsForEarlierRequests_stays
    1).fetchHold = some 8 ∧ (State.channel state_BarrierWaitsForEarlierRequests_stays 1).postError = false :=
    ⟨rfl, ⟨rfl, rfl⟩, ⟨10, _, by decide, rfl, by decide⟩, by decide⟩
theorem witness_AbandonAnswersForItsTarget_notFound : State.Takes (fetching small 1) 1 9 ∧ (∀ i r, State.request (fetching small 1) i = some r →
    r.channel = 1 → r.record.tag ≠ 0x21) ∧ 1 ≠ 0 ∧ State.request (fetching small 1) 9 = none ∧ SMap.wf none (State.table (fetching small 1)) = true :=
    ⟨takes_of (by decide), (fun _ _ h => nomatch h), by decide⟩
theorem witness_AbandonAnswersForItsTarget_active : State.Takes state_FetchEndsWithoutARecord_fencedWhole 1 9 ∧ (∀ j q, State.request
    state_FetchEndsWithoutARecord_fencedWhole j = some q → q.channel = 1 → q.record.tag = 0x21 → j ≠ 7 → (asked 1 theRead .active).arrival <
    q.arrival) ∧ 1 ≠ 0 ∧ State.request state_FetchEndsWithoutARecord_fencedWhole 9 = none ∧ SMap.wf none (State.table
    state_FetchEndsWithoutARecord_fencedWhole) = true ∧ State.request state_FetchEndsWithoutARecord_fencedWhole 7 = some (asked 1 theRead .active) ∧
    (asked 1 theRead .active).channel = 1 ∧ (asked 1 theRead .active).record.tag = 0x21 ∧ (asked 1 theRead .active).arrival < (State.channel
    state_FetchEndsWithoutARecord_fencedWhole 1).arrivals ∧ ((asked 1 theRead .active).place = .active ∨ (asked 1 theRead .active).place = .done) :=
    ⟨takes_of (by decide), (fun _ _ h _ _ hj => absurd (only_entry rfl h) hj), by decide⟩
def request_AbandonAnswersForItsTarget_setWait : Request := asked 1 theRead (.parked .setWait)
def state_AbandonAnswersForItsTarget_setWait : State := fetching
    { holding small request_AbandonAnswersForItsTarget_setWait with setWait := [(419, [7])] } 1
theorem witness_AbandonAnswersForItsTarget_setWait : State.Takes state_AbandonAnswersForItsTarget_setWait 1 9 ∧ (∀ j q, State.request
    state_AbandonAnswersForItsTarget_setWait j = some q → q.channel = 1 → q.record.tag = 0x21 → j ≠ 7 →
    request_AbandonAnswersForItsTarget_setWait.arrival < q.arrival) ∧ 1 ≠ 0 ∧ State.request state_AbandonAnswersForItsTarget_setWait 9 = none ∧
    SMap.wf none (State.table state_AbandonAnswersForItsTarget_setWait) = true ∧ State.request state_AbandonAnswersForItsTarget_setWait 7 = some
    request_AbandonAnswersForItsTarget_setWait ∧ request_AbandonAnswersForItsTarget_setWait.channel = 1 ∧
    request_AbandonAnswersForItsTarget_setWait.record.tag = 0x21 ∧ request_AbandonAnswersForItsTarget_setWait.arrival < (State.channel
    state_AbandonAnswersForItsTarget_setWait 1).arrivals ∧ (request_AbandonAnswersForItsTarget_setWait.place = .parked .setWait ∨
    request_AbandonAnswersForItsTarget_setWait.place = .parked .surveyQueue ∨ request_AbandonAnswersForItsTarget_setWait.place = .parked .barrierList)
    := ⟨takes_of (by decide), (fun _ _ h _ _ hj => absurd (only_entry rfl h) hj), by decide⟩
def request_AbandonAnswersForItsTarget_barrierList : Request := asked 1 (flushRecord 0x21 1) (.parked .barrierList)
def state_AbandonAnswersForItsTarget_barrierList : State := fetching (holding (withUnit small (fun x => { x with barriers := [⟨7, 1⟩] }))
    request_AbandonAnswersForItsTarget_barrierList) 1
theorem witness_AbandonAnswersForItsTarget_barrierList : State.Takes state_AbandonAnswersForItsTarget_barrierList 1 9 ∧ (∀ j q, State.request
    state_AbandonAnswersForItsTarget_barrierList j = some q → q.channel = 1 → q.record.tag = 0x21 → j ≠ 7 →
    request_AbandonAnswersForItsTarget_barrierList.arrival < q.arrival) ∧ 1 ≠ 0 ∧ State.request state_AbandonAnswersForItsTarget_barrierList 9 = none
    ∧ SMap.wf none (State.table state_AbandonAnswersForItsTarget_barrierList) = true ∧ State.request state_AbandonAnswersForItsTarget_barrierList 7 =
    some request_AbandonAnswersForItsTarget_barrierList ∧ request_AbandonAnswersForItsTarget_barrierList.channel = 1 ∧
    request_AbandonAnswersForItsTarget_barrierList.record.tag = 0x21 ∧ request_AbandonAnswersForItsTarget_barrierList.arrival < (State.channel
    state_AbandonAnswersForItsTarget_barrierList 1).arrivals ∧ (request_AbandonAnswersForItsTarget_barrierList.place = .parked .setWait ∨
    request_AbandonAnswersForItsTarget_barrierList.place = .parked .surveyQueue ∨ request_AbandonAnswersForItsTarget_barrierList.place = .parked
    .barrierList) := ⟨takes_of (by decide), (fun _ _ h _ _ hj => absurd (only_entry rfl h) hj), by decide⟩
theorem witness_ChannelsOpenAndClose_opens : State.Takes (fetching small 0) 0 9 ∧ State.validate (fetching small 0) 0 (channelOpenRecord 5 true 4 0
    0x8000 16 4096 64 64 15) = none ∧ (State.channel (fetching small 0) 4).state = .closed := ⟨takes_of (by decide), by decide⟩
theorem witness_ChannelsOpenAndClose_openRefused : State.Takes (fetching small 0) 0 9 ∧ State.validate (fetching small 0) 0 (channelOpenRecord 5 true
    1 0 0x8000 16 4096 64 64 15) = none ∧ (State.channel (fetching small 0) 1).state ≠ .closed := ⟨takes_of (by decide), by decide⟩
theorem witness_ChannelsOpenAndClose_closeRefused : State.Takes (fetching small 0) 0 9 ∧ State.validate (fetching small 0) 0 (channelCloseRecord 5 15)
    = none ∧ ((State.channel (fetching small 0) 15).state = .closed ∨ (State.channel (fetching small 0) 15).state = .closing ∨ (State.channel
    (fetching small 0) 15).state = .fencing) := ⟨takes_of (by decide), by decide⟩
def state_ChannelsOpenAndClose_fenced : State := fetching (withChannel small 1 (fun x => { x with state := .fenced })) 0
theorem witness_ChannelsOpenAndClose_fenced : State.Takes state_ChannelsOpenAndClose_fenced 0 9 ∧ State.validate state_ChannelsOpenAndClose_fenced 0
    (channelCloseRecord 5 1) = none ∧ (State.channel state_ChannelsOpenAndClose_fenced 1).state = .fenced := ⟨takes_of (by decide), by decide⟩
def state_ChannelsOpenAndClose_open : State := fetching state_QuiescedWhenTheConditionHolds_waits 0
theorem witness_ChannelsOpenAndClose_open : State.Takes state_ChannelsOpenAndClose_open 0 9 ∧ State.validate state_ChannelsOpenAndClose_open 0
    (channelCloseRecord 5 1) = none ∧ (State.channel state_ChannelsOpenAndClose_open 1).state = .open ∧ (State.channel state_ChannelsOpenAndClose_open
    1).inFlight ≠ 0 ∧ (∀ p ∈ State.lines state_ChannelsOpenAndClose_open, 1 ∉ p.2.holders) ∧ (∀ p ∈ State.held state_ChannelsOpenAndClose_open,
    p.2.channel = 1 → p.2.isParked = false) := ⟨takes_of (by decide), by decide⟩
theorem witness_UnitAttachesWhenDetached_attached : State.Takes (fetching small 0) 0 9 ∧ State.validate (fetching small 0) 0 (unitAttachRecord 5 1
    2048 2 32 3) = none ∧ (State.unit (fetching small 0) 1).state ≠ .detached := ⟨takes_of (by decide), by decide⟩
theorem witness_UnitAttachesWhenDetached_detached : State.Takes (fetching small 0) 0 9 ∧ State.validate (fetching small 0) 0 (unitAttachRecord 5 3
    2048 2 32 3) = none ∧ (State.unit (fetching small 0) 3).state = .detached := ⟨takes_of (by decide), by decide⟩
theorem witness_UnitDetachByTheBusyTest_detached : State.Takes (fetching small 0) 0 9 ∧ State.validate (fetching small 0) 0 (unitDetachRecord 5 3) =
    none ∧ (∀ p ∈ State.table (fetching small 0), p.1 ≠ 9) ∧ (State.unit (fetching small 0) 3).state = .detached := ⟨takes_of (by decide), by decide⟩
def state_UnitDetachByTheBusyTest_busy : State := fetching (withLine small { clean with state := .stranded }) 0
theorem witness_UnitDetachByTheBusyTest_busy : State.Takes state_UnitDetachByTheBusyTest_busy 0 9 ∧ State.validate state_UnitDetachByTheBusyTest_busy
    0 (unitDetachRecord 5 1) = none ∧ (∀ p ∈ State.table state_UnitDetachByTheBusyTest_busy, p.1 ≠ 9) ∧ (State.unit state_UnitDetachByTheBusyTest_busy
    1).state ≠ .detached ∧ ((State.unit state_UnitDetachByTheBusyTest_busy 1).discarding = true ∨ (State.unit state_UnitDetachByTheBusyTest_busy
    1).detach ≠ none ∨ (State.unit state_UnitDetachByTheBusyTest_busy 1).op ≠ none ∨ (State.unit state_UnitDetachByTheBusyTest_busy 1).fillQueue ≠ []
    ∨ (State.unit state_UnitDetachByTheBusyTest_busy 1).surveyQueue ≠ [] ∨ (∃ p ∈ State.lines state_UnitDetachByTheBusyTest_busy, p.2.ofUnit 1 = true
    ∧ p.2.state ≠ .clean ∧ p.2.state ≠ .free) ∨ (∃ p ∈ State.held state_UnitDetachByTheBusyTest_busy, p.2.names 1 = true ∧ (p.2.isParked = true ∨
    p.2.place = .active ∧ (p.2.kind = some .write ∨ p.2.kind = some .survey)))) := ⟨takes_of (by decide), by decide⟩
theorem witness_UnitDetachByTheBusyTest_waits : State.Takes state_ChannelsOpenAndClose_open 0 9 ∧ State.validate state_ChannelsOpenAndClose_open 0
    (unitDetachRecord 5 1) = none ∧ (∀ p ∈ State.table state_ChannelsOpenAndClose_open, p.1 ≠ 9) ∧ (State.unit state_ChannelsOpenAndClose_open
    1).state ≠ .detached ∧ ¬ ((State.unit state_ChannelsOpenAndClose_open 1).discarding = true ∨ (State.unit state_ChannelsOpenAndClose_open 1).detach
    ≠ none ∨ (State.unit state_ChannelsOpenAndClose_open 1).op ≠ none ∨ (State.unit state_ChannelsOpenAndClose_open 1).fillQueue ≠ [] ∨ (State.unit
    state_ChannelsOpenAndClose_open 1).surveyQueue ≠ [] ∨ (∃ p ∈ State.lines state_ChannelsOpenAndClose_open, p.2.ofUnit 1 = true ∧ p.2.state ≠ .clean
    ∧ p.2.state ≠ .free) ∨ (∃ p ∈ State.held state_ChannelsOpenAndClose_open, p.2.names 1 = true ∧ (p.2.isParked = true ∨ p.2.place = .active ∧
    (p.2.kind = some .write ∨ p.2.kind = some .survey)))) ∧ ((State.held state_ChannelsOpenAndClose_open).filter (fun p => p.2.place == .active &&
    p.2.kind == some .read && p.2.names 1)).map (·.1) ≠ [] := ⟨takes_of (by decide), by decide⟩
theorem witness_UnitDetachByTheBusyTest_detaches : State.Takes (fetching small 0) 0 9 ∧ State.validate (fetching small 0) 0 (unitDetachRecord 5 1) =
    none ∧ (∀ p ∈ State.table (fetching small 0), p.1 ≠ 9) ∧ (State.unit (fetching small 0) 1).state ≠ .detached ∧ ¬ ((State.unit (fetching small 0)
    1).discarding = true ∨ (State.unit (fetching small 0) 1).detach ≠ none ∨ (State.unit (fetching small 0) 1).op ≠ none ∨ (State.unit (fetching small
    0) 1).fillQueue ≠ [] ∨ (State.unit (fetching small 0) 1).surveyQueue ≠ [] ∨ (∃ p ∈ State.lines (fetching small 0), p.2.ofUnit 1 = true ∧ p.2.state
    ≠ .clean ∧ p.2.state ≠ .free) ∨ (∃ p ∈ State.held (fetching small 0), p.2.names 1 = true ∧ (p.2.isParked = true ∨ p.2.place = .active ∧ (p.2.kind
    = some .write ∨ p.2.kind = some .survey)))) ∧ ((State.held (fetching small 0)).filter (fun p => p.2.place == .active && p.2.kind == some .read &&
    p.2.names 1)).map (·.1) = [] ∧ (∀ p ∈ State.lines (fetching small 0), p.2.ofUnit 1 = false) ∧ (State.unit (fetching small 0) 1).barriers = [] ∧
    State.part (fetching small 0) = .running := ⟨takes_of (by decide), by decide⟩
def state_UnitDetachByTheBusyTest_lines : State := fetching (withLine (withChannel small 1 (fun x => { x with holdCount := 1 }))
    { clean with holders := [1] }) 0
theorem witness_UnitDetachByTheBusyTest_lines : State.Takes state_UnitDetachByTheBusyTest_lines 0 9 ∧ State.FreesPlainly
    state_UnitDetachByTheBusyTest_lines 1 ∧ State.validate state_UnitDetachByTheBusyTest_lines 0 (unitDetachRecord 5 1) = none ∧ (∀ p ∈ State.table
    state_UnitDetachByTheBusyTest_lines, p.1 ≠ 9) ∧ (State.unit state_UnitDetachByTheBusyTest_lines 1).state ≠ .detached ∧ ¬ ((State.unit
    state_UnitDetachByTheBusyTest_lines 1).discarding = true ∨ (State.unit state_UnitDetachByTheBusyTest_lines 1).detach ≠ none ∨ (State.unit
    state_UnitDetachByTheBusyTest_lines 1).op ≠ none ∨ (State.unit state_UnitDetachByTheBusyTest_lines 1).fillQueue ≠ [] ∨ (State.unit
    state_UnitDetachByTheBusyTest_lines 1).surveyQueue ≠ [] ∨ (∃ p ∈ State.lines state_UnitDetachByTheBusyTest_lines, p.2.ofUnit 1 = true ∧ p.2.state
    ≠ .clean ∧ p.2.state ≠ .free) ∨ (∃ p ∈ State.held state_UnitDetachByTheBusyTest_lines, p.2.names 1 = true ∧ (p.2.isParked = true ∨ p.2.place =
    .active ∧ (p.2.kind = some .write ∨ p.2.kind = some .survey)))) ∧ ((State.held state_UnitDetachByTheBusyTest_lines).filter (fun p => p.2.place ==
    .active && p.2.kind == some .read && p.2.names 1)).map (·.1) = [] ∧ (State.unit state_UnitDetachByTheBusyTest_lines 1).barriers = [] ∧ State.part
    state_UnitDetachByTheBusyTest_lines = .running := ⟨takes_of (by decide), freesPlainly_of (by decide), by decide⟩
theorem witness_UnitDiscardSetsItsFlag_refused : State.Takes (fetching small 0) 0 9 ∧ State.validate (fetching small 0) 0 (unitDiscardRecord 5 0) =
    none ∧ ((State.unit (fetching small 0) 0).state = .detached ∨ (State.unit (fetching small 0) 0).discarding = true) :=
    ⟨takes_of (by decide), by decide⟩
def state_UnitDiscardSetsItsFlag_discards : State := fetching state_IdleStepQueuesExpiries 0
theorem witness_UnitDiscardSetsItsFlag_discards : State.Takes state_UnitDiscardSetsItsFlag_discards 0 9 ∧ State.validate
    state_UnitDiscardSetsItsFlag_discards 0 (unitDiscardRecord 5 1) = none ∧ (State.unit state_UnitDiscardSetsItsFlag_discards 1).state ≠ .detached ∧
    (State.unit state_UnitDiscardSetsItsFlag_discards 1).discarding = false ∧ (State.unit state_UnitDiscardSetsItsFlag_discards 1).detach = none ∧
    (State.unit state_UnitDiscardSetsItsFlag_discards 1).op ≠ none ∧ (∀ p ∈ State.held state_UnitDiscardSetsItsFlag_discards, p.2.names 1 = true →
    p.2.isParked = false) := ⟨takes_of (by decide), by decide⟩
def request_UnitDiscardSetsItsFlag_detachWaits : Request := asked 0 (unitDetachRecord 5 1) .active
def state_UnitDiscardSetsItsFlag_detachWaits : State := fetching (holding (withUnit small (fun x =>
    { x with seq := .homing, op := some (working (.fill 3)), detach := some ⟨7, [8]⟩ })) request_UnitDiscardSetsItsFlag_detachWaits) 0
theorem witness_UnitDiscardSetsItsFlag_detachWaits : State.Takes state_UnitDiscardSetsItsFlag_detachWaits 0 9 ∧ State.Completes
    state_UnitDiscardSetsItsFlag_detachWaits 7 request_UnitDiscardSetsItsFlag_detachWaits ∧ State.validate state_UnitDiscardSetsItsFlag_detachWaits 0
    (unitDiscardRecord 5 1) = none ∧ (State.unit state_UnitDiscardSetsItsFlag_detachWaits 1).state ≠ .detached ∧ (State.unit
    state_UnitDiscardSetsItsFlag_detachWaits 1).discarding = false ∧ (State.unit state_UnitDiscardSetsItsFlag_detachWaits 1).op ≠ none ∧ (∀ p ∈
    State.held state_UnitDiscardSetsItsFlag_detachWaits, p.2.names 1 = true → p.2.isParked = false) ∧ (State.unit
    state_UnitDiscardSetsItsFlag_detachWaits 1).detach = some ⟨7, [8]⟩ ∧ (⟨7, [8]⟩ : Detach).entry ≠ 9 ∧
    request_UnitDiscardSetsItsFlag_detachWaits.channel = 0 := ⟨takes_of (by decide), completes_of (by decide), by decide⟩
def state_UnitDiscardSetsItsFlag_parked : State := fetching
    { withUnit small (fun x => { x with seq := .homing, op := some (working (.fill 3)), barriers := [⟨8, 6⟩], surveyQueue := [10] }) with setWait := [(419, [7, 11])], table := [(7, some { asked 1 theRead (.parked .setWait) with arrival := 2 }), (8, some { asked 1 (flushRecord 5 1) (.parked .barrierList) with arrival := 1 }), (10, some (asked 2 (surveyRecord 5 1 0 5 0x8000) (.parked .surveyQueue))), (11, some (asked 2 (readRecord 0x21 false 0 0 5 2 0x4000) (.parked .setWait)))] }
    0
theorem witness_UnitDiscardSetsItsFlag_parked : State.Takes state_UnitDiscardSetsItsFlag_parked 0 9 ∧ (∀ i q, State.request
    state_UnitDiscardSetsItsFlag_parked i = some q → q.names 1 = true → q.isParked = true → State.Completes state_UnitDiscardSetsItsFlag_parked i q ∧
    (q.place = .parked .setWait ∨ q.place = .parked .surveyQueue ∨ q.place = .parked .barrierList)) ∧ (∀ b ∈ (State.unit
    state_UnitDiscardSetsItsFlag_parked 1).barriers, ∃ q, State.request state_UnitDiscardSetsItsFlag_parked b.entry = some q ∧ q.names 1 = true ∧
    q.place = .parked .barrierList) ∧ State.validate state_UnitDiscardSetsItsFlag_parked 0 (unitDiscardRecord 5 1) = none ∧ (State.unit
    state_UnitDiscardSetsItsFlag_parked 1).state ≠ .detached ∧ (State.unit state_UnitDiscardSetsItsFlag_parked 1).discarding = false ∧ (State.unit
    state_UnitDiscardSetsItsFlag_parked 1).op ≠ none ∧ (State.unit state_UnitDiscardSetsItsFlag_parked 1).detach = none ∧ SMap.wf none (State.table
    state_UnitDiscardSetsItsFlag_parked) = true ∧ State.request state_UnitDiscardSetsItsFlag_parked 9 = none :=
    ⟨takes_of (by decide), parked_of (by decide), (fun b h => by
      obtain rfl := List.mem_singleton.mp h
      exact ⟨_, rfl, by decide⟩), by decide⟩
def request_UnitDiscardSetsItsFlag_slotWait : Request := { asked 1 theWrite (.parked .slotWait) with line := some 1679 }
def state_UnitDiscardSetsItsFlag_slotWait : State :=
    { withLine small { clean with writer := some 7 } with table := [(7, some request_UnitDiscardSetsItsFlag_slotWait), (9, some (asked 0 (unitDiscardRecord 5 1) .active))], slotWait := [7, 8] }
theorem witness_UnitDiscardSetsItsFlag_slotWait : (∀ d q, (State.unit state_UnitDiscardSetsItsFlag_slotWait (unitDiscardRecord 5 1).unit).detach =
    some d → State.request state_UnitDiscardSetsItsFlag_slotWait d.entry = some q → q.isParked = false) ∧ (State.unit
    state_UnitDiscardSetsItsFlag_slotWait (unitDiscardRecord 5 1).unit).state ≠ .detached ∧ (State.unit state_UnitDiscardSetsItsFlag_slotWait
    (unitDiscardRecord 5 1).unit).discarding = false ∧ SMap.wf none (State.table state_UnitDiscardSetsItsFlag_slotWait) = true ∧ State.request
    state_UnitDiscardSetsItsFlag_slotWait 7 = some request_UnitDiscardSetsItsFlag_slotWait ∧ request_UnitDiscardSetsItsFlag_slotWait.names
    (unitDiscardRecord 5 1).unit = true ∧ request_UnitDiscardSetsItsFlag_slotWait.isParked = true ∧ (State.channel
    state_UnitDiscardSetsItsFlag_slotWait request_UnitDiscardSetsItsFlag_slotWait.channel).postError = false ∧
    request_UnitDiscardSetsItsFlag_slotWait.place = .parked .slotWait := ⟨(fun _ _ h => nomatch h), by decide⟩
def request_UnitDiscardSetsItsFlag_episodeWait : Request := { asked 1 theWrite (.parked .episodeWait) with line := some 1679 }
def state_UnitDiscardSetsItsFlag_episodeWait : State :=
    { withLine small { clean with writer := some 7, holders := [2] } with table := [(7, some request_UnitDiscardSetsItsFlag_episodeWait), (9, some (asked 0 (unitDiscardRecord 5 1) .active))], episodeWait := [7] }
theorem witness_UnitDiscardSetsItsFlag_episodeWait : (∀ d q, (State.unit state_UnitDiscardSetsItsFlag_episodeWait (unitDiscardRecord 5 1).unit).detach
    = some d → State.request state_UnitDiscardSetsItsFlag_episodeWait d.entry = some q → q.isParked = false) ∧ (State.unit
    state_UnitDiscardSetsItsFlag_episodeWait (unitDiscardRecord 5 1).unit).state ≠ .detached ∧ (State.unit state_UnitDiscardSetsItsFlag_episodeWait
    (unitDiscardRecord 5 1).unit).discarding = false ∧ SMap.wf none (State.table state_UnitDiscardSetsItsFlag_episodeWait) = true ∧ State.request
    state_UnitDiscardSetsItsFlag_episodeWait 7 = some request_UnitDiscardSetsItsFlag_episodeWait ∧ request_UnitDiscardSetsItsFlag_episodeWait.names
    (unitDiscardRecord 5 1).unit = true ∧ request_UnitDiscardSetsItsFlag_episodeWait.isParked = true ∧ (State.channel
    state_UnitDiscardSetsItsFlag_episodeWait request_UnitDiscardSetsItsFlag_episodeWait.channel).postError = false ∧
    request_UnitDiscardSetsItsFlag_episodeWait.place = .parked .episodeWait := ⟨(fun _ _ h => nomatch h), by decide⟩
def request_UnitDiscardSetsItsFlag_lineWait : Request := { asked 1 theWrite (.parked .lineWait) with line := some 1679 }
def state_UnitDiscardSetsItsFlag_lineWait : State :=
    { withLine small { clean with state := .filling, waitList := [7, 8] } with table := [(7, some request_UnitDiscardSetsItsFlag_lineWait), (9, some (asked 0 (unitDiscardRecord 5 1) .active))] }
theorem witness_UnitDiscardSetsItsFlag_lineWait : (∀ d q, (State.unit state_UnitDiscardSetsItsFlag_lineWait (unitDiscardRecord 5 1).unit).detach =
    some d → State.request state_UnitDiscardSetsItsFlag_lineWait d.entry = some q → q.isParked = false) ∧ (State.unit
    state_UnitDiscardSetsItsFlag_lineWait (unitDiscardRecord 5 1).unit).state ≠ .detached ∧ (State.unit state_UnitDiscardSetsItsFlag_lineWait
    (unitDiscardRecord 5 1).unit).discarding = false ∧ SMap.wf none (State.table state_UnitDiscardSetsItsFlag_lineWait) = true ∧ State.request
    state_UnitDiscardSetsItsFlag_lineWait 7 = some request_UnitDiscardSetsItsFlag_lineWait ∧ request_UnitDiscardSetsItsFlag_lineWait.names
    (unitDiscardRecord 5 1).unit = true ∧ request_UnitDiscardSetsItsFlag_lineWait.isParked = true ∧ (State.channel
    state_UnitDiscardSetsItsFlag_lineWait request_UnitDiscardSetsItsFlag_lineWait.channel).postError = false ∧
    request_UnitDiscardSetsItsFlag_lineWait.line = some 1679 ∧ request_UnitDiscardSetsItsFlag_lineWait.place = .parked .lineWait :=
    ⟨(fun _ _ h => nomatch h), by decide⟩
def request_UnitDiscardSetsItsFlag_episode : Request := { asked 1 theWrite (.parked (.episode 31)) with line := some 1679 }
def state_UnitDiscardSetsItsFlag_episode : State :=
    { withLine small { clean with writer := some 7, holders := [2], episode := some 31 } with table := [(7, some request_UnitDiscardSetsItsFlag_episode), (9, some (asked 0 (unitDiscardRecord 5 1) .active))], episodes := [(31, some { key, line := 1679, writer := 7, writerChannel := 1, recalled := [2], waiting := [2], deadline := 500 })] }
theorem witness_UnitDiscardSetsItsFlag_episode : (∀ d q, (State.unit state_UnitDiscardSetsItsFlag_episode (unitDiscardRecord 5 1).unit).detach = some
    d → State.request state_UnitDiscardSetsItsFlag_episode d.entry = some q → q.isParked = false) ∧ (State.unit state_UnitDiscardSetsItsFlag_episode
    (unitDiscardRecord 5 1).unit).state ≠ .detached ∧ (State.unit state_UnitDiscardSetsItsFlag_episode (unitDiscardRecord 5 1).unit).discarding =
    false ∧ SMap.wf none (State.table state_UnitDiscardSetsItsFlag_episode) = true ∧ State.request state_UnitDiscardSetsItsFlag_episode 7 = some
    request_UnitDiscardSetsItsFlag_episode ∧ request_UnitDiscardSetsItsFlag_episode.names (unitDiscardRecord 5 1).unit = true ∧
    request_UnitDiscardSetsItsFlag_episode.isParked = true ∧ (State.channel state_UnitDiscardSetsItsFlag_episode
    request_UnitDiscardSetsItsFlag_episode.channel).postError = false ∧ request_UnitDiscardSetsItsFlag_episode.place = .parked (.episode 31) :=
    ⟨(fun _ _ h => nomatch h), by decide⟩
theorem witness_UnitDiscardSetsItsFlag_writePhase : (∀ d q, (State.unit state_UnitDiscardSetsItsFlag_episode (unitDiscardRecord 5 1).unit).detach =
    some d → State.request state_UnitDiscardSetsItsFlag_episode d.entry = some q → q.isParked = false) ∧ (request_UnitDiscardSetsItsFlag_episode.place
    = .parked .slotWait ∨ request_UnitDiscardSetsItsFlag_episode.place = .parked .episodeWait ∨ (∃ n, request_UnitDiscardSetsItsFlag_episode.place =
    .parked (.episode n))) ∧ (State.unit state_UnitDiscardSetsItsFlag_episode (unitDiscardRecord 5 1).unit).state ≠ .detached ∧ (State.unit
    state_UnitDiscardSetsItsFlag_episode (unitDiscardRecord 5 1).unit).discarding = false ∧ SMap.wf none (State.table
    state_UnitDiscardSetsItsFlag_episode) = true ∧ State.request state_UnitDiscardSetsItsFlag_episode 7 = some request_UnitDiscardSetsItsFlag_episode
    ∧ request_UnitDiscardSetsItsFlag_episode.names (unitDiscardRecord 5 1).unit = true ∧ request_UnitDiscardSetsItsFlag_episode.isParked = true ∧
    (State.channel state_UnitDiscardSetsItsFlag_episode request_UnitDiscardSetsItsFlag_episode.channel).postError = false ∧
    request_UnitDiscardSetsItsFlag_episode.line = some 1679 := ⟨(fun _ _ h => nomatch h), .inr (.inr ⟨31, rfl⟩), by decide⟩
theorem witness_ParametersTakeForce : State.Takes (fetching small 0) 0 9 ∧ State.validate (fetching small 0) 0 (setParametersRecord 5 60000 1 4096
    4095) = none := ⟨takes_of (by decide), by decide⟩
theorem witness_QueriesTakeTheirSnapshots_channel : State.Takes (fetching small 0) 0 9 ∧ State.validate (fetching small 0) 0 (queryChannelRecord 5 1
    0x4000) = none ∧ (State.channel (fetching small 0) 1).opened = true := ⟨takes_of (by decide), by decide⟩
theorem witness_QueriesTakeTheirSnapshots_unopened : State.Takes (fetching small 0) 0 9 ∧ State.validate (fetching small 0) 0 (queryChannelRecord 5 15
    0x4000) = none ∧ (State.channel (fetching small 0) 15).opened = false := ⟨takes_of (by decide), by decide⟩
theorem witness_QueriesTakeTheirSnapshots_unit : State.Takes (fetching small 0) 0 9 ∧ State.validate (fetching small 0) 0 (queryUnitRecord 5 1 0x4000)
    = none ∧ (State.unit (fetching small 0) 1).state ≠ .detached := ⟨takes_of (by decide), by decide⟩
theorem witness_QueriesTakeTheirSnapshots_detached : State.Takes (fetching small 0) 0 9 ∧ State.validate (fetching small 0) 0 (queryUnitRecord 5 3
    0x4000) = none ∧ (State.unit (fetching small 0) 3).state = .detached := ⟨takes_of (by decide), by decide⟩
theorem witness_QueriesTakeTheirSnapshots_line : State.Takes (fetching small 0) 0 9 ∧ State.validate (fetching small 0) 0 (queryLineRecord 5 1 0 1999
    2 0x4000) = none ∧ (State.unit (fetching small 0) 1).state ≠ .detached ∧ (State.unit (fetching small 0) 1).geometry.any (fun g => decide (1999 <
    g.tracks ∧ 0 < g.surfaces ∧ 2 < g.sectors)) = true := ⟨takes_of (by decide), by decide⟩
theorem witness_QueriesTakeTheirSnapshots_beyond : State.Takes (fetching small 0) 0 9 ∧ State.validate (fetching small 0) 0 (queryLineRecord 5 1 0
    2000 2 0x4000) = none ∧ (State.unit (fetching small 0) 1).state ≠ .detached ∧ ¬ (State.unit (fetching small 0) 1).geometry.any (fun g => decide
    (2000 < g.tracks ∧ 0 < g.surfaces ∧ 2 < g.sectors)) = true := ⟨takes_of (by decide), by decide⟩
theorem witness_QueriesTakeTheirSnapshots_noUnit : State.Takes (fetching small 0) 0 9 ∧ State.validate (fetching small 0) 0 (queryLineRecord 5 3 0 5 2
    0x4000) = none ∧ (State.unit (fetching small 0) 3).state = .detached := ⟨takes_of (by decide), by decide⟩
theorem witness_WrittenRecordLayouts_completion : 65535 < 2 ^ 16 ∧ ({ status := .success, count := 4294967295 } : Completion).count < 2 ^ 32 := by
    decide
theorem witness_WrittenRecordLayouts_notice : 65535 < 2 ^ 16 ∧ 65535 < 2 ^ 16 ∧ key.unit < 4 ∧ key.surface < 256 ∧ key.track < 2 ^ 16 ∧ key.sector <
    256 ∧ 31 < 32 := by decide
def state_WrittenRecordLayouts_channel : State := withChannel small 1 (fun x =>
    { x with state := .fencing, cause := .badHead, closePending := true, fetchHold := some 7, inFlight := 1, reserved := 1, phase := false, holdCount := 3, revokeLimit := 15, revokeCount := 255 })
theorem witness_WrittenRecordLayouts_channel : (State.channel state_WrittenRecordLayouts_channel 1).rings = some (⟨0x10000, 32, 0x20000, 64⟩ : Rings)
    ∧ (⟨0x10000, 32, 0x20000, 64⟩ : Rings).sqSize < 2 ^ 16 ∧ (⟨0x10000, 32, 0x20000, 64⟩ : Rings).cqSize < 2 ^ 16 ∧ (State.channel
    state_WrittenRecordLayouts_channel 1).sqHead < 2 ^ 16 ∧ (State.channel state_WrittenRecordLayouts_channel 1).sqTail < 2 ^ 16 ∧ (State.channel
    state_WrittenRecordLayouts_channel 1).cqHead < 2 ^ 16 ∧ (State.channel state_WrittenRecordLayouts_channel 1).cqTail < 2 ^ 16 ∧ (State.channel
    state_WrittenRecordLayouts_channel 1).reserved < 2 ^ 16 ∧ (State.channel state_WrittenRecordLayouts_channel 1).inFlight < 256 ∧ (State.channel
    state_WrittenRecordLayouts_channel 1).backlog.length < 256 ∧ (State.channel state_WrittenRecordLayouts_channel 1).limit.getD 0 < 256 ∧
    (State.channel state_WrittenRecordLayouts_channel 1).holdQuota < 256 ∧ (State.channel state_WrittenRecordLayouts_channel 1).holdCount < 256 ∧
    (State.channel state_WrittenRecordLayouts_channel 1).revokeLimit < 256 ∧ (State.channel state_WrittenRecordLayouts_channel 1).revokeCount < 256 ∧
    (State.channel state_WrittenRecordLayouts_channel 1).lost < 2 ^ 16 := by decide
def state_WrittenRecordLayouts_admin : State := withChannel small 0 (fun x => { x with lost := 65535 })
theorem witness_WrittenRecordLayouts_admin : (State.channel state_WrittenRecordLayouts_admin 0).rings = some (⟨0x1000, 16, 0x2000, 64⟩ : Rings) ∧
    (⟨0x1000, 16, 0x2000, 64⟩ : Rings).sqSize < 2 ^ 16 ∧ (⟨0x1000, 16, 0x2000, 64⟩ : Rings).cqSize < 2 ^ 16 ∧ (State.channel
    state_WrittenRecordLayouts_admin 0).sqHead < 2 ^ 16 ∧ (State.channel state_WrittenRecordLayouts_admin 0).sqTail < 2 ^ 16 ∧ (State.channel
    state_WrittenRecordLayouts_admin 0).cqHead < 2 ^ 16 ∧ (State.channel state_WrittenRecordLayouts_admin 0).cqTail < 2 ^ 16 ∧ (State.channel
    state_WrittenRecordLayouts_admin 0).reserved < 2 ^ 16 ∧ (State.channel state_WrittenRecordLayouts_admin 0).inFlight < 256 ∧ (State.channel
    state_WrittenRecordLayouts_admin 0).backlog.length < 256 ∧ (State.channel state_WrittenRecordLayouts_admin 0).limit.getD 0 < 256 ∧ (State.channel
    state_WrittenRecordLayouts_admin 0).holdQuota < 256 ∧ (State.channel state_WrittenRecordLayouts_admin 0).holdCount < 256 ∧ (State.channel
    state_WrittenRecordLayouts_admin 0).revokeLimit < 256 ∧ (State.channel state_WrittenRecordLayouts_admin 0).revokeCount < 256 ∧ (State.channel
    state_WrittenRecordLayouts_admin 0).lost < 2 ^ 16 := by decide
theorem witness_WrittenRecordLayouts_unit : (∀ track, (State.unit small 1).believed = some track → track < 2 ^ 16) ∧ (State.unit small 1).geometry =
    some (⟨2000, 2, 16⟩ : Geometry) ∧ (State.unit small 1).retries = some 2 ∧ (⟨2000, 2, 16⟩ : Geometry).surfaces < 256 ∧ (⟨2000, 2, 16⟩ :
    Geometry).sectors < 256 ∧ 2 < 256 ∧ (⟨2000, 2, 16⟩ : Geometry).tracks < 2 ^ 16 ∧ (State.unit small 1).fillQueue.length < 2 ^ 16 ∧ (State.unit
    small 1).surveyQueue.length < 2 ^ 16 ∧ (State.unit small 1).flushList.length < 2 ^ 16 ∧ (State.unit small 1).stranded < 2 ^ 16 ∧ (State.unit small
    1).barriers.length < 2 ^ 16 ∧ small.dirtyCount < 2 ^ 16 := ⟨(fun t h => (Option.some.inj h) ▸ by decide), by decide⟩
def state_WrittenRecordLayouts_line : State := withLine small
    { clean with state := .stranded, failures := 3, holders := [15, 1], episode := some 31, writer := some 7, dirtyEpoch := some 0xFFFFFFFF, mark := .retired, waitList := [8, 9] }
theorem witness_WrittenRecordLayouts_line : (∀ n, (State.line state_WrittenRecordLayouts_line 1679).episode = some n → n < 32) ∧ State.lookup
    state_WrittenRecordLayouts_line key = some 1679 ∧ 1679 < 4096 ∧ (State.line state_WrittenRecordLayouts_line 1679).failures < 256 ∧ (State.line
    state_WrittenRecordLayouts_line 1679).waitList.length < 2 ^ 16 ∧ (State.line state_WrittenRecordLayouts_line 1679).holders.Nodup ∧ (∀ c ∈
    (State.line state_WrittenRecordLayouts_line 1679).holders, 1 ≤ c ∧ c ≤ 15) ∧ key.unit < 4 ∧ key.surface < 256 ∧ key.track < 2 ^ 16 ∧ key.sector <
    256 := ⟨(fun n h => (Option.some.inj h) ▸ by decide), by decide⟩
theorem witness_WrittenRecordLayouts_noLine : State.lookup small key = none ∧ key.unit < 4 ∧ key.surface < 256 ∧ key.track < 2 ^ 16 ∧ key.sector < 256
    := by decide
def request_SnapshotAndEntryWritesEnd_snapshot : Request := { asked 0 (queryUnitRecord 5 1 0x4000) .active with snapshot := some [2, 3] }
def state_SnapshotAndEntryWritesEnd_snapshot : State := holding small request_SnapshotAndEntryWritesEnd_snapshot
theorem witness_SnapshotAndEntryWritesEnd_snapshot : State.Completes state_SnapshotAndEntryWritesEnd_snapshot 7
    request_SnapshotAndEntryWritesEnd_snapshot ∧ State.part state_SnapshotAndEntryWritesEnd_snapshot ≠ .failed ∧
    request_SnapshotAndEntryWritesEnd_snapshot.place = .active ∧ 0 < 1 ∧ request_SnapshotAndEntryWritesEnd_snapshot.snapshot = some [2, 3] ∧ ([2, 3] :
    List Byte) ≠ [] := ⟨completes_of (by decide), by decide⟩
def request_SnapshotAndEntryWritesEnd_survey : Request :=
    { asked 1 (surveyRecord 5 1 0 5 0x4000) .active with survey := some ⟨[⟨5, 0, 2, 3, 0, false, false⟩], true⟩ }
def state_SnapshotAndEntryWritesEnd_survey : State := holding small request_SnapshotAndEntryWritesEnd_survey
theorem witness_SnapshotAndEntryWritesEnd_survey : State.Completes state_SnapshotAndEntryWritesEnd_survey 7 request_SnapshotAndEntryWritesEnd_survey ∧
    State.part state_SnapshotAndEntryWritesEnd_survey ≠ .failed ∧ request_SnapshotAndEntryWritesEnd_survey.place = .active ∧ 0 < 511 ∧
    request_SnapshotAndEntryWritesEnd_survey.kind = some .survey ∧ request_SnapshotAndEntryWritesEnd_survey.survey = some
    (⟨[⟨5, 0, 2, 3, 0, false, false⟩], true⟩ : SurveyResult) ∧ (⟨[⟨5, 0, 2, 3, 0, false, false⟩], true⟩ : SurveyResult).entries ≠ [] :=
    ⟨completes_of (by decide), by decide⟩
def request_RecordWriteStartsAtTheTail_completion : Request := { asked 1 theRead .done with completion := some { status := .success } }
def state_RecordWriteStartsAtTheTail_completion : State := withChannel (holding small request_RecordWriteStartsAtTheTail_completion) 1 (fun x =>
    { x with postQueue := [7], cqTail := 63, cqHead := 1 })
theorem witness_RecordWriteStartsAtTheTail_completion : State.part state_RecordWriteStartsAtTheTail_completion ≠ .failed ∧ ((State.channel
    state_RecordWriteStartsAtTheTail_completion 1).state = .open ∨ (State.channel state_RecordWriteStartsAtTheTail_completion 1).state = .closing ∨
    (State.channel state_RecordWriteStartsAtTheTail_completion 1).state = .fencing) ∧ (State.channel state_RecordWriteStartsAtTheTail_completion
    1).writing = none ∧ (State.channel state_RecordWriteStartsAtTheTail_completion 1).postError = false ∧ (State.channel
    state_RecordWriteStartsAtTheTail_completion 1).postQueue = 7 :: [] ∧ State.request state_RecordWriteStartsAtTheTail_completion 7 = some
    request_RecordWriteStartsAtTheTail_completion ∧ request_RecordWriteStartsAtTheTail_completion.completion = some { status := .success } := by
    decide
def state_RecordWriteStartsAtTheTail_notice : State := withChannel small 0 (fun x => { x with backlog := [.unitReady 1], lost := 3, reserved := 62 })
theorem witness_RecordWriteStartsAtTheTail_notice : State.part state_RecordWriteStartsAtTheTail_notice ≠ .failed ∧ ((State.channel
    state_RecordWriteStartsAtTheTail_notice 0).state = .open ∨ (State.channel state_RecordWriteStartsAtTheTail_notice 0).state = .closing ∨
    (State.channel state_RecordWriteStartsAtTheTail_notice 0).state = .fencing) ∧ (State.channel state_RecordWriteStartsAtTheTail_notice 0).writing =
    none ∧ (State.channel state_RecordWriteStartsAtTheTail_notice 0).postError = false ∧ (State.channel state_RecordWriteStartsAtTheTail_notice
    0).postQueue = [] ∧ (State.channel state_RecordWriteStartsAtTheTail_notice 0).backlog = .unitReady 1 :: [] ∧ (State.channel
    state_RecordWriteStartsAtTheTail_notice 0).reserved < (State.channel state_RecordWriteStartsAtTheTail_notice 0).cqSize - 1 - ((State.channel
    state_RecordWriteStartsAtTheTail_notice 0).cqTail + (State.channel state_RecordWriteStartsAtTheTail_notice 0).cqSize - (State.channel
    state_RecordWriteStartsAtTheTail_notice 0).cqHead) % (State.channel state_RecordWriteStartsAtTheTail_notice 0).cqSize := by decide
def state_RecordWriteStartsAtTheTail_noMargin : State := withChannel small 0 (fun x =>
    { x with backlog := [.unitReady 1], lost := 3, reserved := 63 })
theorem witness_RecordWriteStartsAtTheTail_noMargin : State.part state_RecordWriteStartsAtTheTail_noMargin ≠ .failed ∧ ((State.channel
    state_RecordWriteStartsAtTheTail_noMargin 0).state = .open ∨ (State.channel state_RecordWriteStartsAtTheTail_noMargin 0).state = .closing ∨
    (State.channel state_RecordWriteStartsAtTheTail_noMargin 0).state = .fencing) ∧ (State.channel state_RecordWriteStartsAtTheTail_noMargin
    0).writing = none ∧ (State.channel state_RecordWriteStartsAtTheTail_noMargin 0).postError = false ∧ (State.channel
    state_RecordWriteStartsAtTheTail_noMargin 0).postQueue = [] ∧ (State.channel state_RecordWriteStartsAtTheTail_noMargin 0).cqSize - 1 -
    ((State.channel state_RecordWriteStartsAtTheTail_noMargin 0).cqTail + (State.channel state_RecordWriteStartsAtTheTail_noMargin 0).cqSize -
    (State.channel state_RecordWriteStartsAtTheTail_noMargin 0).cqHead) % (State.channel state_RecordWriteStartsAtTheTail_noMargin 0).cqSize ≤
    (State.channel state_RecordWriteStartsAtTheTail_noMargin 0).reserved := by decide
def state_RecordWriteEndPostsOrFences_notice : State := withChannel (holding small request_RecordWriteStartsAtTheTail_completion) 1 (fun x =>
    { x with writing := some (⟨[3], 0x20000, none⟩ : RecordWrite) })
theorem witness_RecordWriteEndPostsOrFences_notice : State.Settled state_RecordWriteEndPostsOrFences_notice ∧ State.part
    state_RecordWriteEndPostsOrFences_notice = .running ∧ (State.channel state_RecordWriteEndPostsOrFences_notice 1).state = .open ∧ (State.channel
    state_RecordWriteEndPostsOrFences_notice 1).writing = some (⟨[3], 0x20000, none⟩ : RecordWrite) ∧ (⟨[3], 0x20000, none⟩ : RecordWrite).entry =
    none := ⟨rfl, by decide⟩
def state_RecordWriteEndPostsOrFences_completion : State := withChannel (holding small request_RecordWriteStartsAtTheTail_completion) 1 (fun x =>
    { x with writing := some (⟨[3], 0x20000, some 7⟩ : RecordWrite) })
theorem witness_RecordWriteEndPostsOrFences_completion : State.Settled state_RecordWriteEndPostsOrFences_completion ∧ State.part
    state_RecordWriteEndPostsOrFences_completion = .running ∧ (State.channel state_RecordWriteEndPostsOrFences_completion 1).state = .open ∧
    (State.channel state_RecordWriteEndPostsOrFences_completion 1).writing = some (⟨[3], 0x20000, some 7⟩ : RecordWrite) ∧ (⟨[3], 0x20000, some 7⟩ :
    RecordWrite).entry = some 7 ∧ State.request state_RecordWriteEndPostsOrFences_completion 7 = some request_RecordWriteStartsAtTheTail_completion ∧
    request_RecordWriteStartsAtTheTail_completion.channel = 1 := ⟨rfl, by decide⟩
def state_RecordWriteEndPostsOrFences_admin : State := withChannel (holding small request_RecordWriteStartsAtTheTail_completion) 0 (fun x =>
    { x with writing := some (⟨[3], 0x20000, none⟩ : RecordWrite) })
theorem witness_RecordWriteEndPostsOrFences_admin : State.Settled state_RecordWriteEndPostsOrFences_admin ∧ State.part
    state_RecordWriteEndPostsOrFences_admin = .running ∧ (State.channel state_RecordWriteEndPostsOrFences_admin 0).state = .open ∧ (State.channel
    state_RecordWriteEndPostsOrFences_admin 0).writing = some (⟨[3], 0x20000, none⟩ : RecordWrite) ∧ 0 = 0 ∧ (⟨[3], 0x20000, none⟩ :
    RecordWrite).entry = none := ⟨rfl, by decide⟩
def request_RecordWriteEndPostsOrFences_adminEntry : Request :=
    { asked 0 (setParametersRecord 5 1 1 2 1) .done with completion := some { status := .success } }
def state_RecordWriteEndPostsOrFences_adminEntry : State := withChannel (holding small request_RecordWriteEndPostsOrFences_adminEntry) 0 (fun x =>
    { x with writing := some (⟨[3], 0x20000, some 7⟩ : RecordWrite) })
theorem witness_RecordWriteEndPostsOrFences_adminEntry : State.Settled state_RecordWriteEndPostsOrFences_adminEntry ∧ State.part
    state_RecordWriteEndPostsOrFences_adminEntry = .running ∧ (State.channel state_RecordWriteEndPostsOrFences_adminEntry 0).state = .open ∧
    (State.channel state_RecordWriteEndPostsOrFences_adminEntry 0).writing = some (⟨[3], 0x20000, some 7⟩ : RecordWrite) ∧ 0 = 0 ∧
    (⟨[3], 0x20000, some 7⟩ : RecordWrite).entry = some 7 ∧ State.request state_RecordWriteEndPostsOrFences_adminEntry 7 = some
    request_RecordWriteEndPostsOrFences_adminEntry ∧ request_RecordWriteEndPostsOrFences_adminEntry.channel = 0 := ⟨rfl, by decide⟩
theorem witness_RecordWriteEndPostsOrFences_fenced : State.Settled state_RecordWriteEndPostsOrFences_completion ∧ State.part
    state_RecordWriteEndPostsOrFences_completion = .running ∧ (State.channel state_RecordWriteEndPostsOrFences_completion 1).state = .open ∧
    (State.channel state_RecordWriteEndPostsOrFences_completion 1).writing = some (⟨[3], 0x20000, some 7⟩ : RecordWrite) ∧ 1 ≠ 0 ∧
    (⟨[3], 0x20000, some 7⟩ : RecordWrite).entry = some 7 := ⟨rfl, by decide⟩
def request_ReadTransferEnds_noHold : Request :=
    { asked 1 (readRecord 0x21 false 1 0 5 2 0x4000) .active with line := some 1679, delivered := some 0 }
def state_ReadTransferEnds_noHold : State := withChannel (holding (withLine small { clean with holders := [] }) request_ReadTransferEnds_noHold) 1
    (fun x => { x with holdQuota := 8 })
theorem witness_ReadTransferEnds_noHold : State.Completes state_ReadTransferEnds_noHold 7 request_ReadTransferEnds_noHold ∧
    request_ReadTransferEnds_noHold.place = .active ∧ request_ReadTransferEnds_noHold.kind = some .read ∧ request_ReadTransferEnds_noHold.line = some
    1679 ∧ request_ReadTransferEnds_noHold.delivered = some 0 ∧ State.slotWait state_ReadTransferEnds_noHold = [] ∧ State.waiters
    state_ReadTransferEnds_noHold (1679 / 4) = [] ∧ (State.unit state_ReadTransferEnds_noHold request_ReadTransferEnds_noHold.key.unit).detach = none
    ∧ (State.unit state_ReadTransferEnds_noHold request_ReadTransferEnds_noHold.key.unit).discard = none ∧ State.part state_ReadTransferEnds_noHold ≠
    .failed ∧ request_ReadTransferEnds_noHold.record.hold = false := ⟨completes_of (by decide), by decide⟩
def request_ReadTransferEnds_refused : Request :=
    { asked 1 (readRecord 0x21 true 1 0 5 2 0x4000) .active with line := some 1679, delivered := some 0 }
def state_ReadTransferEnds_refused : State := withChannel (holding (withLine small { clean with holders := [] }) request_ReadTransferEnds_refused) 1
    (fun x => { x with holdQuota := 0 })
theorem witness_ReadTransferEnds_refused : State.Completes state_ReadTransferEnds_refused 7 request_ReadTransferEnds_refused ∧
    request_ReadTransferEnds_refused.place = .active ∧ request_ReadTransferEnds_refused.kind = some .read ∧ request_ReadTransferEnds_refused.line =
    some 1679 ∧ request_ReadTransferEnds_refused.delivered = some 0 ∧ State.slotWait state_ReadTransferEnds_refused = [] ∧ State.waiters
    state_ReadTransferEnds_refused (1679 / 4) = [] ∧ (State.unit state_ReadTransferEnds_refused request_ReadTransferEnds_refused.key.unit).detach =
    none ∧ (State.unit state_ReadTransferEnds_refused request_ReadTransferEnds_refused.key.unit).discard = none ∧ State.part
    state_ReadTransferEnds_refused ≠ .failed ∧ request_ReadTransferEnds_refused.record.hold = true ∧ ((State.channel state_ReadTransferEnds_refused
    request_ReadTransferEnds_refused.channel).state ≠ .open ∨ (State.unit state_ReadTransferEnds_refused
    request_ReadTransferEnds_refused.key.unit).discarding = true ∨ (State.line state_ReadTransferEnds_refused 1679).state = .free ∨ (State.line
    state_ReadTransferEnds_refused 1679).key ≠ some request_ReadTransferEnds_refused.key ∨ (request_ReadTransferEnds_refused.channel ∉ (State.line
    state_ReadTransferEnds_refused 1679).holders ∧ ((State.line state_ReadTransferEnds_refused 1679).writer ≠ none ∨ (State.line
    state_ReadTransferEnds_refused 1679).currentSlot ≠ some 0 ∨ (State.channel state_ReadTransferEnds_refused
    request_ReadTransferEnds_refused.channel).holdQuota ≤ (State.channel state_ReadTransferEnds_refused
    request_ReadTransferEnds_refused.channel).holdCount))) := ⟨completes_of (by decide), by decide⟩
def state_ReadTransferEnds_confirmed : State := withChannel (holding (withLine small { clean with holders := [1] }) request_ReadTransferEnds_refused)
    1 (fun x => { x with holdQuota := 0 })
theorem witness_ReadTransferEnds_confirmed : State.Completes state_ReadTransferEnds_confirmed 7 request_ReadTransferEnds_refused ∧
    request_ReadTransferEnds_refused.place = .active ∧ request_ReadTransferEnds_refused.kind = some .read ∧ request_ReadTransferEnds_refused.line =
    some 1679 ∧ request_ReadTransferEnds_refused.delivered = some 0 ∧ State.slotWait state_ReadTransferEnds_confirmed = [] ∧ State.waiters
    state_ReadTransferEnds_confirmed (1679 / 4) = [] ∧ (State.unit state_ReadTransferEnds_confirmed request_ReadTransferEnds_refused.key.unit).detach
    = none ∧ (State.unit state_ReadTransferEnds_confirmed request_ReadTransferEnds_refused.key.unit).discard = none ∧ State.part
    state_ReadTransferEnds_confirmed ≠ .failed ∧ request_ReadTransferEnds_refused.record.hold = true ∧ ¬ ((State.channel
    state_ReadTransferEnds_confirmed request_ReadTransferEnds_refused.channel).state ≠ .open ∨ (State.unit state_ReadTransferEnds_confirmed
    request_ReadTransferEnds_refused.key.unit).discarding = true ∨ (State.line state_ReadTransferEnds_confirmed 1679).state = .free ∨ (State.line
    state_ReadTransferEnds_confirmed 1679).key ≠ some request_ReadTransferEnds_refused.key ∨ (request_ReadTransferEnds_refused.channel ∉ (State.line
    state_ReadTransferEnds_confirmed 1679).holders ∧ ((State.line state_ReadTransferEnds_confirmed 1679).writer ≠ none ∨ (State.line
    state_ReadTransferEnds_confirmed 1679).currentSlot ≠ some 0 ∨ (State.channel state_ReadTransferEnds_confirmed
    request_ReadTransferEnds_refused.channel).holdQuota ≤ (State.channel state_ReadTransferEnds_confirmed
    request_ReadTransferEnds_refused.channel).holdCount))) ∧ request_ReadTransferEnds_refused.channel ∈ (State.line state_ReadTransferEnds_confirmed
    1679).holders := ⟨completes_of (by decide), by decide⟩
def state_ReadTransferEnds_granted : State := withChannel (holding (withLine small { clean with holders := [] }) request_ReadTransferEnds_refused) 1
    (fun x => { x with holdQuota := 1 })
theorem witness_ReadTransferEnds_granted : State.Completes state_ReadTransferEnds_granted 7 request_ReadTransferEnds_refused ∧
    request_ReadTransferEnds_refused.place = .active ∧ request_ReadTransferEnds_refused.kind = some .read ∧ request_ReadTransferEnds_refused.line =
    some 1679 ∧ request_ReadTransferEnds_refused.delivered = some 0 ∧ State.slotWait state_ReadTransferEnds_granted = [] ∧ State.waiters
    state_ReadTransferEnds_granted (1679 / 4) = [] ∧ (State.unit state_ReadTransferEnds_granted request_ReadTransferEnds_refused.key.unit).detach =
    none ∧ (State.unit state_ReadTransferEnds_granted request_ReadTransferEnds_refused.key.unit).discard = none ∧ State.part
    state_ReadTransferEnds_granted ≠ .failed ∧ request_ReadTransferEnds_refused.record.hold = true ∧ ¬ ((State.channel state_ReadTransferEnds_granted
    request_ReadTransferEnds_refused.channel).state ≠ .open ∨ (State.unit state_ReadTransferEnds_granted
    request_ReadTransferEnds_refused.key.unit).discarding = true ∨ (State.line state_ReadTransferEnds_granted 1679).state = .free ∨ (State.line
    state_ReadTransferEnds_granted 1679).key ≠ some request_ReadTransferEnds_refused.key ∨ (request_ReadTransferEnds_refused.channel ∉ (State.line
    state_ReadTransferEnds_granted 1679).holders ∧ ((State.line state_ReadTransferEnds_granted 1679).writer ≠ none ∨ (State.line
    state_ReadTransferEnds_granted 1679).currentSlot ≠ some 0 ∨ (State.channel state_ReadTransferEnds_granted
    request_ReadTransferEnds_refused.channel).holdQuota ≤ (State.channel state_ReadTransferEnds_granted
    request_ReadTransferEnds_refused.channel).holdCount))) ∧ request_ReadTransferEnds_refused.channel ∉ (State.line state_ReadTransferEnds_granted
    1679).holders := ⟨completes_of (by decide), by decide⟩
theorem witness_ReadTransferEnds_error : State.Completes state_ReadTransferEnds_noHold 7 request_ReadTransferEnds_noHold ∧
    request_ReadTransferEnds_noHold.place = .active ∧ request_ReadTransferEnds_noHold.kind = some .read ∧ request_ReadTransferEnds_noHold.line = some
    1679 ∧ request_ReadTransferEnds_noHold.delivered = some 0 ∧ State.slotWait state_ReadTransferEnds_noHold = [] ∧ State.waiters
    state_ReadTransferEnds_noHold (1679 / 4) = [] ∧ (State.unit state_ReadTransferEnds_noHold request_ReadTransferEnds_noHold.key.unit).detach = none
    ∧ (State.unit state_ReadTransferEnds_noHold request_ReadTransferEnds_noHold.key.unit).discard = none ∧ State.part state_ReadTransferEnds_noHold ≠
    .failed ∧ 0 < 1023 := ⟨completes_of (by decide), by decide⟩
def state_ReadTransferEnds_failed : State := { holding (withLine small clean) request_ReadTransferEnds_refused with part := .failed }
theorem witness_ReadTransferEnds_failed : State.Completes state_ReadTransferEnds_failed 7 request_ReadTransferEnds_refused ∧
    request_ReadTransferEnds_refused.place = .active ∧ request_ReadTransferEnds_refused.kind = some .read ∧ request_ReadTransferEnds_refused.line =
    some 1679 ∧ request_ReadTransferEnds_refused.delivered = some 0 ∧ State.slotWait state_ReadTransferEnds_failed = [] ∧ State.waiters
    state_ReadTransferEnds_failed (1679 / 4) = [] ∧ (State.unit state_ReadTransferEnds_failed request_ReadTransferEnds_refused.key.unit).detach = none
    ∧ (State.unit state_ReadTransferEnds_failed request_ReadTransferEnds_refused.key.unit).discard = none ∧ State.part state_ReadTransferEnds_failed =
    .failed ∧ State.endedInFailed state_ReadTransferEnds_failed = [] ∧ 0 < 1024 := ⟨completes_of (by decide), by decide⟩
theorem witness_ReadTransferEnds_failedComplete : State.Completes state_ReadTransferEnds_failed 7 request_ReadTransferEnds_refused ∧
    request_ReadTransferEnds_refused.place = .active ∧ request_ReadTransferEnds_refused.kind = some .read ∧ request_ReadTransferEnds_refused.line =
    some 1679 ∧ request_ReadTransferEnds_refused.delivered = some 0 ∧ State.slotWait state_ReadTransferEnds_failed = [] ∧ State.waiters
    state_ReadTransferEnds_failed (1679 / 4) = [] ∧ (State.unit state_ReadTransferEnds_failed request_ReadTransferEnds_refused.key.unit).detach = none
    ∧ (State.unit state_ReadTransferEnds_failed request_ReadTransferEnds_refused.key.unit).discard = none ∧ State.part state_ReadTransferEnds_failed =
    .failed ∧ State.endedInFailed state_ReadTransferEnds_failed = [] := ⟨completes_of (by decide), by decide⟩
def request_WriteTransferSwapsTheSlot_clean : Request :=
    { asked 1 (writeRecord 0x22 true 1 0 5 2 0x4000) .active with line := some 1679, staging := some 1 }
def state_WriteTransferSwapsTheSlot_clean : State := holding (withLine (busy small .searching (working (.fill 3))) { clean with writer := some 7 })
    request_WriteTransferSwapsTheSlot_clean
theorem witness_WriteTransferSwapsTheSlot_clean : State.Completes state_WriteTransferSwapsTheSlot_clean 7 request_WriteTransferSwapsTheSlot_clean ∧
    (State.unit state_WriteTransferSwapsTheSlot_clean request_WriteTransferSwapsTheSlot_clean.key.unit).unwaited ∧ State.part
    state_WriteTransferSwapsTheSlot_clean = .running ∧ request_WriteTransferSwapsTheSlot_clean.place = .active ∧
    request_WriteTransferSwapsTheSlot_clean.kind = some .write ∧ request_WriteTransferSwapsTheSlot_clean.line = some 1679 ∧
    request_WriteTransferSwapsTheSlot_clean.staging = some 1 ∧ (List.replicate 1024 (0xAB : Byte)).length = 1024 ∧ State.slotWait
    state_WriteTransferSwapsTheSlot_clean = [] ∧ State.waiters state_WriteTransferSwapsTheSlot_clean (1679 / 4) = [] ∧ (State.line
    state_WriteTransferSwapsTheSlot_clean 1679).waitList = [] ∧ (State.line state_WriteTransferSwapsTheSlot_clean 1679).key = some
    request_WriteTransferSwapsTheSlot_clean.key ∧ (State.unit state_WriteTransferSwapsTheSlot_clean
    request_WriteTransferSwapsTheSlot_clean.key.unit).op ≠ none ∧ (State.line state_WriteTransferSwapsTheSlot_clean 1679).state ≠ .free ∧ (State.line
    state_WriteTransferSwapsTheSlot_clean 1679).state ≠ .filling := ⟨completes_of (by decide), ⟨rfl, rfl⟩, by decide⟩
def state_WriteTransferSwapsTheSlot_loading : State := holding (withLine (busy small .searching (working (.fill 3)))
    { clean with state := .loading, currentSlot := some 1, writer := some 7 }) request_WriteTransferSwapsTheSlot_clean
theorem witness_WriteTransferSwapsTheSlot_loading : State.Completes state_WriteTransferSwapsTheSlot_loading 7 request_WriteTransferSwapsTheSlot_clean
    ∧ (State.unit state_WriteTransferSwapsTheSlot_loading request_WriteTransferSwapsTheSlot_clean.key.unit).unwaited ∧ State.part
    state_WriteTransferSwapsTheSlot_loading = .running ∧ request_WriteTransferSwapsTheSlot_clean.place = .active ∧
    request_WriteTransferSwapsTheSlot_clean.kind = some .write ∧ request_WriteTransferSwapsTheSlot_clean.line = some 1679 ∧
    request_WriteTransferSwapsTheSlot_clean.staging = some 1 ∧ (List.replicate 1024 (0xAB : Byte)).length = 1024 ∧ State.slotWait
    state_WriteTransferSwapsTheSlot_loading = [] ∧ State.waiters state_WriteTransferSwapsTheSlot_loading (1679 / 4) = [] ∧ (State.line
    state_WriteTransferSwapsTheSlot_loading 1679).waitList = [] ∧ (State.line state_WriteTransferSwapsTheSlot_loading 1679).key = some
    request_WriteTransferSwapsTheSlot_clean.key ∧ (State.unit state_WriteTransferSwapsTheSlot_loading
    request_WriteTransferSwapsTheSlot_clean.key.unit).op ≠ none ∧ (State.line state_WriteTransferSwapsTheSlot_loading 1679).state ≠ .free ∧
    (State.line state_WriteTransferSwapsTheSlot_loading 1679).state ≠ .filling := ⟨completes_of (by decide), ⟨rfl, rfl⟩, by decide⟩
def state_WriteTransferSwapsTheSlot_flushing : State := holding (withLine (busy small .searching (working (.fill 3)))
    { clean with state := .flushing, flushSource := some 0, dirtyEpoch := some 1, writer := some 7 }) request_WriteTransferSwapsTheSlot_clean
theorem witness_WriteTransferSwapsTheSlot_flushing : State.Completes state_WriteTransferSwapsTheSlot_flushing 7
    request_WriteTransferSwapsTheSlot_clean ∧ (State.unit state_WriteTransferSwapsTheSlot_flushing
    request_WriteTransferSwapsTheSlot_clean.key.unit).unwaited ∧ State.part state_WriteTransferSwapsTheSlot_flushing = .running ∧
    request_WriteTransferSwapsTheSlot_clean.place = .active ∧ request_WriteTransferSwapsTheSlot_clean.kind = some .write ∧
    request_WriteTransferSwapsTheSlot_clean.line = some 1679 ∧ request_WriteTransferSwapsTheSlot_clean.staging = some 1 ∧ (List.replicate 1024 (0xAB :
    Byte)).length = 1024 ∧ State.slotWait state_WriteTransferSwapsTheSlot_flushing = [] ∧ State.waiters state_WriteTransferSwapsTheSlot_flushing (1679
    / 4) = [] ∧ (State.line state_WriteTransferSwapsTheSlot_flushing 1679).waitList = [] ∧ (State.line state_WriteTransferSwapsTheSlot_flushing
    1679).key = some request_WriteTransferSwapsTheSlot_clean.key ∧ (State.unit state_WriteTransferSwapsTheSlot_flushing
    request_WriteTransferSwapsTheSlot_clean.key.unit).op ≠ none ∧ (State.line state_WriteTransferSwapsTheSlot_flushing 1679).state ≠ .free ∧
    (State.line state_WriteTransferSwapsTheSlot_flushing 1679).state ≠ .filling := ⟨completes_of (by decide), ⟨rfl, rfl⟩, by decide⟩
def request_WriteTransferErrorLeavesTheLine_kept : Request :=
    { asked 1 (writeRecord 0x22 false 1 0 5 2 0x4000) .active with line := some 1679, staging := some 1 }
def state_WriteTransferErrorLeavesTheLine_kept : State :=
    { holding (withLine small { clean with writer := some 7 }) request_WriteTransferErrorLeavesTheLine_kept with refs := [(0, 1), (1, 1)] }
theorem witness_WriteTransferErrorLeavesTheLine_kept : State.Completes state_WriteTransferErrorLeavesTheLine_kept 7
    request_WriteTransferErrorLeavesTheLine_kept ∧ (State.unit state_WriteTransferErrorLeavesTheLine_kept
    request_WriteTransferErrorLeavesTheLine_kept.key.unit).unwaited ∧ State.part state_WriteTransferErrorLeavesTheLine_kept ≠ .failed ∧ State.part
    state_WriteTransferErrorLeavesTheLine_kept ≠ .quiescing ∧ request_WriteTransferErrorLeavesTheLine_kept.place = .active ∧
    request_WriteTransferErrorLeavesTheLine_kept.kind = some .write ∧ request_WriteTransferErrorLeavesTheLine_kept.line = some 1679 ∧
    request_WriteTransferErrorLeavesTheLine_kept.staging = some 1 ∧ State.slotWait state_WriteTransferErrorLeavesTheLine_kept = [] ∧ State.waiters
    state_WriteTransferErrorLeavesTheLine_kept (1679 / 4) = [] ∧ (State.line state_WriteTransferErrorLeavesTheLine_kept 1679).waitList = [] ∧
    (State.line state_WriteTransferErrorLeavesTheLine_kept 1679).state ≠ .loading := ⟨completes_of (by decide), ⟨rfl, rfl⟩, by decide⟩
def state_WriteTransferErrorLeavesTheLine_freed : State :=
    { holding (withLine small { clean with state := .loading, currentSlot := some 1, writer := some 7 }) request_WriteTransferErrorLeavesTheLine_kept with refs := [(1, 2)] }
theorem witness_WriteTransferErrorLeavesTheLine_freed : State.Completes state_WriteTransferErrorLeavesTheLine_freed 7
    request_WriteTransferErrorLeavesTheLine_kept ∧ (State.unit state_WriteTransferErrorLeavesTheLine_freed
    request_WriteTransferErrorLeavesTheLine_kept.key.unit).unwaited ∧ State.part state_WriteTransferErrorLeavesTheLine_freed ≠ .failed ∧ State.part
    state_WriteTransferErrorLeavesTheLine_freed ≠ .quiescing ∧ request_WriteTransferErrorLeavesTheLine_kept.place = .active ∧
    request_WriteTransferErrorLeavesTheLine_kept.kind = some .write ∧ request_WriteTransferErrorLeavesTheLine_kept.line = some 1679 ∧
    request_WriteTransferErrorLeavesTheLine_kept.staging = some 1 ∧ State.slotWait state_WriteTransferErrorLeavesTheLine_freed = [] ∧ State.waiters
    state_WriteTransferErrorLeavesTheLine_freed (1679 / 4) = [] ∧ (State.line state_WriteTransferErrorLeavesTheLine_freed 1679).waitList = [] ∧
    (State.line state_WriteTransferErrorLeavesTheLine_freed 1679).state = .loading ∧ (State.line state_WriteTransferErrorLeavesTheLine_freed
    1679).flushSource = none ∧ (State.line state_WriteTransferErrorLeavesTheLine_freed 1679).currentSlot = some 1 ∧ State.refCount
    state_WriteTransferErrorLeavesTheLine_freed 1 = 2 := ⟨completes_of (by decide), ⟨rfl, rfl⟩, by decide⟩
def request_DeadlinesOfWaitsAndEpisodes_setDue : Request := { asked 1 theWrite (.parked .setWait) with deadline := some 2000 }
def state_DeadlinesOfWaitsAndEpisodes_setDue : State :=
    { holding small request_DeadlinesOfWaitsAndEpisodes_setDue with setWait := [(419, [7])], now := 2000 }
theorem witness_DeadlinesOfWaitsAndEpisodes_setDue : State.Completes state_DeadlinesOfWaitsAndEpisodes_setDue 7
    request_DeadlinesOfWaitsAndEpisodes_setDue ∧ State.part state_DeadlinesOfWaitsAndEpisodes_setDue ≠ .failed ∧
    request_DeadlinesOfWaitsAndEpisodes_setDue.place = .parked .setWait ∧ request_DeadlinesOfWaitsAndEpisodes_setDue.deadline = some 2000 ∧ 2000 ≤
    State.now state_DeadlinesOfWaitsAndEpisodes_setDue := ⟨completes_of (by decide), by decide⟩
def state_DeadlinesOfWaitsAndEpisodes_setEarly : State :=
    { holding small request_DeadlinesOfWaitsAndEpisodes_setDue with setWait := [(419, [7])], now := 1999 }
theorem witness_DeadlinesOfWaitsAndEpisodes_setEarly : State.Completes state_DeadlinesOfWaitsAndEpisodes_setEarly 7
    request_DeadlinesOfWaitsAndEpisodes_setDue ∧ State.part state_DeadlinesOfWaitsAndEpisodes_setEarly ≠ .failed ∧
    request_DeadlinesOfWaitsAndEpisodes_setDue.place = .parked .setWait ∧ request_DeadlinesOfWaitsAndEpisodes_setDue.deadline = some 2000 ∧ State.now
    state_DeadlinesOfWaitsAndEpisodes_setEarly < 2000 := ⟨completes_of (by decide), by decide⟩
def state_DeadlinesOfWaitsAndEpisodes_early : State :=
    { holding (withLine (withChannel small 2 (fun x => { x with revokeLimit := 0, revokeCount := 255 })) { clean with holders := [2], writer := some 7, episode := some 31 }) request_UnitDiscardSetsItsFlag_episode with episodes := [(31, some (⟨key, 1679, 7, 1, [2], [2], 500⟩ : Episode))], now := 499 }
theorem witness_DeadlinesOfWaitsAndEpisodes_early : State.Settled state_DeadlinesOfWaitsAndEpisodes_early ∧ State.part
    state_DeadlinesOfWaitsAndEpisodes_early ≠ .failed ∧ State.episode state_DeadlinesOfWaitsAndEpisodes_early 31 = some
    (⟨key, 1679, 7, 1, [2], [2], 500⟩ : Episode) ∧ (⟨key, 1679, 7, 1, [2], [2], 500⟩ : Episode).waiting = [2] ∧ State.now
    state_DeadlinesOfWaitsAndEpisodes_early < (⟨key, 1679, 7, 1, [2], [2], 500⟩ : Episode).deadline := ⟨rfl, by decide⟩
def state_DeadlinesOfWaitsAndEpisodes_due : State :=
    { holding (withLine (withChannel small 2 (fun x => { x with revokeLimit := 0, revokeCount := 255 })) { clean with holders := [2], writer := some 7, episode := some 31 }) request_UnitDiscardSetsItsFlag_episode with episodes := [(31, some (⟨key, 1679, 7, 1, [2], [2], 500⟩ : Episode))], now := 500 }
theorem witness_DeadlinesOfWaitsAndEpisodes_due : State.Settled state_DeadlinesOfWaitsAndEpisodes_due ∧ State.part
    state_DeadlinesOfWaitsAndEpisodes_due ≠ .failed ∧ State.episode state_DeadlinesOfWaitsAndEpisodes_due 31 = some (⟨key, 1679, 7, 1, [2], [2], 500⟩
    : Episode) ∧ (⟨key, 1679, 7, 1, [2], [2], 500⟩ : Episode).waiting = [2] ∧ (⟨key, 1679, 7, 1, [2], [2], 500⟩ : Episode).deadline ≤ State.now
    state_DeadlinesOfWaitsAndEpisodes_due ∧ (⟨key, 1679, 7, 1, [2], [2], 500⟩ : Episode).recalled = [2] ∧ (⟨key, 1679, 7, 1, [2], [2], 500⟩ :
    Episode).writer = 7 ∧ State.request state_DeadlinesOfWaitsAndEpisodes_due 7 = some request_UnitDiscardSetsItsFlag_episode ∧ 2 ≠ 0 ∧ (State.channel
    state_DeadlinesOfWaitsAndEpisodes_due 2).state = .open ∧ (State.channel state_DeadlinesOfWaitsAndEpisodes_due 2).backlog.length < 48 ∧
    (State.channel state_DeadlinesOfWaitsAndEpisodes_due 2).revokeLimit = 0 ∧ (State.line state_DeadlinesOfWaitsAndEpisodes_due
    (⟨key, 1679, 7, 1, [2], [2], 500⟩ : Episode).line).episode = some 31 ∧ State.episodeWait state_DeadlinesOfWaitsAndEpisodes_due = [] ∧
    State.waiters state_DeadlinesOfWaitsAndEpisodes_due ((⟨key, 1679, 7, 1, [2], [2], 500⟩ : Episode).line / 4) = [] ∧ State.freeSlot
    state_DeadlinesOfWaitsAndEpisodes_due = some 1 := ⟨rfl, by decide⟩
theorem witness_SeekErrorEndsTheOperation_idle : State.Settled small ∧ (State.unit small 1).workless ∧ (State.unit small 1).unwaited ∧ State.part
    small = .running ∧ (State.unit small 1).state ≠ .detached ∧ (State.unit small 1).writeGate = false ∧ (State.unit small 1).op = none :=
    ⟨rfl, ⟨rfl, rfl, rfl⟩, ⟨rfl, rfl⟩, by decide⟩
def request_SeekErrorEndsTheOperation_survey : Request := asked 1 (surveyRecord 5 1 0 5 0x4000) .active
def state_SeekErrorEndsTheOperation_survey : State := holding (busy small .surveying (working (.survey 7))) request_SeekErrorEndsTheOperation_survey
theorem witness_SeekErrorEndsTheOperation_survey : State.Settled state_SeekErrorEndsTheOperation_survey ∧ (State.unit
    state_SeekErrorEndsTheOperation_survey 1).workless ∧ (State.unit state_SeekErrorEndsTheOperation_survey 1).unwaited ∧ State.Completes
    state_SeekErrorEndsTheOperation_survey 7 request_SeekErrorEndsTheOperation_survey ∧ State.part state_SeekErrorEndsTheOperation_survey = .running ∧
    (State.unit state_SeekErrorEndsTheOperation_survey 1).state ≠ .detached ∧ (State.unit state_SeekErrorEndsTheOperation_survey 1).writeGate = false
    ∧ (State.unit state_SeekErrorEndsTheOperation_survey 1).op = some (working (.survey 7)) ∧ (working (.survey 7)).subject = .survey 7 :=
    ⟨rfl, ⟨rfl, rfl, rfl⟩, ⟨rfl, rfl⟩, completes_of (by decide), by decide⟩
def state_SeekErrorEndsTheOperation_fill : State := busy (withLine small { clean with state := .filling }) .homing (working (.fill 1679))
theorem witness_SeekErrorEndsTheOperation_fill : State.Settled state_SeekErrorEndsTheOperation_fill ∧ (State.unit state_SeekErrorEndsTheOperation_fill
    1).workless ∧ (State.unit state_SeekErrorEndsTheOperation_fill 1).unwaited ∧ State.part state_SeekErrorEndsTheOperation_fill = .running ∧
    (State.unit state_SeekErrorEndsTheOperation_fill 1).state ≠ .detached ∧ (State.unit state_SeekErrorEndsTheOperation_fill 1).writeGate = false ∧
    (State.unit state_SeekErrorEndsTheOperation_fill 1).op = some (working (.fill 1679)) ∧ (working (.fill 1679)).subject = .fill 1679 ∧ (State.line
    state_SeekErrorEndsTheOperation_fill 1679).state = .filling ∧ (State.line state_SeekErrorEndsTheOperation_fill 1679).waitList = [] ∧ State.waiters
    state_SeekErrorEndsTheOperation_fill (1679 / 4) = [] ∧ State.slotWait state_SeekErrorEndsTheOperation_fill = [] :=
    ⟨rfl, ⟨rfl, rfl, rfl⟩, ⟨rfl, rfl⟩, by decide⟩
def state_PositioningFollowsTheUnit_arrived : State := busy small .positioning (working (.fill 3))
theorem witness_PositioningFollowsTheUnit_arrived : State.Settled state_PositioningFollowsTheUnit_arrived ∧ State.part
    state_PositioningFollowsTheUnit_arrived ≠ .failed ∧ (State.unit state_PositioningFollowsTheUnit_arrived 1).state ≠ .detached ∧ (State.unit
    state_PositioningFollowsTheUnit_arrived 1).op = some (working (.fill 3)) ∧ (State.unit state_PositioningFollowsTheUnit_arrived 1).seq =
    .positioning := ⟨rfl, by decide⟩
def op_PositioningFollowsTheUnit_home : Operation := { working (.fill 3) with track := 0 }
def state_PositioningFollowsTheUnit_home : State := busy small .homing op_PositioningFollowsTheUnit_home
theorem witness_PositioningFollowsTheUnit_home : State.Settled state_PositioningFollowsTheUnit_home ∧ State.part state_PositioningFollowsTheUnit_home
    ≠ .failed ∧ (State.unit state_PositioningFollowsTheUnit_home 1).state ≠ .detached ∧ (State.unit state_PositioningFollowsTheUnit_home 1).op = some
    op_PositioningFollowsTheUnit_home ∧ (State.unit state_PositioningFollowsTheUnit_home 1).seq = .homing ∧ op_PositioningFollowsTheUnit_home.track =
    0 := ⟨rfl, by decide⟩
theorem witness_PositioningFollowsTheUnit_homeThenMove : State.Settled state_IdleStepQueuesExpiries ∧ State.part state_IdleStepQueuesExpiries ≠
    .failed ∧ (State.unit state_IdleStepQueuesExpiries 1).state ≠ .detached ∧ (State.unit state_IdleStepQueuesExpiries 1).op = some (working (.fill
    3)) ∧ (State.unit state_IdleStepQueuesExpiries 1).seq = .homing ∧ (working (.fill 3)).track ≠ 0 := ⟨rfl, by decide⟩
theorem witness_PositioningFollowsTheUnit_arrivedIgnored : State.Settled small ∧ (State.unit small 1).seq ≠ .positioning := ⟨rfl, by decide⟩
theorem witness_PositioningFollowsTheUnit_homeIgnored : State.Settled small ∧ (State.unit small 1).seq ≠ .homing := ⟨rfl, by decide⟩
def state_PositioningFollowsTheUnit_badCheck : State := holding (busy (withLine small { clean with state := .filling }) .verifying (working (.fill
    1679))) request_SeekErrorEndsTheOperation_survey
theorem witness_PositioningFollowsTheUnit_badCheck : State.Settled state_PositioningFollowsTheUnit_badCheck ∧ State.part
    state_PositioningFollowsTheUnit_badCheck = .running ∧ (State.unit state_PositioningFollowsTheUnit_badCheck 1).state ≠ .detached ∧ (State.unit
    state_PositioningFollowsTheUnit_badCheck 1).op = some (working (.fill 1679)) ∧ (State.unit state_PositioningFollowsTheUnit_badCheck 1).seq =
    .verifying ∧ (working (.fill 1679)).field = none ∧ ¬ 0 = checkBytes 0xFFFF
    [BitVec.extractLsb' 8 8 (5 : BitVec 16), BitVec.extractLsb' 0 8 (5 : BitVec 16), 0, 2, 3] := ⟨rfl, by decide⟩
theorem witness_PositioningFollowsTheUnit_verified : State.Settled state_PositioningFollowsTheUnit_badCheck ∧ State.part
    state_PositioningFollowsTheUnit_badCheck = .running ∧ (State.unit state_PositioningFollowsTheUnit_badCheck 1).state ≠ .detached ∧ (State.unit
    state_PositioningFollowsTheUnit_badCheck 1).op = some (working (.fill 1679)) ∧ (State.unit state_PositioningFollowsTheUnit_badCheck 1).seq =
    .verifying ∧ (working (.fill 1679)).field = none ∧ (checkOf 2) = checkBytes 0xFFFF
    [BitVec.extractLsb' 8 8 (5 : BitVec 16), BitVec.extractLsb' 0 8 (5 : BitVec 16), 0, 2, 3] ∧ ((5 : BitVec 16).toNat = (working (.fill 1679)).track
    ∧ (0 : Byte).toNat = (working (.fill 1679)).surface) ∧ (working (.fill 1679)).subject = .fill 1679 := ⟨rfl, by decide⟩
theorem witness_PositioningFollowsTheUnit_verifiedOther : State.Settled state_PositioningFollowsTheUnit_badCheck ∧ State.part
    state_PositioningFollowsTheUnit_badCheck = .running ∧ (State.unit state_PositioningFollowsTheUnit_badCheck 1).state ≠ .detached ∧ (State.unit
    state_PositioningFollowsTheUnit_badCheck 1).op = some (working (.fill 1679)) ∧ (State.unit state_PositioningFollowsTheUnit_badCheck 1).seq =
    .verifying ∧ (working (.fill 1679)).field = none ∧ (checkOf 3) = checkBytes 0xFFFF
    [BitVec.extractLsb' 8 8 (5 : BitVec 16), BitVec.extractLsb' 0 8 (5 : BitVec 16), 0, 3, 3] ∧ ((5 : BitVec 16).toNat = (working (.fill 1679)).track
    ∧ (0 : Byte).toNat = (working (.fill 1679)).surface) ∧ (working (.fill 1679)).subject = .fill 1679 := ⟨rfl, by decide⟩
def op_PositioningFollowsTheUnit_surveys : Operation := { working (.survey 7) with sector := none }
def state_PositioningFollowsTheUnit_surveys : State := holding (busy (withLine small { clean with state := .filling }) .verifying
    op_PositioningFollowsTheUnit_surveys) request_SeekErrorEndsTheOperation_survey
theorem witness_PositioningFollowsTheUnit_surveys : State.Settled state_PositioningFollowsTheUnit_surveys ∧ State.part
    state_PositioningFollowsTheUnit_surveys = .running ∧ (State.unit state_PositioningFollowsTheUnit_surveys 1).state ≠ .detached ∧ (State.unit
    state_PositioningFollowsTheUnit_surveys 1).op = some op_PositioningFollowsTheUnit_surveys ∧ (State.unit state_PositioningFollowsTheUnit_surveys
    1).seq = .verifying ∧ op_PositioningFollowsTheUnit_surveys.field = none ∧ (checkOf 2) = checkBytes 0xFFFF
    [BitVec.extractLsb' 8 8 (5 : BitVec 16), BitVec.extractLsb' 0 8 (5 : BitVec 16), 0, 2, 3] ∧ ((5 : BitVec 16).toNat =
    op_PositioningFollowsTheUnit_surveys.track ∧ (0 : Byte).toNat = op_PositioningFollowsTheUnit_surveys.surface) ∧
    op_PositioningFollowsTheUnit_surveys.subject = .survey 7 := ⟨rfl, by decide⟩
theorem witness_PositioningFollowsTheUnit_homesAgain : State.Settled state_PositioningFollowsTheUnit_surveys ∧ State.part
    state_PositioningFollowsTheUnit_surveys = .running ∧ (State.unit state_PositioningFollowsTheUnit_surveys 1).state ≠ .detached ∧ (State.unit
    state_PositioningFollowsTheUnit_surveys 1).op = some op_PositioningFollowsTheUnit_surveys ∧ (State.unit state_PositioningFollowsTheUnit_surveys
    1).seq = .verifying ∧ op_PositioningFollowsTheUnit_surveys.field = none ∧ (checkBytes 0xFFFF [0, 5, 1, 2, 3]) = checkBytes 0xFFFF
    [BitVec.extractLsb' 8 8 (5 : BitVec 16), BitVec.extractLsb' 0 8 (5 : BitVec 16), 1, 2, 3] ∧ ¬ ((5 : BitVec 16).toNat =
    op_PositioningFollowsTheUnit_surveys.track ∧ (1 : Byte).toNat = op_PositioningFollowsTheUnit_surveys.surface) ∧
    op_PositioningFollowsTheUnit_surveys.recalibrated = false := ⟨rfl, by decide⟩
def op_PositioningFollowsTheUnit_lost : Operation := { working (.survey 7) with sector := none, recalibrated := true }
def state_PositioningFollowsTheUnit_lost : State := holding (busy (withLine small { clean with state := .filling }) .verifying
    op_PositioningFollowsTheUnit_lost) request_SeekErrorEndsTheOperation_survey
theorem witness_PositioningFollowsTheUnit_lost : State.Settled state_PositioningFollowsTheUnit_lost ∧ State.Completes
    state_PositioningFollowsTheUnit_lost 7 request_SeekErrorEndsTheOperation_survey ∧ (State.unit state_PositioningFollowsTheUnit_lost 1).workless ∧
    (State.unit state_PositioningFollowsTheUnit_lost 1).unwaited ∧ State.part state_PositioningFollowsTheUnit_lost = .running ∧ (State.unit
    state_PositioningFollowsTheUnit_lost 1).state ≠ .detached ∧ (State.unit state_PositioningFollowsTheUnit_lost 1).op = some
    op_PositioningFollowsTheUnit_lost ∧ (State.unit state_PositioningFollowsTheUnit_lost 1).seq = .verifying ∧ op_PositioningFollowsTheUnit_lost.field
    = none ∧ (checkBytes 0xFFFF [0, 5, 1, 2, 3]) = checkBytes 0xFFFF
    [BitVec.extractLsb' 8 8 (5 : BitVec 16), BitVec.extractLsb' 0 8 (5 : BitVec 16), 1, 2, 3] ∧ ¬ ((5 : BitVec 16).toNat =
    op_PositioningFollowsTheUnit_lost.track ∧ (1 : Byte).toNat = op_PositioningFollowsTheUnit_lost.surface) ∧
    op_PositioningFollowsTheUnit_lost.recalibrated = true ∧ op_PositioningFollowsTheUnit_lost.subject = .survey 7 ∧ (State.unit
    state_PositioningFollowsTheUnit_lost 1).writeGate = false := ⟨rfl, completes_of (by decide), ⟨rfl, rfl, rfl⟩, ⟨rfl, rfl⟩, by decide⟩
def state_HeaderSearchFindsItsTarget_fill : State := busy (withLine small { clean with state := .flushing, flushSource := some 0 }) .searching
    (working (.fill 1679))
theorem witness_HeaderSearchFindsItsTarget_fill : State.Settled state_HeaderSearchFindsItsTarget_fill ∧ State.part
    state_HeaderSearchFindsItsTarget_fill ≠ .failed ∧ (State.unit state_HeaderSearchFindsItsTarget_fill 1).state ≠ .detached ∧ (State.unit
    state_HeaderSearchFindsItsTarget_fill 1).op = some (working (.fill 1679)) ∧ (State.unit state_HeaderSearchFindsItsTarget_fill 1).seq = .searching
    ∧ (working (.fill 1679)).field = none ∧ ((5 : BitVec 16).toNat = (working (.fill 1679)).track ∧ (0 : Byte).toNat = (working (.fill 1679)).surface
    ∧ (working (.fill 1679)).sector = some (2 : Byte).toNat ∧ (3 : Byte) = 3) ∧ (checkOf 2) = checkBytes 0xFFFF
    [BitVec.extractLsb' 8 8 (5 : BitVec 16), BitVec.extractLsb' 0 8 (5 : BitVec 16), 0, 2, 3] ∧ (working (.fill 1679)).subject = .fill 1679 :=
    ⟨rfl, by decide⟩
def state_HeaderSearchFindsItsTarget_flush : State := busy (withLine small { clean with state := .flushing, flushSource := some 0 }) .searching
    (working (.flush 1679))
theorem witness_HeaderSearchFindsItsTarget_flush : State.Settled state_HeaderSearchFindsItsTarget_flush ∧ State.part
    state_HeaderSearchFindsItsTarget_flush ≠ .failed ∧ (State.unit state_HeaderSearchFindsItsTarget_flush 1).state ≠ .detached ∧ (State.unit
    state_HeaderSearchFindsItsTarget_flush 1).op = some (working (.flush 1679)) ∧ (State.unit state_HeaderSearchFindsItsTarget_flush 1).seq =
    .searching ∧ (working (.flush 1679)).field = none ∧ ((5 : BitVec 16).toNat = (working (.flush 1679)).track ∧ (0 : Byte).toNat = (working (.flush
    1679)).surface ∧ (working (.flush 1679)).sector = some (2 : Byte).toNat ∧ (3 : Byte) = 3) ∧ (checkOf 2) = checkBytes 0xFFFF
    [BitVec.extractLsb' 8 8 (5 : BitVec 16), BitVec.extractLsb' 0 8 (5 : BitVec 16), 0, 2, 3] ∧ (working (.flush 1679)).subject = .flush 1679 ∧
    (State.line state_HeaderSearchFindsItsTarget_flush 1679).flushSource = some 0 := ⟨rfl, by decide⟩
theorem witness_HeaderSearchFindsItsTarget_badCheck : State.Settled state_HeaderSearchFindsItsTarget_fill ∧ State.part
    state_HeaderSearchFindsItsTarget_fill ≠ .failed ∧ (State.unit state_HeaderSearchFindsItsTarget_fill 1).state ≠ .detached ∧ (State.unit
    state_HeaderSearchFindsItsTarget_fill 1).op = some (working (.fill 1679)) ∧ (State.unit state_HeaderSearchFindsItsTarget_fill 1).seq = .searching
    ∧ (working (.fill 1679)).field = none ∧ ((5 : BitVec 16).toNat = (working (.fill 1679)).track ∧ (0 : Byte).toNat = (working (.fill 1679)).surface
    ∧ (working (.fill 1679)).sector = some (2 : Byte).toNat ∧ (3 : Byte) = 3) ∧ ¬ 0 = checkBytes 0xFFFF
    [BitVec.extractLsb' 8 8 (5 : BitVec 16), BitVec.extractLsb' 0 8 (5 : BitVec 16), 0, 2, 3] := ⟨rfl, by decide⟩
theorem witness_HeaderSearchFindsItsTarget_other : State.Settled state_HeaderSearchFindsItsTarget_fill ∧ State.part
    state_HeaderSearchFindsItsTarget_fill ≠ .failed ∧ (State.unit state_HeaderSearchFindsItsTarget_fill 1).state ≠ .detached ∧ (State.unit
    state_HeaderSearchFindsItsTarget_fill 1).op = some (working (.fill 1679)) ∧ (State.unit state_HeaderSearchFindsItsTarget_fill 1).seq = .searching
    ∧ (working (.fill 1679)).field = none ∧ ¬ ((5 : BitVec 16).toNat = (working (.fill 1679)).track ∧ (0 : Byte).toNat = (working (.fill
    1679)).surface ∧ (working (.fill 1679)).sector = some (3 : Byte).toNat ∧ (3 : Byte) = 3) := ⟨rfl, by decide⟩
def op_FillReadsItsDataField_mark : Operation := { working (.fill 1679) with field := none }
def state_FillReadsItsDataField_mark : State := busy (withLine small { clean with state := .filling }) .transferring op_FillReadsItsDataField_mark
theorem witness_FillReadsItsDataField_mark : State.Settled state_FillReadsItsDataField_mark ∧ State.part state_FillReadsItsDataField_mark = .running ∧
    (State.unit state_FillReadsItsDataField_mark 1).state ≠ .detached ∧ (State.unit state_FillReadsItsDataField_mark 1).op = some
    op_FillReadsItsDataField_mark ∧ (State.unit state_FillReadsItsDataField_mark 1).seq = .transferring ∧ op_FillReadsItsDataField_mark.subject =
    .fill 1679 ∧ op_FillReadsItsDataField_mark.field = none := ⟨rfl, by decide⟩
def op_FillReadsItsDataField_data : Operation := { working (.fill 1679) with field := some ⟨.retired, 0, checkBytes 0xFFFF [0xF8]⟩ }
def state_FillReadsItsDataField_data : State :=
    { busy (withLine small { clean with state := .filling, waitList := [] ++ [] }) .transferring op_FillReadsItsDataField_data with table := [] }
theorem witness_FillReadsItsDataField_data : State.Settled state_FillReadsItsDataField_data ∧ (State.unit state_FillReadsItsDataField_data 1).workless
    ∧ (State.unit state_FillReadsItsDataField_data 1).unwaited ∧ (∀ i ∈ ([] : List Nat), ∃ y, State.request state_FillReadsItsDataField_data i = some
    y ∧ y.kind = some .read) ∧ (∀ i ∈ ([] : List Nat).head?, ∃ v, State.request state_FillReadsItsDataField_data i = some v ∧ v.kind = some .write) ∧
    State.part state_FillReadsItsDataField_data = .running ∧ (State.unit state_FillReadsItsDataField_data 1).state ≠ .detached ∧ (State.unit
    state_FillReadsItsDataField_data 1).op = some op_FillReadsItsDataField_data ∧ (State.unit state_FillReadsItsDataField_data 1).seq = .transferring
    ∧ op_FillReadsItsDataField_data.subject = .fill 1679 ∧ op_FillReadsItsDataField_data.field = some ⟨.retired, 0, checkBytes 0xFFFF [0xF8]⟩ ∧
    (List.replicate 1024 (0xAB : Byte)).length = 1024 ∧ (State.unit state_FillReadsItsDataField_data 1).writeGate = false ∧ (State.line
    state_FillReadsItsDataField_data 1679).state = .filling ∧ (State.line state_FillReadsItsDataField_data 1679).currentSlot = some 0 ∧ State.waiters
    state_FillReadsItsDataField_data (1679 / 4) = [] ∧ ((State.line state_FillReadsItsDataField_data 1679).waitList ≠ [] → (State.line
    state_FillReadsItsDataField_data 1679).writer = none ∧ (State.line state_FillReadsItsDataField_data 1679).holders = []) ∧ (State.line
    state_FillReadsItsDataField_data 1679).waitList = [] ++ [] :=
    ⟨rfl, ⟨rfl, rfl, rfl⟩, ⟨rfl, rfl⟩, (fun _ h => absurd h List.not_mem_nil), (fun _ h => nomatch h), by decide⟩
def state_FillReadsItsDataField_reads : State :=
    { busy (withLine small { clean with state := .filling, waitList := [7] ++ [] }) .transferring op_FillReadsItsDataField_data with table := [(7, some { asked 1 theRead (.parked .lineWait) with line := some 1679 })] }
theorem witness_FillReadsItsDataField_reads : State.Settled state_FillReadsItsDataField_reads ∧ (State.unit state_FillReadsItsDataField_reads
    1).workless ∧ (State.unit state_FillReadsItsDataField_reads 1).unwaited ∧ (∀ i ∈ [7], ∃ y, State.request state_FillReadsItsDataField_reads i =
    some y ∧ y.kind = some .read) ∧ (∀ i ∈ ([] : List Nat).head?, ∃ v, State.request state_FillReadsItsDataField_reads i = some v ∧ v.kind = some
    .write) ∧ State.part state_FillReadsItsDataField_reads = .running ∧ (State.unit state_FillReadsItsDataField_reads 1).state ≠ .detached ∧
    (State.unit state_FillReadsItsDataField_reads 1).op = some op_FillReadsItsDataField_data ∧ (State.unit state_FillReadsItsDataField_reads 1).seq =
    .transferring ∧ op_FillReadsItsDataField_data.subject = .fill 1679 ∧ op_FillReadsItsDataField_data.field = some
    ⟨.retired, 0, checkBytes 0xFFFF [0xF8]⟩ ∧ (List.replicate 1024 (0xAB : Byte)).length = 1024 ∧ (State.unit state_FillReadsItsDataField_reads
    1).writeGate = false ∧ (State.line state_FillReadsItsDataField_reads 1679).state = .filling ∧ (State.line state_FillReadsItsDataField_reads
    1679).currentSlot = some 0 ∧ State.waiters state_FillReadsItsDataField_reads (1679 / 4) = [] ∧ ((State.line state_FillReadsItsDataField_reads
    1679).waitList ≠ [] → (State.line state_FillReadsItsDataField_reads 1679).writer = none ∧ (State.line state_FillReadsItsDataField_reads
    1679).holders = []) ∧ (State.line state_FillReadsItsDataField_reads 1679).waitList = [7] ++ [] :=
    ⟨rfl, ⟨rfl, rfl, rfl⟩, ⟨rfl, rfl⟩, (fun i h => by
      obtain rfl := List.mem_singleton.mp h
      exact ⟨_, rfl, rfl⟩), (fun _ h => nomatch h), by decide⟩
def state_FillReadsItsDataField_writer : State :=
    { busy (withLine small { clean with state := .filling, waitList := [7] ++ [8, 10] }) .transferring op_FillReadsItsDataField_data with table := [(7, some { asked 1 theRead (.parked .lineWait) with line := some 1679 }), (8, some request_UnitDiscardSetsItsFlag_lineWait), (10, some { asked 1 theRead (.parked .lineWait) with line := some 1679 })] }
theorem witness_FillReadsItsDataField_writer : State.Settled state_FillReadsItsDataField_writer ∧ (State.unit state_FillReadsItsDataField_writer
    1).workless ∧ (State.unit state_FillReadsItsDataField_writer 1).unwaited ∧ (∀ i ∈ [7], ∃ y, State.request state_FillReadsItsDataField_writer i =
    some y ∧ y.kind = some .read) ∧ (∀ i ∈ ([8, 10] : List Nat).head?, ∃ v, State.request state_FillReadsItsDataField_writer i = some v ∧ v.kind =
    some .write) ∧ State.part state_FillReadsItsDataField_writer = .running ∧ (State.unit state_FillReadsItsDataField_writer 1).state ≠ .detached ∧
    (State.unit state_FillReadsItsDataField_writer 1).op = some op_FillReadsItsDataField_data ∧ (State.unit state_FillReadsItsDataField_writer 1).seq
    = .transferring ∧ op_FillReadsItsDataField_data.subject = .fill 1679 ∧ op_FillReadsItsDataField_data.field = some
    ⟨.retired, 0, checkBytes 0xFFFF [0xF8]⟩ ∧ (List.replicate 1024 (0xAB : Byte)).length = 1024 ∧ (State.unit state_FillReadsItsDataField_writer
    1).writeGate = false ∧ (State.line state_FillReadsItsDataField_writer 1679).state = .filling ∧ (State.line state_FillReadsItsDataField_writer
    1679).currentSlot = some 0 ∧ State.waiters state_FillReadsItsDataField_writer (1679 / 4) = [] ∧ ((State.line state_FillReadsItsDataField_writer
    1679).waitList ≠ [] → (State.line state_FillReadsItsDataField_writer 1679).writer = none ∧ (State.line state_FillReadsItsDataField_writer
    1679).holders = []) ∧ (State.line state_FillReadsItsDataField_writer 1679).waitList = [7] ++ [8, 10] ∧ ([8, 10] : List Nat) = 8 :: [10] ∧
    State.request state_FillReadsItsDataField_writer 8 = some request_UnitDiscardSetsItsFlag_lineWait ∧ State.refCount
    state_FillReadsItsDataField_writer 0 ≠ 0 ∧ State.freeSlot state_FillReadsItsDataField_writer = some 1 :=
    ⟨rfl, ⟨rfl, rfl, rfl⟩, ⟨rfl, rfl⟩, (fun i h => by
      obtain rfl := List.mem_singleton.mp h
      exact ⟨_, rfl, rfl⟩), (fun i h => by
      obtain rfl := Option.some.inj h
      exact ⟨_, rfl, rfl⟩), by decide⟩
def op_BadDataIsRetriedThenFails_retried : Operation := { working (.fill 1679) with field := some ⟨.data, 1024, 5⟩, attempts := 1 }
def state_BadDataIsRetriedThenFails_retried : State := holding (busy (withLine small { clean with state := .filling, waitList := [7] }) .transferring
    op_BadDataIsRetriedThenFails_retried) { asked 1 theRead (.parked .lineWait) with line := some 1679 }
theorem witness_BadDataIsRetriedThenFails_retried : State.Settled state_BadDataIsRetriedThenFails_retried ∧ State.part
    state_BadDataIsRetriedThenFails_retried = .running ∧ (State.unit state_BadDataIsRetriedThenFails_retried 1).state ≠ .detached ∧ (State.unit
    state_BadDataIsRetriedThenFails_retried 1).op = some op_BadDataIsRetriedThenFails_retried ∧ (State.unit state_BadDataIsRetriedThenFails_retried
    1).seq = .transferring ∧ op_BadDataIsRetriedThenFails_retried.subject = .fill 1679 ∧ op_BadDataIsRetriedThenFails_retried.field = some
    (⟨.data, 1024, 5⟩ : DataField) ∧ ((⟨.data, 1024, 5⟩ : DataField).received ≠ 1024 ∨ (⟨.data, 1024, 5⟩ : DataField).check ≠ 6) ∧ (State.unit
    state_BadDataIsRetriedThenFails_retried 1).retries = some 2 ∧ op_BadDataIsRetriedThenFails_retried.attempts + 1 ≤ 2 := ⟨rfl, by decide⟩
def request_BadDataIsRetriedThenFails_fails : Request := { asked 1 theRead (.parked .lineWait) with line := some 1679 }
def op_BadDataIsRetriedThenFails_fails : Operation := { working (.fill 1679) with field := some ⟨.data, 1024, 5⟩, attempts := 2 }
def state_BadDataIsRetriedThenFails_fails : State := holding (busy (withLine small { clean with state := .filling, waitList := [7] }) .transferring
    op_BadDataIsRetriedThenFails_fails) request_BadDataIsRetriedThenFails_fails
theorem witness_BadDataIsRetriedThenFails_fails : State.Settled state_BadDataIsRetriedThenFails_fails ∧ (State.unit
    state_BadDataIsRetriedThenFails_fails 1).workless ∧ (State.unit state_BadDataIsRetriedThenFails_fails 1).unwaited ∧ State.Completes
    state_BadDataIsRetriedThenFails_fails 7 request_BadDataIsRetriedThenFails_fails ∧ State.part state_BadDataIsRetriedThenFails_fails = .running ∧
    (State.unit state_BadDataIsRetriedThenFails_fails 1).state ≠ .detached ∧ (State.unit state_BadDataIsRetriedThenFails_fails 1).op = some
    op_BadDataIsRetriedThenFails_fails ∧ (State.unit state_BadDataIsRetriedThenFails_fails 1).seq = .transferring ∧
    op_BadDataIsRetriedThenFails_fails.subject = .fill 1679 ∧ op_BadDataIsRetriedThenFails_fails.field = some (⟨.data, 1024, 5⟩ : DataField) ∧
    ((⟨.data, 1024, 5⟩ : DataField).received ≠ 1024 ∨ (⟨.data, 1024, 5⟩ : DataField).check ≠ 6) ∧ (State.unit state_BadDataIsRetriedThenFails_fails
    1).retries = some 2 ∧ 2 < op_BadDataIsRetriedThenFails_fails.attempts + 1 ∧ (State.unit state_BadDataIsRetriedThenFails_fails 1).writeGate = false
    ∧ (State.line state_BadDataIsRetriedThenFails_fails 1679).state = .filling ∧ State.slotWait state_BadDataIsRetriedThenFails_fails = [] ∧
    State.waiters state_BadDataIsRetriedThenFails_fails (1679 / 4) = [] ∧ (State.line state_BadDataIsRetriedThenFails_fails 1679).waitList = [7] ∧
    request_BadDataIsRetriedThenFails_fails.kind = some .read := ⟨rfl, ⟨rfl, rfl, rfl⟩, ⟨rfl, rfl⟩, completes_of (by decide), by decide⟩
def op_BadDataIsRetriedThenFails_secondMark : Operation := { working (.fill 1679) with field := some ⟨.data, 9, 5⟩, indexCount := 2, attempts := 1 }
def state_BadDataIsRetriedThenFails_secondMark : State := holding (busy (withLine small { clean with state := .filling, waitList := [7] })
    .transferring op_BadDataIsRetriedThenFails_secondMark) request_BadDataIsRetriedThenFails_fails
theorem witness_BadDataIsRetriedThenFails_secondMark : State.Settled state_BadDataIsRetriedThenFails_secondMark ∧ State.part
    state_BadDataIsRetriedThenFails_secondMark = .running ∧ (State.unit state_BadDataIsRetriedThenFails_secondMark 1).state ≠ .detached ∧ (State.unit
    state_BadDataIsRetriedThenFails_secondMark 1).op = some op_BadDataIsRetriedThenFails_secondMark ∧ (State.unit
    state_BadDataIsRetriedThenFails_secondMark 1).seq = .transferring ∧ op_BadDataIsRetriedThenFails_secondMark.subject = .fill 1679 ∧ (State.unit
    state_BadDataIsRetriedThenFails_secondMark 1).retries = some 2 ∧ ¬ ((5 : BitVec 16).toNat = op_BadDataIsRetriedThenFails_secondMark.track ∧ (0 :
    Byte).toNat = op_BadDataIsRetriedThenFails_secondMark.surface ∧ op_BadDataIsRetriedThenFails_secondMark.sector = some (3 : Byte).toNat ∧ (3 :
    Byte) = 3) ∧ op_BadDataIsRetriedThenFails_secondMark.field ≠ none ∧ op_BadDataIsRetriedThenFails_secondMark.attempts + 1 ≤ 2 := ⟨rfl, by decide⟩
theorem witness_BadDataIsRetriedThenFails_headerCuts : State.Settled state_BadDataIsRetriedThenFails_secondMark ∧ State.part
    state_BadDataIsRetriedThenFails_secondMark = .running ∧ (State.unit state_BadDataIsRetriedThenFails_secondMark 1).state ≠ .detached ∧ (State.unit
    state_BadDataIsRetriedThenFails_secondMark 1).op = some op_BadDataIsRetriedThenFails_secondMark ∧ (State.unit
    state_BadDataIsRetriedThenFails_secondMark 1).seq = .transferring ∧ op_BadDataIsRetriedThenFails_secondMark.subject = .fill 1679 ∧ (State.unit
    state_BadDataIsRetriedThenFails_secondMark 1).retries = some 2 ∧ ¬ ((5 : BitVec 16).toNat = op_BadDataIsRetriedThenFails_secondMark.track ∧ (0 :
    Byte).toNat = op_BadDataIsRetriedThenFails_secondMark.surface ∧ op_BadDataIsRetriedThenFails_secondMark.sector = some (3 : Byte).toNat ∧ (3 :
    Byte) = 3) ∧ op_BadDataIsRetriedThenFails_secondMark.field ≠ none ∧ op_BadDataIsRetriedThenFails_secondMark.attempts + 1 ≤ 2 := ⟨rfl, by decide⟩
theorem witness_BadDataIsRetriedThenFails_indexCuts : State.Settled state_BadDataIsRetriedThenFails_secondMark ∧ State.part
    state_BadDataIsRetriedThenFails_secondMark = .running ∧ (State.unit state_BadDataIsRetriedThenFails_secondMark 1).state ≠ .detached ∧ (State.unit
    state_BadDataIsRetriedThenFails_secondMark 1).op = some op_BadDataIsRetriedThenFails_secondMark ∧ (State.unit
    state_BadDataIsRetriedThenFails_secondMark 1).seq = .transferring ∧ op_BadDataIsRetriedThenFails_secondMark.subject = .fill 1679 ∧ (State.unit
    state_BadDataIsRetriedThenFails_secondMark 1).retries = some 2 ∧ ¬ ((5 : BitVec 16).toNat = op_BadDataIsRetriedThenFails_secondMark.track ∧ (0 :
    Byte).toNat = op_BadDataIsRetriedThenFails_secondMark.surface ∧ op_BadDataIsRetriedThenFails_secondMark.sector = some (3 : Byte).toNat ∧ (3 :
    Byte) = 3) ∧ op_BadDataIsRetriedThenFails_secondMark.field ≠ none ∧ op_BadDataIsRetriedThenFails_secondMark.indexCount = 2 ∧
    op_BadDataIsRetriedThenFails_secondMark.attempts + 1 ≤ 2 := ⟨rfl, by decide⟩
def op_BadDataIsRetriedThenFails_indexCounted : Operation := { working (.fill 1679) with field := some ⟨.data, 9, 5⟩, indexCount := 1 }
def state_BadDataIsRetriedThenFails_indexCounted : State := holding (busy (withLine small { clean with state := .filling, waitList := [7] })
    .transferring op_BadDataIsRetriedThenFails_indexCounted) request_BadDataIsRetriedThenFails_fails
theorem witness_BadDataIsRetriedThenFails_indexCounted : State.Settled state_BadDataIsRetriedThenFails_indexCounted ∧ State.part
    state_BadDataIsRetriedThenFails_indexCounted = .running ∧ (State.unit state_BadDataIsRetriedThenFails_indexCounted 1).state ≠ .detached ∧
    (State.unit state_BadDataIsRetriedThenFails_indexCounted 1).op = some op_BadDataIsRetriedThenFails_indexCounted ∧ (State.unit
    state_BadDataIsRetriedThenFails_indexCounted 1).seq = .transferring ∧ op_BadDataIsRetriedThenFails_indexCounted.subject = .fill 1679 ∧ (State.unit
    state_BadDataIsRetriedThenFails_indexCounted 1).retries = some 2 ∧ ¬ ((5 : BitVec 16).toNat = op_BadDataIsRetriedThenFails_indexCounted.track ∧ (0
    : Byte).toNat = op_BadDataIsRetriedThenFails_indexCounted.surface ∧ op_BadDataIsRetriedThenFails_indexCounted.sector = some (3 : Byte).toNat ∧ (3
    : Byte) = 3) ∧ op_BadDataIsRetriedThenFails_indexCounted.indexCount < 2 := ⟨rfl, by decide⟩
def op_BadDataIsRetriedThenFails_headerGoesOn : Operation := { working (.fill 1679) with indexCount := 2 }
def state_BadDataIsRetriedThenFails_headerGoesOn : State := holding (busy (withLine small { clean with state := .filling, waitList := [7] })
    .transferring op_BadDataIsRetriedThenFails_headerGoesOn) request_BadDataIsRetriedThenFails_fails
theorem witness_BadDataIsRetriedThenFails_headerGoesOn : State.Settled state_BadDataIsRetriedThenFails_headerGoesOn ∧ State.part
    state_BadDataIsRetriedThenFails_headerGoesOn = .running ∧ (State.unit state_BadDataIsRetriedThenFails_headerGoesOn 1).state ≠ .detached ∧
    (State.unit state_BadDataIsRetriedThenFails_headerGoesOn 1).op = some op_BadDataIsRetriedThenFails_headerGoesOn ∧ (State.unit
    state_BadDataIsRetriedThenFails_headerGoesOn 1).seq = .transferring ∧ op_BadDataIsRetriedThenFails_headerGoesOn.subject = .fill 1679 ∧ (State.unit
    state_BadDataIsRetriedThenFails_headerGoesOn 1).retries = some 2 ∧ ¬ ((5 : BitVec 16).toNat = op_BadDataIsRetriedThenFails_headerGoesOn.track ∧ (0
    : Byte).toNat = op_BadDataIsRetriedThenFails_headerGoesOn.surface ∧ op_BadDataIsRetriedThenFails_headerGoesOn.sector = some (3 : Byte).toNat ∧ (3
    : Byte) = 3) ∧ op_BadDataIsRetriedThenFails_headerGoesOn.field = none ∧ op_BadDataIsRetriedThenFails_headerGoesOn.indexCount < 3 :=
    ⟨rfl, by decide⟩
theorem witness_BadDataIsRetriedThenFails_indexEnds : State.Settled state_BadDataIsRetriedThenFails_headerGoesOn ∧ (State.unit
    state_BadDataIsRetriedThenFails_headerGoesOn 1).workless ∧ (State.unit state_BadDataIsRetriedThenFails_headerGoesOn 1).unwaited ∧ State.Completes
    state_BadDataIsRetriedThenFails_headerGoesOn 7 request_BadDataIsRetriedThenFails_fails ∧ State.part state_BadDataIsRetriedThenFails_headerGoesOn =
    .running ∧ (State.unit state_BadDataIsRetriedThenFails_headerGoesOn 1).state ≠ .detached ∧ (State.unit
    state_BadDataIsRetriedThenFails_headerGoesOn 1).op = some op_BadDataIsRetriedThenFails_headerGoesOn ∧ (State.unit
    state_BadDataIsRetriedThenFails_headerGoesOn 1).seq = .transferring ∧ op_BadDataIsRetriedThenFails_headerGoesOn.subject = .fill 1679 ∧ (State.unit
    state_BadDataIsRetriedThenFails_headerGoesOn 1).retries = some 2 ∧ ¬ ((5 : BitVec 16).toNat = op_BadDataIsRetriedThenFails_headerGoesOn.track ∧ (0
    : Byte).toNat = op_BadDataIsRetriedThenFails_headerGoesOn.surface ∧ op_BadDataIsRetriedThenFails_headerGoesOn.sector = some (3 : Byte).toNat ∧ (3
    : Byte) = 3) ∧ op_BadDataIsRetriedThenFails_headerGoesOn.field = none ∧ op_BadDataIsRetriedThenFails_headerGoesOn.indexCount = 2 ∧ (State.unit
    state_BadDataIsRetriedThenFails_headerGoesOn 1).writeGate = false ∧ (State.line state_BadDataIsRetriedThenFails_headerGoesOn 1679).state =
    .filling ∧ State.slotWait state_BadDataIsRetriedThenFails_headerGoesOn = [] ∧ State.waiters state_BadDataIsRetriedThenFails_headerGoesOn (1679 /
    4) = [] ∧ (State.line state_BadDataIsRetriedThenFails_headerGoesOn 1679).waitList = [7] ∧ request_BadDataIsRetriedThenFails_fails.kind = some
    .read := ⟨rfl, ⟨rfl, rfl, rfl⟩, ⟨rfl, rfl⟩, completes_of (by decide), by decide⟩
def op_IndexPassesAreCounted_counted : Operation := { working (.fill 1679) with indexCount := 1 }
def state_IndexPassesAreCounted_counted : State := holding (busy (withLine small { clean with state := .filling, waitList := [7] }) .verifying
    op_IndexPassesAreCounted_counted) request_BadDataIsRetriedThenFails_fails
theorem witness_IndexPassesAreCounted_counted : State.Settled state_IndexPassesAreCounted_counted ∧ State.part state_IndexPassesAreCounted_counted =
    .running ∧ (State.unit state_IndexPassesAreCounted_counted 1).state ≠ .detached ∧ (State.unit state_IndexPassesAreCounted_counted 1).op = some
    op_IndexPassesAreCounted_counted ∧ op_IndexPassesAreCounted_counted.field = none ∧ ((State.unit state_IndexPassesAreCounted_counted 1).seq =
    .verifying ∨ (State.unit state_IndexPassesAreCounted_counted 1).seq = .searching) ∧ op_IndexPassesAreCounted_counted.indexCount < 2 :=
    ⟨rfl, by decide⟩
def state_IndexPassesAreCounted_limit : State := holding (busy (withLine small { clean with state := .filling, waitList := [7] }) .searching
    op_BadDataIsRetriedThenFails_headerGoesOn) request_BadDataIsRetriedThenFails_fails
theorem witness_IndexPassesAreCounted_limit : State.Settled state_IndexPassesAreCounted_limit ∧ (State.unit state_IndexPassesAreCounted_limit
    1).workless ∧ (State.unit state_IndexPassesAreCounted_limit 1).unwaited ∧ State.Completes state_IndexPassesAreCounted_limit 7
    request_BadDataIsRetriedThenFails_fails ∧ State.part state_IndexPassesAreCounted_limit = .running ∧ (State.unit state_IndexPassesAreCounted_limit
    1).state ≠ .detached ∧ (State.unit state_IndexPassesAreCounted_limit 1).op = some op_BadDataIsRetriedThenFails_headerGoesOn ∧
    op_BadDataIsRetriedThenFails_headerGoesOn.field = none ∧ (State.unit state_IndexPassesAreCounted_limit 1).seq = .searching ∧
    op_BadDataIsRetriedThenFails_headerGoesOn.indexCount = 2 ∧ op_BadDataIsRetriedThenFails_headerGoesOn.subject = .fill 1679 ∧ (State.unit
    state_IndexPassesAreCounted_limit 1).writeGate = false ∧ (State.line state_IndexPassesAreCounted_limit 1679).state = .filling ∧ State.slotWait
    state_IndexPassesAreCounted_limit = [] ∧ State.waiters state_IndexPassesAreCounted_limit (1679 / 4) = [] ∧ (State.line
    state_IndexPassesAreCounted_limit 1679).waitList = [7] ∧ request_BadDataIsRetriedThenFails_fails.kind = some .read :=
    ⟨rfl, ⟨rfl, rfl, rfl⟩, ⟨rfl, rfl⟩, completes_of (by decide), by decide⟩
def state_IndexPassesAreCounted_surveyBegins : State := holding (busy (withLine small { clean with state := .filling, waitList := [7] }) .surveying
    (working (.survey 7))) request_SeekErrorEndsTheOperation_survey
theorem witness_IndexPassesAreCounted_surveyBegins : State.Settled state_IndexPassesAreCounted_surveyBegins ∧ State.part
    state_IndexPassesAreCounted_surveyBegins = .running ∧ (State.unit state_IndexPassesAreCounted_surveyBegins 1).state ≠ .detached ∧ (State.unit
    state_IndexPassesAreCounted_surveyBegins 1).op = some (working (.survey 7)) ∧ (working (.survey 7)).field = none ∧ (State.unit
    state_IndexPassesAreCounted_surveyBegins 1).seq = .surveying ∧ (working (.survey 7)).subject = .survey 7 ∧ (working (.survey 7)).recording = false
    := ⟨rfl, by decide⟩
def op_IndexPassesAreCounted_surveyEnds : Operation := { working (.survey 7) with recording := true }
def state_IndexPassesAreCounted_surveyEnds : State := holding (busy (withLine small { clean with state := .filling, waitList := [7] }) .surveying
    op_IndexPassesAreCounted_surveyEnds) request_SeekErrorEndsTheOperation_survey
theorem witness_IndexPassesAreCounted_surveyEnds : State.Settled state_IndexPassesAreCounted_surveyEnds ∧ (State.unit
    state_IndexPassesAreCounted_surveyEnds 1).workless ∧ (State.unit state_IndexPassesAreCounted_surveyEnds 1).unwaited ∧ State.part
    state_IndexPassesAreCounted_surveyEnds = .running ∧ (State.unit state_IndexPassesAreCounted_surveyEnds 1).state ≠ .detached ∧ (State.unit
    state_IndexPassesAreCounted_surveyEnds 1).op = some op_IndexPassesAreCounted_surveyEnds ∧ op_IndexPassesAreCounted_surveyEnds.field = none ∧
    (State.unit state_IndexPassesAreCounted_surveyEnds 1).seq = .surveying ∧ op_IndexPassesAreCounted_surveyEnds.subject = .survey 7 ∧
    op_IndexPassesAreCounted_surveyEnds.recording = true ∧ State.request state_IndexPassesAreCounted_surveyEnds 7 = some
    request_SeekErrorEndsTheOperation_survey ∧ (State.unit state_IndexPassesAreCounted_surveyEnds 1).writeGate = false :=
    ⟨rfl, ⟨rfl, rfl, rfl⟩, ⟨rfl, rfl⟩, by decide⟩
def op_SurveyRecordsHeaders_recorded : Operation :=
    { working (.survey 7) with recording := true, entries := List.replicate 63 ⟨0, 0, 0, 0, 0, false, false⟩ }
def state_SurveyRecordsHeaders_recorded : State := busy small .surveying op_SurveyRecordsHeaders_recorded
theorem witness_SurveyRecordsHeaders_recorded : State.Settled state_SurveyRecordsHeaders_recorded ∧ State.part state_SurveyRecordsHeaders_recorded ≠
    .failed ∧ (State.unit state_SurveyRecordsHeaders_recorded 1).state ≠ .detached ∧ (State.unit state_SurveyRecordsHeaders_recorded 1).op = some
    op_SurveyRecordsHeaders_recorded ∧ (State.unit state_SurveyRecordsHeaders_recorded 1).seq = .surveying ∧ op_SurveyRecordsHeaders_recorded.subject
    = .survey 7 ∧ op_SurveyRecordsHeaders_recorded.recording = true ∧ op_SurveyRecordsHeaders_recorded.entries.length < 64 := ⟨rfl, by decide⟩
def op_SurveyRecordsHeaders_overflow : Operation :=
    { working (.survey 7) with recording := true, entries := List.replicate 64 ⟨0, 0, 0, 0, 0, false, false⟩ }
def state_SurveyRecordsHeaders_overflow : State := busy small .surveying op_SurveyRecordsHeaders_overflow
theorem witness_SurveyRecordsHeaders_overflow : State.Settled state_SurveyRecordsHeaders_overflow ∧ State.part state_SurveyRecordsHeaders_overflow ≠
    .failed ∧ (State.unit state_SurveyRecordsHeaders_overflow 1).state ≠ .detached ∧ (State.unit state_SurveyRecordsHeaders_overflow 1).op = some
    op_SurveyRecordsHeaders_overflow ∧ (State.unit state_SurveyRecordsHeaders_overflow 1).seq = .surveying ∧ op_SurveyRecordsHeaders_overflow.subject
    = .survey 7 ∧ op_SurveyRecordsHeaders_overflow.recording = true ∧ 64 ≤ op_SurveyRecordsHeaders_overflow.entries.length := ⟨rfl, by decide⟩
def state_FlushEndsByTheUnitsAnswer_done : State := withLine (withUnit small (fun x =>
    { x with seq := .transferring, writeGate := true, op := some (working (.flush 1679)) }))
    { clean with state := .flushing, flushSource := some 0, dirtyEpoch := some 1, failures := 2 }
theorem witness_FlushEndsByTheUnitsAnswer_done : State.Settled state_FlushEndsByTheUnitsAnswer_done ∧ (State.unit state_FlushEndsByTheUnitsAnswer_done
    1).workless ∧ (State.unit state_FlushEndsByTheUnitsAnswer_done 1).unwaited ∧ State.part state_FlushEndsByTheUnitsAnswer_done = .running ∧
    (State.unit state_FlushEndsByTheUnitsAnswer_done 1).state ≠ .detached ∧ (State.unit state_FlushEndsByTheUnitsAnswer_done 1).op = some (working
    (.flush 1679)) ∧ (State.unit state_FlushEndsByTheUnitsAnswer_done 1).seq = .transferring ∧ (working (.flush 1679)).subject = .flush 1679 ∧
    (State.unit state_FlushEndsByTheUnitsAnswer_done 1).barriers = [] ∧ (State.unit state_FlushEndsByTheUnitsAnswer_done 1).writeGate = true ∧
    (State.line state_FlushEndsByTheUnitsAnswer_done 1679).state = .flushing ∧ (State.line state_FlushEndsByTheUnitsAnswer_done 1679).key = some key ∧
    key.unit = 1 ∧ (State.line state_FlushEndsByTheUnitsAnswer_done 1679).flushSource = some 0 ∧ State.slotWait state_FlushEndsByTheUnitsAnswer_done =
    [] ∧ State.waiters state_FlushEndsByTheUnitsAnswer_done (1679 / 4) = [] ∧ State.params state_FlushEndsByTheUnitsAnswer_done = some
    ⟨500, 2000, 100, 50⟩ := ⟨rfl, ⟨rfl, rfl, rfl⟩, ⟨rfl, rfl⟩, by decide⟩
theorem witness_FlushEndsByTheUnitsAnswer_fault : State.Settled state_FlushEndsByTheUnitsAnswer_done ∧ (State.unit
    state_FlushEndsByTheUnitsAnswer_done 1).workless ∧ (State.unit state_FlushEndsByTheUnitsAnswer_done 1).unwaited ∧ State.part
    state_FlushEndsByTheUnitsAnswer_done = .running ∧ (State.unit state_FlushEndsByTheUnitsAnswer_done 1).state ≠ .detached ∧ (State.unit
    state_FlushEndsByTheUnitsAnswer_done 1).op = some (working (.flush 1679)) ∧ (State.unit state_FlushEndsByTheUnitsAnswer_done 1).seq =
    .transferring ∧ (working (.flush 1679)).subject = .flush 1679 ∧ (State.unit state_FlushEndsByTheUnitsAnswer_done 1).barriers = [] ∧ (State.unit
    state_FlushEndsByTheUnitsAnswer_done 1).writeGate = true ∧ (State.line state_FlushEndsByTheUnitsAnswer_done 1679).state = .flushing ∧ (State.line
    state_FlushEndsByTheUnitsAnswer_done 1679).key = some key ∧ key.unit = 1 ∧ (State.line state_FlushEndsByTheUnitsAnswer_done 1679).flushSource =
    some 0 ∧ State.slotWait state_FlushEndsByTheUnitsAnswer_done = [] ∧ State.waiters state_FlushEndsByTheUnitsAnswer_done (1679 / 4) = [] ∧
    State.params state_FlushEndsByTheUnitsAnswer_done = some ⟨500, 2000, 100, 50⟩ ∧ (State.line state_FlushEndsByTheUnitsAnswer_done 1679).failures =
    2 ∧ (State.channel state_FlushEndsByTheUnitsAnswer_done 0).state = .open ∧ (State.channel state_FlushEndsByTheUnitsAnswer_done 0).backlog.length <
    32 := ⟨rfl, ⟨rfl, rfl, rfl⟩, ⟨rfl, rfl⟩, by decide⟩
def request_FlushEndsByTheUnitsAnswer_flushed : Request := asked 1 (flushRecord 5 1) (.parked .barrierList)
def state_FlushEndsByTheUnitsAnswer_flushed : State :=
    { holding (withUnit small (fun x => { x with seq := .transferring, writeGate := true, op := some (working (.flush 1679)), barriers := [⟨7, 6⟩] })) request_FlushEndsByTheUnitsAnswer_flushed with lines := [(1679, { clean with state := .flushing, flushSource := some 0, dirtyEpoch := some 1 })], refs := [(0, 2)] }
theorem witness_FlushEndsByTheUnitsAnswer_flushed : (State.unit state_FlushEndsByTheUnitsAnswer_flushed 1).workless ∧ (State.unit
    state_FlushEndsByTheUnitsAnswer_flushed 1).unwaited ∧ State.Completes state_FlushEndsByTheUnitsAnswer_flushed 7
    request_FlushEndsByTheUnitsAnswer_flushed ∧ State.part state_FlushEndsByTheUnitsAnswer_flushed = .running ∧ (State.unit
    state_FlushEndsByTheUnitsAnswer_flushed 1).state ≠ .detached ∧ (State.unit state_FlushEndsByTheUnitsAnswer_flushed 1).op = some (working (.flush
    1679)) ∧ (State.unit state_FlushEndsByTheUnitsAnswer_flushed 1).seq = .transferring ∧ (working (.flush 1679)).subject = .flush 1679 ∧ (State.unit
    state_FlushEndsByTheUnitsAnswer_flushed 1).barriers = [⟨7, 6⟩] ∧ request_FlushEndsByTheUnitsAnswer_flushed.place = .parked .barrierList ∧
    (State.line state_FlushEndsByTheUnitsAnswer_flushed 1679).state = .flushing ∧ (State.line state_FlushEndsByTheUnitsAnswer_flushed 1679).key = some
    key ∧ key.unit = 1 ∧ (State.line state_FlushEndsByTheUnitsAnswer_flushed 1679).flushSource = some 0 ∧ State.slotWait
    state_FlushEndsByTheUnitsAnswer_flushed = [] ∧ State.waiters state_FlushEndsByTheUnitsAnswer_flushed (1679 / 4) = [] ∧ SMap.wf {} (State.lines
    state_FlushEndsByTheUnitsAnswer_flushed) = true ∧ (∀ p ∈ State.lines state_FlushEndsByTheUnitsAnswer_flushed, p.1 ≠ 1679 → p.2.ofUnit 1 = true →
    p.2.state ≠ .dirty ∧ p.2.state ≠ .flushing ∧ p.2.state ≠ .reflush) := ⟨⟨rfl, rfl, rfl⟩, ⟨rfl, rfl⟩, completes_of (by decide), by decide⟩
def state_FlushEndsByTheUnitsAnswer_incomplete : State :=
    { holding (withUnit small (fun x => { x with seq := .transferring, writeGate := true, op := some (working (.flush 1679)), barriers := [⟨7, 6⟩] })) request_FlushEndsByTheUnitsAnswer_flushed with lines := [(4, { clean with state := .stranded, dirtyEpoch := some 6, failures := 3 }), (8, { clean with state := .stranded, dirtyEpoch := some 7, failures := 3 }), (1679, { clean with state := .flushing, flushSource := some 0, dirtyEpoch := some 1 })], refs := [(0, 2)] }
theorem witness_FlushEndsByTheUnitsAnswer_incomplete : (State.unit state_FlushEndsByTheUnitsAnswer_incomplete 1).workless ∧ (State.unit
    state_FlushEndsByTheUnitsAnswer_incomplete 1).unwaited ∧ State.Completes state_FlushEndsByTheUnitsAnswer_incomplete 7
    request_FlushEndsByTheUnitsAnswer_flushed ∧ State.part state_FlushEndsByTheUnitsAnswer_incomplete = .running ∧ (State.unit
    state_FlushEndsByTheUnitsAnswer_incomplete 1).state ≠ .detached ∧ (State.unit state_FlushEndsByTheUnitsAnswer_incomplete 1).op = some (working
    (.flush 1679)) ∧ (State.unit state_FlushEndsByTheUnitsAnswer_incomplete 1).seq = .transferring ∧ (working (.flush 1679)).subject = .flush 1679 ∧
    (State.unit state_FlushEndsByTheUnitsAnswer_incomplete 1).barriers = [⟨7, 6⟩] ∧ request_FlushEndsByTheUnitsAnswer_flushed.place = .parked
    .barrierList ∧ (State.line state_FlushEndsByTheUnitsAnswer_incomplete 1679).state = .flushing ∧ (State.line
    state_FlushEndsByTheUnitsAnswer_incomplete 1679).key = some key ∧ key.unit = 1 ∧ (State.line state_FlushEndsByTheUnitsAnswer_incomplete
    1679).flushSource = some 0 ∧ State.slotWait state_FlushEndsByTheUnitsAnswer_incomplete = [] ∧ State.waiters
    state_FlushEndsByTheUnitsAnswer_incomplete (1679 / 4) = [] ∧ SMap.wf {} (State.lines state_FlushEndsByTheUnitsAnswer_incomplete) = true ∧ (∀ p ∈
    State.lines state_FlushEndsByTheUnitsAnswer_incomplete, p.1 ≠ 1679 → p.2.ofUnit 1 = true → p.2.state ≠ .dirty ∧ p.2.state ≠ .flushing ∧ p.2.state
    ≠ .reflush) := ⟨⟨rfl, rfl, rfl⟩, ⟨rfl, rfl⟩, completes_of (by decide), by decide⟩
def state_FlushEndsByTheUnitsAnswer_delayed : State := holding (withLine (withUnit small (fun x => { x with barriers := [⟨7, 6⟩, ⟨8, 7⟩] }))
    { clean with state := .dirty, dirtyEpoch := some 6 }) request_FlushEndsByTheUnitsAnswer_flushed
theorem witness_FlushEndsByTheUnitsAnswer_delayed : State.Completes state_FlushEndsByTheUnitsAnswer_delayed 7
    request_FlushEndsByTheUnitsAnswer_flushed ∧ (∃ p ∈ State.lines state_FlushEndsByTheUnitsAnswer_delayed, ∃ key d, p.2.key = some key ∧ key.unit = 1
    ∧ EpochAtMost d 6 ∧ ((p.2.state = .dirty ∨ p.2.state = .flushing ∨ p.2.state = .reflush) ∧ p.2.dirtyEpoch = some d ∨ p.2.state = .reflush ∧
    p.2.sourceEpoch = some d)) ∧ (State.unit state_FlushEndsByTheUnitsAnswer_delayed 1).barriers = ⟨7, 6⟩ :: [⟨8, 7⟩] :=
    ⟨completes_of (by decide), ⟨_, List.mem_singleton.mpr rfl, key, 6, rfl, rfl, by decide, by decide⟩, by decide⟩
def state_FlushEndsByTheUnitsAnswer_delayedBySource : State := holding (withLine (withUnit small (fun x => { x with barriers := [⟨7, 6⟩, ⟨8, 7⟩] }))
    { clean with state := .reflush, dirtyEpoch := some 7, sourceEpoch := some 6, currentSlot := some 1, flushSource := some 0 })
    request_FlushEndsByTheUnitsAnswer_flushed
theorem witness_FlushEndsByTheUnitsAnswer_delayedBySource : State.Completes state_FlushEndsByTheUnitsAnswer_delayedBySource 7
    request_FlushEndsByTheUnitsAnswer_flushed ∧ (∃ p ∈ State.lines state_FlushEndsByTheUnitsAnswer_delayedBySource, ∃ key d, p.2.key = some key ∧
    key.unit = 1 ∧ EpochAtMost d 6 ∧ ((p.2.state = .dirty ∨ p.2.state = .flushing ∨ p.2.state = .reflush) ∧ p.2.dirtyEpoch = some d ∨ p.2.state =
    .reflush ∧ p.2.sourceEpoch = some d)) ∧ (State.unit state_FlushEndsByTheUnitsAnswer_delayedBySource 1).barriers = ⟨7, 6⟩ :: [⟨8, 7⟩] :=
    ⟨completes_of (by decide), ⟨_, List.mem_singleton.mpr rfl, key, 6, rfl, rfl, by decide, by decide⟩, by decide⟩
def state_FlushEndsByTheUnitsAnswer_retested : State := holding (withLine (withUnit small (fun x => { x with barriers := [⟨7, 6⟩, ⟨8, 7⟩] }))
    { clean with state := .dirty, dirtyEpoch := some 7 }) request_FlushEndsByTheUnitsAnswer_flushed
theorem witness_FlushEndsByTheUnitsAnswer_retested : State.Completes state_FlushEndsByTheUnitsAnswer_retested 7
    request_FlushEndsByTheUnitsAnswer_flushed ∧ ¬ (∃ p ∈ State.lines state_FlushEndsByTheUnitsAnswer_retested, ∃ key d, p.2.key = some key ∧ key.unit
    = 1 ∧ EpochAtMost d 6 ∧ ((p.2.state = .dirty ∨ p.2.state = .flushing ∨ p.2.state = .reflush) ∧ p.2.dirtyEpoch = some d ∨ p.2.state = .reflush ∧
    p.2.sourceEpoch = some d)) ∧ (State.unit state_FlushEndsByTheUnitsAnswer_retested 1).barriers = ⟨7, 6⟩ :: [⟨8, 7⟩] :=
    ⟨completes_of (by decide), (fun ⟨p, hp, key, d, hk, hu, he, h⟩ => by
      obtain rfl := List.mem_singleton.mp hp
      rcases h with ⟨_, h⟩ | ⟨h, _⟩
      · exact absurd (Option.some.inj h ▸ he) (by decide)
      · cases h), by decide⟩
theorem witness_FlushEndsByTheUnitsAnswer_noBarrier : (State.unit small 1).barriers = [] := by decide
def state_FlushEndsByTheUnitsAnswer_success : State :=
    { withLine small { clean with state := .reflush, currentSlot := some 1, flushSource := some 0, dirtyEpoch := some 2, sourceEpoch := some 1, failures := 2 } with refs := [(0, 2), (1, 1)] }
theorem witness_FlushEndsByTheUnitsAnswer_success : ((State.line state_FlushEndsByTheUnitsAnswer_success 1679).state = .flushing ∨ (State.line
    state_FlushEndsByTheUnitsAnswer_success 1679).state = .reflush) ∧ State.slotWait state_FlushEndsByTheUnitsAnswer_success = [] ∧ (State.line
    state_FlushEndsByTheUnitsAnswer_success 1679).flushSource = some 0 ∧ Status.success = .success := by decide
def state_FlushEndsByTheUnitsAnswer_protected : State :=
    { withLine small { clean with state := .flushing, currentSlot := some 1, flushSource := some 0, dirtyEpoch := some 2, sourceEpoch := some 1, failures := 0 } with refs := [(0, 2), (1, 1)] }
theorem witness_FlushEndsByTheUnitsAnswer_protected : ((State.line state_FlushEndsByTheUnitsAnswer_protected 1679).state = .flushing ∨ (State.line
    state_FlushEndsByTheUnitsAnswer_protected 1679).state = .reflush) ∧ State.slotWait state_FlushEndsByTheUnitsAnswer_protected = [] ∧ (State.line
    state_FlushEndsByTheUnitsAnswer_protected 1679).flushSource = some 0 ∧ Status.writeProtected = .writeProtected := by decide
theorem witness_FlushEndsByTheUnitsAnswer_unready : ((State.line state_FlushEndsByTheUnitsAnswer_success 1679).state = .flushing ∨ (State.line
    state_FlushEndsByTheUnitsAnswer_success 1679).state = .reflush) ∧ State.slotWait state_FlushEndsByTheUnitsAnswer_success = [] ∧ (State.line
    state_FlushEndsByTheUnitsAnswer_success 1679).flushSource = some 0 ∧ Status.unitNotReady = .unitNotReady := by decide
def state_FlushEndsByTheUnitsAnswer_counted : State :=
    { withLine small { clean with state := .reflush, currentSlot := some 1, flushSource := some 0, dirtyEpoch := some 2, sourceEpoch := some 1, failures := 1 } with refs := [(0, 2), (1, 1)] }
theorem witness_FlushEndsByTheUnitsAnswer_counted : ((State.line state_FlushEndsByTheUnitsAnswer_counted 1679).state = .flushing ∨ (State.line
    state_FlushEndsByTheUnitsAnswer_counted 1679).state = .reflush) ∧ State.slotWait state_FlushEndsByTheUnitsAnswer_counted = [] ∧ (State.line
    state_FlushEndsByTheUnitsAnswer_counted 1679).flushSource = some 0 ∧ Status.writeFault ≠ .success ∧ Status.writeFault ≠ .writeProtected ∧
    Status.writeFault ≠ .unitNotReady := by decide
theorem witness_FlushEndsByTheUnitsAnswer_third : ((State.line state_FlushEndsByTheUnitsAnswer_success 1679).state = .flushing ∨ (State.line
    state_FlushEndsByTheUnitsAnswer_success 1679).state = .reflush) ∧ State.slotWait state_FlushEndsByTheUnitsAnswer_success = [] ∧ (State.line
    state_FlushEndsByTheUnitsAnswer_success 1679).flushSource = some 0 ∧ Status.seekError ≠ .success ∧ Status.seekError ≠ .writeProtected ∧
    Status.seekError ≠ .unitNotReady := by decide
theorem witness_ReadyLineMovesTheUnit_riseRecorded : State.Settled small ∧ State.part small = .running ∧ 3 < 4 ∧ (State.channel small 0).state = .open
    ∧ (State.channel small 0).backlog.length < 32 ∧ (State.unit small 3).state ≠ .notReady := ⟨rfl, by decide⟩
def state_ReadyLineMovesTheUnit_rise : State := withUnit small (fun x => { x with state := .notReady })
theorem witness_ReadyLineMovesTheUnit_rise : State.Settled state_ReadyLineMovesTheUnit_rise ∧ (State.unit state_ReadyLineMovesTheUnit_rise 1).workless
    ∧ State.part state_ReadyLineMovesTheUnit_rise = .running ∧ 1 < 4 ∧ (State.channel state_ReadyLineMovesTheUnit_rise 0).state = .open ∧
    (State.channel state_ReadyLineMovesTheUnit_rise 0).backlog.length < 32 ∧ (State.unit state_ReadyLineMovesTheUnit_rise 1).state = .notReady :=
    ⟨rfl, ⟨rfl, rfl, rfl⟩, by decide⟩
theorem witness_ReadyLineMovesTheUnit_fallRecorded : State.Settled state_ReadyLineMovesTheUnit_rise ∧ State.part state_ReadyLineMovesTheUnit_rise =
    .running ∧ 1 < 4 ∧ (State.channel state_ReadyLineMovesTheUnit_rise 0).state = .open ∧ (State.channel state_ReadyLineMovesTheUnit_rise
    0).backlog.length < 32 ∧ (State.unit state_ReadyLineMovesTheUnit_rise 1).state ≠ .ready := ⟨rfl, by decide⟩
theorem witness_ReadyLineMovesTheUnit_fall : State.Settled small ∧ (State.unit small 1).workless ∧ State.part small = .running ∧ 1 < 4 ∧
    (State.channel small 0).state = .open ∧ (State.channel small 0).backlog.length < 32 ∧ (State.unit small 1).state = .ready ∧ (State.unit small
    1).op = none := ⟨rfl, ⟨rfl, rfl, rfl⟩, by decide⟩
def request_ReadyLineMovesTheUnit_fallInFilla : Request := asked 3 (surveyRecord 5 1 0 5 0x4000) (.parked .surveyQueue)
def request_ReadyLineMovesTheUnit_fallInFill : Request := { asked 2 (readRecord 0x23 false 1 0 5 3 0x8000) (.parked .lineWait) with line := some 3 }
def state_ReadyLineMovesTheUnit_fallInFill : State :=
    { withUnit small (fun x => { x with op := some (working (.fill 1679)), seq := .searching, fillQueue := [3], surveyQueue := [9] }) with lines := [(3, { clean with state := .filling, key := some ⟨1, 0, 5, 3⟩, currentSlot := some 1, waitList := [8] }), (1679, { clean with state := .filling, waitList := [7] })], refs := [(0, 1), (1, 1)], table := [(7, some request_BadDataIsRetriedThenFails_fails), (8, some request_ReadyLineMovesTheUnit_fallInFill), (9, some request_ReadyLineMovesTheUnit_fallInFilla)] }
theorem witness_ReadyLineMovesTheUnit_fallInFill : State.Settled state_ReadyLineMovesTheUnit_fallInFill ∧ (State.unit
    state_ReadyLineMovesTheUnit_fallInFill 1).unwaited ∧ State.Completes state_ReadyLineMovesTheUnit_fallInFill 7
    request_BadDataIsRetriedThenFails_fails ∧ State.Completes state_ReadyLineMovesTheUnit_fallInFill 8 request_ReadyLineMovesTheUnit_fallInFill ∧
    State.Completes state_ReadyLineMovesTheUnit_fallInFill 9 request_ReadyLineMovesTheUnit_fallInFilla ∧ State.part
    state_ReadyLineMovesTheUnit_fallInFill = .running ∧ 1 < 4 ∧ (State.channel state_ReadyLineMovesTheUnit_fallInFill 0).state = .open ∧
    (State.channel state_ReadyLineMovesTheUnit_fallInFill 0).backlog.length < 32 ∧ (State.unit state_ReadyLineMovesTheUnit_fallInFill 1).state =
    .ready ∧ (State.unit state_ReadyLineMovesTheUnit_fallInFill 1).op = some (working (.fill 1679)) ∧ State.slotWait
    state_ReadyLineMovesTheUnit_fallInFill = [] ∧ (working (.fill 1679)).subject = .fill 1679 ∧ (State.unit state_ReadyLineMovesTheUnit_fallInFill
    1).writeGate = false ∧ (State.unit state_ReadyLineMovesTheUnit_fallInFill 1).fillQueue = [3] ∧ (State.unit state_ReadyLineMovesTheUnit_fallInFill
    1).surveyQueue = [9] ∧ 1679 ≠ 3 ∧ [7, 8, 9].Nodup ∧ (State.line state_ReadyLineMovesTheUnit_fallInFill 1679).state = .filling ∧ (State.line
    state_ReadyLineMovesTheUnit_fallInFill 1679).waitList = [7] ∧ (State.line state_ReadyLineMovesTheUnit_fallInFill 3).state = .filling ∧ (State.line
    state_ReadyLineMovesTheUnit_fallInFill 3).waitList = [8] ∧ State.waiters state_ReadyLineMovesTheUnit_fallInFill (1679 / 4) = [] ∧ State.waiters
    state_ReadyLineMovesTheUnit_fallInFill (3 / 4) = [] ∧ request_BadDataIsRetriedThenFails_fails.kind = some .read ∧
    request_ReadyLineMovesTheUnit_fallInFill.kind = some .read ∧ request_ReadyLineMovesTheUnit_fallInFilla.place = .parked .surveyQueue ∧
    request_ReadyLineMovesTheUnit_fallInFilla.record.unit = 1 :=
    ⟨rfl, ⟨rfl, rfl⟩, completes_of (by decide), completes_of (by decide), completes_of (by decide), by decide⟩
def state_ReadyLineMovesTheUnit_fallInFlush : State := withLine (withUnit small (fun x =>
    { x with op := some (working (.flush 1679)), seq := .transferring, writeGate := true }))
    { clean with state := .flushing, flushSource := some 0, dirtyEpoch := some 1, failures := 2 }
theorem witness_ReadyLineMovesTheUnit_fallInFlush : State.Settled state_ReadyLineMovesTheUnit_fallInFlush ∧ (State.unit
    state_ReadyLineMovesTheUnit_fallInFlush 1).unwaited ∧ State.part state_ReadyLineMovesTheUnit_fallInFlush = .running ∧ 1 < 4 ∧ (State.channel
    state_ReadyLineMovesTheUnit_fallInFlush 0).state = .open ∧ (State.channel state_ReadyLineMovesTheUnit_fallInFlush 0).backlog.length < 32 ∧
    (State.unit state_ReadyLineMovesTheUnit_fallInFlush 1).state = .ready ∧ (State.unit state_ReadyLineMovesTheUnit_fallInFlush 1).op = some (working
    (.flush 1679)) ∧ State.slotWait state_ReadyLineMovesTheUnit_fallInFlush = [] ∧ (working (.flush 1679)).subject = .flush 1679 ∧ (State.unit
    state_ReadyLineMovesTheUnit_fallInFlush 1).fillQueue = [] ∧ (State.unit state_ReadyLineMovesTheUnit_fallInFlush 1).surveyQueue = [] ∧ (State.unit
    state_ReadyLineMovesTheUnit_fallInFlush 1).barriers = [] ∧ (State.line state_ReadyLineMovesTheUnit_fallInFlush 1679).state = .flushing ∧
    (State.line state_ReadyLineMovesTheUnit_fallInFlush 1679).key = some key ∧ key.unit = 1 ∧ (State.line state_ReadyLineMovesTheUnit_fallInFlush
    1679).flushSource = some 0 ∧ State.waiters state_ReadyLineMovesTheUnit_fallInFlush (1679 / 4) = [] := ⟨rfl, ⟨rfl, rfl⟩, by decide⟩
theorem witness_ReadyLineMovesTheUnit_fallInSurvey : State.Settled state_SeekErrorEndsTheOperation_survey ∧ (State.unit
    state_SeekErrorEndsTheOperation_survey 1).unwaited ∧ State.Completes state_SeekErrorEndsTheOperation_survey 7
    request_SeekErrorEndsTheOperation_survey ∧ State.part state_SeekErrorEndsTheOperation_survey = .running ∧ 1 < 4 ∧ (State.channel
    state_SeekErrorEndsTheOperation_survey 0).state = .open ∧ (State.channel state_SeekErrorEndsTheOperation_survey 0).backlog.length < 32 ∧
    (State.unit state_SeekErrorEndsTheOperation_survey 1).state = .ready ∧ (State.unit state_SeekErrorEndsTheOperation_survey 1).op = some (working
    (.survey 7)) ∧ State.slotWait state_SeekErrorEndsTheOperation_survey = [] ∧ (working (.survey 7)).subject = .survey 7 ∧ (State.unit
    state_SeekErrorEndsTheOperation_survey 1).writeGate = false ∧ (State.unit state_SeekErrorEndsTheOperation_survey 1).fillQueue = [] ∧ (State.unit
    state_SeekErrorEndsTheOperation_survey 1).surveyQueue = [] := ⟨rfl, ⟨rfl, rfl⟩, completes_of (by decide), by decide⟩
theorem witness_FlushChoiceFollowsTheHead_none : unit1.believed = some 5 ∧ unit1.lastHeader = some 1 ∧ unit1.geometry = some ⟨2000, 2, 16⟩ ∧ ([] :
    List FlushEntry) = [] := by decide
theorem witness_FlushChoiceFollowsTheHead_onTrack : unit1.believed = some 5 ∧ unit1.lastHeader = some 1 ∧ unit1.geometry = some ⟨2000, 2, 16⟩ ∧ (∃ f ∈
    ([⟨0, ⟨1, 0, 5, 1⟩⟩, ⟨0, ⟨1, 0, 5, 0⟩⟩, ⟨0, ⟨1, 0, 6, 9⟩⟩] : List FlushEntry), f.key.track = 5) := by decide
theorem witness_FlushChoiceFollowsTheHead_ahead : unit1.believed = some 5 ∧ unit1.lastHeader = some 1 ∧ unit1.geometry = some ⟨2000, 2, 16⟩ ∧ (∀ f ∈
    ([⟨0, ⟨1, 0, 4, 1⟩⟩, ⟨0, ⟨1, 0, 9, 0⟩⟩, ⟨0, ⟨1, 0, 6, 9⟩⟩] : List FlushEntry), f.key.track ≠ 5) ∧ (∃ f ∈
    ([⟨0, ⟨1, 0, 4, 1⟩⟩, ⟨0, ⟨1, 0, 9, 0⟩⟩, ⟨0, ⟨1, 0, 6, 9⟩⟩] : List FlushEntry), ((unit1.sweep = .up ∧ 5 < f.key.track) ∨ (unit1.sweep = .down ∧
    f.key.track < 5))) := by decide
theorem witness_FlushChoiceFollowsTheHead_behind : unit1.believed = some 5 ∧ unit1.lastHeader = some 1 ∧ unit1.geometry = some ⟨2000, 2, 16⟩ ∧ (∀ f ∈
    ([⟨0, ⟨1, 0, 4, 1⟩⟩, ⟨0, ⟨1, 0, 2, 9⟩⟩] : List FlushEntry), f.key.track ≠ 5) ∧ (∀ f ∈ ([⟨0, ⟨1, 0, 4, 1⟩⟩, ⟨0, ⟨1, 0, 2, 9⟩⟩] : List FlushEntry),
    ¬ ((unit1.sweep = .up ∧ 5 < f.key.track) ∨ (unit1.sweep = .down ∧ f.key.track < 5))) ∧ ([⟨0, ⟨1, 0, 4, 1⟩⟩, ⟨0, ⟨1, 0, 2, 9⟩⟩] : List FlushEntry)
    ≠ [] := by decide
def state_SelectionTakesTheFirstClass_fill : State :=
    { withUnit small (fun x => { x with state := .notReady, readyLine := false, flushList := [⟨1679, key⟩], fillQueue := [3], surveyQueue := [7], selectedSurface := none, believed := none, lastHeader := none }) with lines := [(3, { clean with state := .filling, key := some ⟨1, 0, 900, 3⟩, currentSlot := some 1 }), (1679, { clean with state := .dirty, dirtyEpoch := some 1 })], refs := [(0, 1), (1, 1)], dirtyCount := 1 }
theorem witness_SelectionTakesTheFirstClass_fill : State.Settled state_SelectionTakesTheFirstClass_fill ∧ (∀ f ∈ (State.unit
    state_SelectionTakesTheFirstClass_fill 1).flushList, ¬ (State.pressure state_SelectionTakesTheFirstClass_fill = true ∨ State.waiters
    state_SelectionTakesTheFirstClass_fill (f.line / 4) ≠ [] ∨ ∃ b bs d, (State.unit state_SelectionTakesTheFirstClass_fill 1).barriers = b :: bs ∧
    (State.line state_SelectionTakesTheFirstClass_fill f.line).dirtyEpoch = some d ∧ EpochAtMost d b.epoch)) ∧ State.part
    state_SelectionTakesTheFirstClass_fill = .running ∧ 1 < 4 ∧ (State.unit state_SelectionTakesTheFirstClass_fill 1).state = .notReady ∧ (State.unit
    state_SelectionTakesTheFirstClass_fill 1).op = none ∧ (State.unit state_SelectionTakesTheFirstClass_fill 1).seq = .idle ∧ (State.unit
    state_SelectionTakesTheFirstClass_fill 1).discarding = false ∧ (State.channel state_SelectionTakesTheFirstClass_fill 0).state = .open ∧
    (State.channel state_SelectionTakesTheFirstClass_fill 0).backlog.length < 31 ∧ (State.unit state_SelectionTakesTheFirstClass_fill 1).fillQueue =
    [3] ∧ (State.line state_SelectionTakesTheFirstClass_fill 3).key = some ⟨1, 0, 900, 3⟩ :=
    ⟨rfl, (fun f hf h => by
      cases List.mem_singleton.mp hf
      rcases h with h | h | ⟨_, _, _, h, _⟩
      · exact absurd h (by decide)
      · exact absurd rfl h
      · exact nomatch h), by decide⟩
def state_SelectionTakesTheFirstClass_fillElsewhere : State :=
    { withUnit small (fun x => { x with state := .notReady, readyLine := false, fillQueue := [3] }) with lines := [(3, { clean with state := .filling, key := some ⟨1, 0, 900, 3⟩, currentSlot := some 1 }), (1679, { clean with state := .dirty, dirtyEpoch := some 1 })], refs := [(0, 1), (1, 1)], dirtyCount := 1 }
theorem witness_SelectionTakesTheFirstClass_fillElsewhere : State.Settled state_SelectionTakesTheFirstClass_fillElsewhere ∧ (∀ f ∈ (State.unit
    state_SelectionTakesTheFirstClass_fillElsewhere 1).flushList, ¬ (State.pressure state_SelectionTakesTheFirstClass_fillElsewhere = true ∨
    State.waiters state_SelectionTakesTheFirstClass_fillElsewhere (f.line / 4) ≠ [] ∨ ∃ b bs d, (State.unit
    state_SelectionTakesTheFirstClass_fillElsewhere 1).barriers = b :: bs ∧ (State.line state_SelectionTakesTheFirstClass_fillElsewhere
    f.line).dirtyEpoch = some d ∧ EpochAtMost d b.epoch)) ∧ State.part state_SelectionTakesTheFirstClass_fillElsewhere = .running ∧ 1 < 4 ∧
    (State.unit state_SelectionTakesTheFirstClass_fillElsewhere 1).state = .notReady ∧ (State.unit state_SelectionTakesTheFirstClass_fillElsewhere
    1).op = none ∧ (State.unit state_SelectionTakesTheFirstClass_fillElsewhere 1).seq = .idle ∧ (State.unit
    state_SelectionTakesTheFirstClass_fillElsewhere 1).discarding = false ∧ (State.channel state_SelectionTakesTheFirstClass_fillElsewhere 0).state =
    .open ∧ (State.channel state_SelectionTakesTheFirstClass_fillElsewhere 0).backlog.length < 31 ∧ (State.unit
    state_SelectionTakesTheFirstClass_fillElsewhere 1).fillQueue = [3] ∧ (State.line state_SelectionTakesTheFirstClass_fillElsewhere 3).key = some
    ⟨1, 0, 900, 3⟩ := ⟨rfl, (fun f hf => nomatch hf), by decide⟩
def request_SelectionTakesTheFirstClass_survey : Request := asked 1 (surveyRecord 5 1 1 5 0x4000) (.parked .surveyQueue)
def state_SelectionTakesTheFirstClass_survey : State :=
    { withUnit small (fun x => { x with state := .notReady, readyLine := false, surveyQueue := [7], flushList := [⟨1679, key⟩], verifyPending := true }) with lines := [(3, { clean with state := .filling, key := some ⟨1, 0, 900, 3⟩, currentSlot := some 1 }), (1679, { clean with state := .dirty, dirtyEpoch := some 1 })], refs := [(0, 1), (1, 1)], dirtyCount := 1, table := [(7, some request_SelectionTakesTheFirstClass_survey)] }
theorem witness_SelectionTakesTheFirstClass_survey : State.Settled state_SelectionTakesTheFirstClass_survey ∧ (∀ f ∈ (State.unit
    state_SelectionTakesTheFirstClass_survey 1).flushList, ¬ (State.pressure state_SelectionTakesTheFirstClass_survey = true ∨ State.waiters
    state_SelectionTakesTheFirstClass_survey (f.line / 4) ≠ [] ∨ ∃ b bs d, (State.unit state_SelectionTakesTheFirstClass_survey 1).barriers = b :: bs
    ∧ (State.line state_SelectionTakesTheFirstClass_survey f.line).dirtyEpoch = some d ∧ EpochAtMost d b.epoch)) ∧ State.part
    state_SelectionTakesTheFirstClass_survey = .running ∧ 1 < 4 ∧ (State.unit state_SelectionTakesTheFirstClass_survey 1).state = .notReady ∧
    (State.unit state_SelectionTakesTheFirstClass_survey 1).op = none ∧ (State.unit state_SelectionTakesTheFirstClass_survey 1).seq = .idle ∧
    (State.unit state_SelectionTakesTheFirstClass_survey 1).discarding = false ∧ (State.channel state_SelectionTakesTheFirstClass_survey 0).state =
    .open ∧ (State.channel state_SelectionTakesTheFirstClass_survey 0).backlog.length < 31 ∧ (State.unit state_SelectionTakesTheFirstClass_survey
    1).fillQueue = [] ∧ (State.unit state_SelectionTakesTheFirstClass_survey 1).surveyQueue = [7] ∧ State.request
    state_SelectionTakesTheFirstClass_survey 7 = some request_SelectionTakesTheFirstClass_survey :=
    ⟨rfl, (fun f hf h => by
      cases List.mem_singleton.mp hf
      rcases h with h | h | ⟨_, _, _, h, _⟩
      · exact absurd h (by decide)
      · exact absurd rfl h
      · exact nomatch h), by decide⟩
def state_SelectionTakesTheFirstClass_flush : State :=
    { withUnit small (fun x => { x with state := .notReady, readyLine := false, flushList := [⟨1679, key⟩] }) with lines := [(3, { clean with state := .filling, key := some ⟨1, 0, 900, 3⟩, currentSlot := some 1 }), (1679, { clean with state := .dirty, dirtyEpoch := some 1 })], refs := [(0, 1), (1, 1)], dirtyCount := 1 }
theorem witness_SelectionTakesTheFirstClass_flush : State.Settled state_SelectionTakesTheFirstClass_flush ∧ State.part
    state_SelectionTakesTheFirstClass_flush = .running ∧ 1 < 4 ∧ (State.unit state_SelectionTakesTheFirstClass_flush 1).state = .notReady ∧
    (State.unit state_SelectionTakesTheFirstClass_flush 1).op = none ∧ (State.unit state_SelectionTakesTheFirstClass_flush 1).seq = .idle ∧
    (State.unit state_SelectionTakesTheFirstClass_flush 1).discarding = false ∧ (State.channel state_SelectionTakesTheFirstClass_flush 0).state =
    .open ∧ (State.channel state_SelectionTakesTheFirstClass_flush 0).backlog.length < 31 ∧ (State.unit state_SelectionTakesTheFirstClass_flush
    1).flushList = [(⟨1679, key⟩ : FlushEntry)] ∧ (State.line state_SelectionTakesTheFirstClass_flush (⟨1679, key⟩ : FlushEntry).line).state = .dirty
    ∧ (State.line state_SelectionTakesTheFirstClass_flush (⟨1679, key⟩ : FlushEntry).line).key = some (⟨1679, key⟩ : FlushEntry).key ∧ (⟨1679, key⟩ :
    FlushEntry).key.unit = 1 ∧ (State.line state_SelectionTakesTheFirstClass_flush (⟨1679, key⟩ : FlushEntry).line).currentSlot = some 0 ∧ (State.unit
    state_SelectionTakesTheFirstClass_flush 1).fillQueue = [] ∧ (State.unit state_SelectionTakesTheFirstClass_flush 1).surveyQueue = [] :=
    ⟨rfl, by decide⟩
def state_SelectionTakesTheFirstClass_urgent : State :=
    { withUnit small (fun x => { x with state := .notReady, readyLine := false, flushList := [⟨1679, key⟩], fillQueue := [3], barriers := [⟨9, 1⟩] }) with lines := [(3, { clean with state := .filling, key := some ⟨1, 0, 900, 3⟩, currentSlot := some 1 }), (1679, { clean with state := .dirty, dirtyEpoch := some 1 })], refs := [(0, 1), (1, 1)], dirtyCount := 1 }
theorem witness_SelectionTakesTheFirstClass_urgent : State.Settled state_SelectionTakesTheFirstClass_urgent ∧ (State.pressure
    state_SelectionTakesTheFirstClass_urgent = true ∨ State.waiters state_SelectionTakesTheFirstClass_urgent ((⟨1679, key⟩ : FlushEntry).line / 4) ≠
    [] ∨ ∃ b bs d, (State.unit state_SelectionTakesTheFirstClass_urgent 1).barriers = b :: bs ∧ (State.line state_SelectionTakesTheFirstClass_urgent
    (⟨1679, key⟩ : FlushEntry).line).dirtyEpoch = some d ∧ EpochAtMost d b.epoch) ∧ State.part state_SelectionTakesTheFirstClass_urgent = .running ∧ 1
    < 4 ∧ (State.unit state_SelectionTakesTheFirstClass_urgent 1).state = .notReady ∧ (State.unit state_SelectionTakesTheFirstClass_urgent 1).op =
    none ∧ (State.unit state_SelectionTakesTheFirstClass_urgent 1).seq = .idle ∧ (State.unit state_SelectionTakesTheFirstClass_urgent 1).discarding =
    false ∧ (State.channel state_SelectionTakesTheFirstClass_urgent 0).state = .open ∧ (State.channel state_SelectionTakesTheFirstClass_urgent
    0).backlog.length < 31 ∧ (State.unit state_SelectionTakesTheFirstClass_urgent 1).flushList = [(⟨1679, key⟩ : FlushEntry)] ∧ (State.line
    state_SelectionTakesTheFirstClass_urgent (⟨1679, key⟩ : FlushEntry).line).state = .dirty ∧ (State.line state_SelectionTakesTheFirstClass_urgent
    (⟨1679, key⟩ : FlushEntry).line).key = some (⟨1679, key⟩ : FlushEntry).key ∧ (⟨1679, key⟩ : FlushEntry).key.unit = 1 ∧ (State.line
    state_SelectionTakesTheFirstClass_urgent (⟨1679, key⟩ : FlushEntry).line).currentSlot = some 0 :=
    ⟨rfl, .inr (.inr ⟨_, _, _, rfl, rfl, by decide⟩), by decide⟩
theorem witness_SelectionTakesTheFirstClass_protected : State.Settled state_SelectionTakesTheFirstClass_flush ∧ (State.unit
    state_SelectionTakesTheFirstClass_flush 1).unwaited ∧ State.part state_SelectionTakesTheFirstClass_flush = .running ∧ 1 < 4 ∧ (State.unit
    state_SelectionTakesTheFirstClass_flush 1).state = .notReady ∧ (State.unit state_SelectionTakesTheFirstClass_flush 1).op = none ∧ (State.unit
    state_SelectionTakesTheFirstClass_flush 1).seq = .idle ∧ (State.unit state_SelectionTakesTheFirstClass_flush 1).discarding = false ∧
    (State.channel state_SelectionTakesTheFirstClass_flush 0).state = .open ∧ (State.channel state_SelectionTakesTheFirstClass_flush 0).backlog.length
    < 31 ∧ (State.unit state_SelectionTakesTheFirstClass_flush 1).flushList = [(⟨1679, key⟩ : FlushEntry)] ∧ (State.line
    state_SelectionTakesTheFirstClass_flush (⟨1679, key⟩ : FlushEntry).line).state = .dirty ∧ (State.line state_SelectionTakesTheFirstClass_flush
    (⟨1679, key⟩ : FlushEntry).line).key = some (⟨1679, key⟩ : FlushEntry).key ∧ (⟨1679, key⟩ : FlushEntry).key.unit = 1 ∧ (State.line
    state_SelectionTakesTheFirstClass_flush (⟨1679, key⟩ : FlushEntry).line).currentSlot = some 0 ∧ (State.unit
    state_SelectionTakesTheFirstClass_flush 1).fillQueue = [] ∧ (State.unit state_SelectionTakesTheFirstClass_flush 1).surveyQueue = [] ∧ (State.unit
    state_SelectionTakesTheFirstClass_flush 1).barriers = [] ∧ (State.unit state_SelectionTakesTheFirstClass_flush 1).writeGate = false ∧
    State.slotWait state_SelectionTakesTheFirstClass_flush = [] ∧ State.waiters state_SelectionTakesTheFirstClass_flush ((⟨1679, key⟩ :
    FlushEntry).line / 4) = [] := ⟨rfl, ⟨rfl, rfl⟩, by decide⟩
def state_WaitingAdministrationGoesOn_closed : State := withChannel (holding small request_FetchEndsWithoutARecord_closed) 1 (fun x =>
    { x with state := .closing, closeEntry := some 7 })
theorem witness_WaitingAdministrationGoesOn_closed : State.Settled state_WaitingAdministrationGoesOn_closed ∧ State.Completes
    state_WaitingAdministrationGoesOn_closed 7 request_FetchEndsWithoutARecord_closed ∧ State.part state_WaitingAdministrationGoesOn_closed = .running
    ∧ 1 ≠ 0 ∧ (State.channel state_WaitingAdministrationGoesOn_closed 1).state = .closing ∧ (State.channel state_WaitingAdministrationGoesOn_closed
    1).inFlight = 0 ∧ (State.channel state_WaitingAdministrationGoesOn_closed 1).writing = none ∧ (State.channel
    state_WaitingAdministrationGoesOn_closed 1).closeEntry = some 7 ∧ request_FetchEndsWithoutARecord_closed.channel = 0 :=
    ⟨rfl, completes_of (by decide), by decide⟩
def state_WaitingAdministrationGoesOn_fenced : State := withChannel small 1 (fun x => { x with state := .fencing, cause := .badHead })
theorem witness_WaitingAdministrationGoesOn_fenced : State.Settled state_WaitingAdministrationGoesOn_fenced ∧ State.part
    state_WaitingAdministrationGoesOn_fenced = .running ∧ 1 ≠ 0 ∧ (State.channel state_WaitingAdministrationGoesOn_fenced 1).state = .fencing ∧
    (State.channel state_WaitingAdministrationGoesOn_fenced 1).inFlight = 0 ∧ (State.channel state_WaitingAdministrationGoesOn_fenced 1).writing =
    none ∧ (State.channel state_WaitingAdministrationGoesOn_fenced 1).closePending = false ∧ (State.channel state_WaitingAdministrationGoesOn_fenced
    0).state = .open ∧ (State.channel state_WaitingAdministrationGoesOn_fenced 0).backlog.length < 32 := ⟨rfl, by decide⟩
theorem witness_WaitingAdministrationGoesOn_notDrained : State.Settled small ∧ State.part small = .running ∧ 1 ≠ 0 ∧ ((State.channel small 1).inFlight
    ≠ 0 ∨ (State.channel small 1).writing ≠ none ∨ (State.channel small 1).state = .open ∨ (State.channel small 1).state = .fenced ∨ (State.channel
    small 1).state = .closed) := ⟨rfl, by decide⟩
def state_WaitingAdministrationGoesOn_detach : State := holding (withUnit small (fun x => { x with detach := some ⟨7, []⟩ }))
    request_UnitDiscardSetsItsFlag_detachWaits
theorem witness_WaitingAdministrationGoesOn_detach : State.Settled state_WaitingAdministrationGoesOn_detach ∧ (State.unit
    state_WaitingAdministrationGoesOn_detach 1).workless ∧ State.Completes state_WaitingAdministrationGoesOn_detach 7
    request_UnitDiscardSetsItsFlag_detachWaits ∧ State.part state_WaitingAdministrationGoesOn_detach = .running ∧ 1 ≠ 0 ∧ (State.unit
    state_WaitingAdministrationGoesOn_detach 1).detach = some ⟨7, []⟩ ∧ (State.unit state_WaitingAdministrationGoesOn_detach 1).discarding = false ∧
    (State.unit state_WaitingAdministrationGoesOn_detach 1).op = none ∧ (State.unit state_WaitingAdministrationGoesOn_detach 1).barriers = [] ∧ (∀ p ∈
    State.lines state_WaitingAdministrationGoesOn_detach, p.2.ofUnit 1 = false) ∧ (∀ p ∈ State.held state_WaitingAdministrationGoesOn_detach,
    p.2.names 1 = false) := ⟨rfl, ⟨rfl, rfl, rfl⟩, completes_of (by decide), by decide⟩
def request_WaitingAdministrationGoesOn_discard : Request := asked 0 (unitDiscardRecord 5 1) .active
def state_WaitingAdministrationGoesOn_discard : State := holding (withUnit small (fun x => { x with discarding := true, discard := some 7 }))
    request_WaitingAdministrationGoesOn_discard
theorem witness_WaitingAdministrationGoesOn_discard : State.Settled state_WaitingAdministrationGoesOn_discard ∧ (State.unit
    state_WaitingAdministrationGoesOn_discard 1).workless ∧ State.Completes state_WaitingAdministrationGoesOn_discard 7
    request_WaitingAdministrationGoesOn_discard ∧ State.part state_WaitingAdministrationGoesOn_discard = .running ∧ 1 ≠ 0 ∧ (State.unit
    state_WaitingAdministrationGoesOn_discard 1).discard = some 7 ∧ (State.unit state_WaitingAdministrationGoesOn_discard 1).op = none ∧ (State.unit
    state_WaitingAdministrationGoesOn_discard 1).seq = .idle ∧ (State.unit state_WaitingAdministrationGoesOn_discard 1).barriers = [] ∧ (∀ p ∈
    State.lines state_WaitingAdministrationGoesOn_discard, p.2.ofUnit 1 = false) ∧ (∀ p ∈ State.held state_WaitingAdministrationGoesOn_discard,
    p.2.names 1 = false) := ⟨rfl, ⟨rfl, rfl, rfl⟩, completes_of (by decide), by decide⟩
theorem witness_WaitingAdministrationGoesOn_noDetach : State.Settled small ∧ State.part small = .running ∧ 1 ≠ 0 ∧ (State.unit small 1).detach = none
    := ⟨rfl, by decide⟩
theorem witness_WaitingAdministrationGoesOn_noDiscard : State.Settled small ∧ State.part small = .running ∧ 1 ≠ 0 ∧ (State.unit small 1).discard =
    none := ⟨rfl, by decide⟩
def state_WaitingAdministrationGoesOn_discardLines : State := holding
    { withUnit small (fun x => { x with discarding := true, discard := some 7, flushList := [⟨1679, key⟩] }) with lines := [(3, { clean with state := .clean, key := some ⟨1, 0, 5, 3⟩, currentSlot := some 1, holders := [1] }), (1679, { clean with state := .dirty, dirtyEpoch := some 1, holders := [1, 2] })], refs := [(0, 1), (1, 1)], dirtyCount := 1 }
    request_WaitingAdministrationGoesOn_discard
theorem witness_WaitingAdministrationGoesOn_discardLines : State.Settled state_WaitingAdministrationGoesOn_discardLines ∧ State.Completes
    state_WaitingAdministrationGoesOn_discardLines 7 request_WaitingAdministrationGoesOn_discard ∧ State.FreesPlainly
    state_WaitingAdministrationGoesOn_discardLines 1 ∧ State.part state_WaitingAdministrationGoesOn_discardLines = .running ∧ 1 ≠ 0 ∧ (State.unit
    state_WaitingAdministrationGoesOn_discardLines 1).discard = some 7 ∧ (State.unit state_WaitingAdministrationGoesOn_discardLines 1).op = none ∧
    (State.unit state_WaitingAdministrationGoesOn_discardLines 1).seq = .idle ∧ (State.unit state_WaitingAdministrationGoesOn_discardLines
    1).fillQueue = [] ∧ (State.unit state_WaitingAdministrationGoesOn_discardLines 1).surveyQueue = [] ∧ (State.unit
    state_WaitingAdministrationGoesOn_discardLines 1).barriers = [] ∧ (∀ f ∈ (State.unit state_WaitingAdministrationGoesOn_discardLines 1).flushList,
    (State.line state_WaitingAdministrationGoesOn_discardLines f.line).ofUnit 1 = true ∧ (State.line state_WaitingAdministrationGoesOn_discardLines
    f.line).state = .dirty) ∧ (∀ p ∈ State.held state_WaitingAdministrationGoesOn_discardLines, p.2.names 1 = false) ∧
    request_WaitingAdministrationGoesOn_discard.channel = 0 := ⟨rfl, completes_of (by decide), freesPlainly_of (by decide), by decide⟩
theorem witness_LawsKeptByEveryStep : State.Lawful state_StepRunsFrontCommand ∧ step state_StepRunsFrontCommand = .next ((nextOf (step
    state_StepRunsFrontCommand)).getD small) := ⟨lawfulSmall, rfl⟩
theorem witness_InFlightCountsMatchTheTable_step : (State.part state_StepRunsFrontCommand ≠ .failed → State.InFlightCounted
    state_StepRunsFrontCommand) ∧ step state_StepRunsFrontCommand = .next ((nextOf (step state_StepRunsFrontCommand)).getD small) ∧ ((nextOf (step
    state_StepRunsFrontCommand)).getD small).part ≠ .failed := ⟨(fun _ => countedSmall), rfl, by decide⟩
theorem witness_InFlightCountsMatchTheTable_fetch : State.InFlightCounted (fetching small 1) ∧ (fetching small 1).fetch = some ⟨1, 9⟩ :=
    ⟨countedFetching, by decide⟩
def state_FailedPartStandsStill : State := { small with part := .failed, failure := .adminBadHead }
theorem witness_FailedPartStandsStill : State.Settled state_FailedPartStandsStill ∧ exec (.readyFall 1) state_FailedPartStandsStill = .next ((nextOf
    (exec (.readyFall 1) state_FailedPartStandsStill)).getD small) ∧ State.part state_FailedPartStandsStill = .failed ∧ Instr.readyFall 1 ≠ .reset ∧
    Instr.readyFall 1 ≠ .powerOnReset := ⟨rfl, rfl, by decide⟩
theorem witness_StoreChangesOnlyByTransfers : (∀ e bs, Instr.readyFall 1 ≠ .writeTransferComplete e bs) ∧ (∀ e bs, Instr.readyFall 1 ≠
    .writeTransferError e bs) ∧ (∀ u bs, Instr.readyFall 1 ≠ .index u bs) ∧ (∀ u m bs, Instr.readyFall 1 ≠ .dataMark u m bs) ∧ (∀ u c bs,
    Instr.readyFall 1 ≠ .dataEnd u c bs) ∧ (∀ u tr su se si c bs, Instr.readyFall 1 ≠ .header u tr su se si c bs) ∧ exec (.readyFall 1) small = .next
    ((nextOf (exec (.readyFall 1) small)).getD small) ∧ Instr.readyFall 1 ≠ .reset ∧ Instr.readyFall 1 ≠ .powerOnReset :=
    ⟨(fun _ _ h => nomatch h), (fun _ _ h => nomatch h), (fun _ _ h => nomatch h), (fun _ _ _ h => nomatch h), (fun _ _ _ h => nomatch h), (fun _ _ _ _ _ _ _ h => nomatch h), rfl, by decide⟩

end Sys2Proof.Tests
end

section
/-! PROOF. HEADER in the recording phase of a survey (R133, R134): what a sequencer in SURVEYING does with a header, as one write of its unit
record, and what the entry list takes of it. -/

namespace Sys2Proof.Machine

variable {s : State} {u e : Nat} {o : Operation}

/-- R118: a header's check is good when it is the check of the header's five bytes. -/
theorem Header.good_iff (h : Header) : h.good = true ↔
    h.check = checkBytes 0xFFFF [h.track.extractLsb' 8 8, h.track.extractLsb' 0 8, h.surface, h.sector, h.size] :=
  beq_iff_eq.trans eq_comm

/-- R133: the entry that a header is recorded as. -/
def Header.surveyEntry (h : Header) : SurveyEntry :=
  ⟨h.track, h.surface, h.sector, h.size, h.check, h.good, h.size != ownSizeCode⟩

/-- R133: below 64 entries a header is appended to the list. -/
theorem Operation.record_of_lt (h : Header) (hlt : o.entries.length < 64) :
    o.record h = { o with entries := o.entries ++ [h.surveyEntry] } := if_pos hlt

/-- R134: with 64 entries a header only sets the overflow indicator. -/
theorem Operation.record_of_le (h : Header) (hle : 64 ≤ o.entries.length) : o.record h = { o with overflow := true } :=
  if_neg (Nat.not_lt.2 hle)

/-- R120, R132: the last header seen, once a header has been looked at. -/
def UnitRec.headerSeen (x : UnitRec) (h : Header) : Option Nat := if h.good then some h.sector.toNat else x.lastHeader

/-- Two changes of one unit record are one change. -/
theorem State.updUnit_updUnit (s : State) (u : Nat) (f g : UnitRec → UnitRec) :
    (s.updUnit u f).updUnit u g = s.updUnit u (fun x => g (f x)) := by
  simp [State.updUnit, State.setUnit_eq, State.unit]

/-- Looking at a header and then changing the unit record is one change of it. -/
theorem State.seeHeader_updUnit (s : State) (u : Nat) (h : Header) (g : UnitRec → UnitRec) :
    (s.seeHeader u h).updUnit u g = s.updUnit u (fun x => g { x with lastHeader := x.headerSeen h }) := by
  by_cases hg : h.good = true
  · simp only [State.seeHeader, UnitRec.headerSeen, if_pos hg, State.updUnit_updUnit]
  · simp only [State.seeHeader, UnitRec.headerSeen, if_neg hg]

/-- R101, R115: a sequencer with an operation in flight acts on its port, in FAILED too. -/
theorem State.acts_of_op (hd : (s.unit u).state ≠ .detached) (ho : (s.unit u).op = some o) : s.acts u = true := by
  simp [State.acts, hd, ho]

/-- R123: data bytes have a place in a fill only. -/
theorem State.takeData_survey (bs : List Byte) (ho : (s.unit u).op = some o) (hs : o.subject = .survey e) : s.takeData u bs = s := by
  simp [State.takeData, ho, hs]

/-- R133, R134: a header in the recording phase is one write of the unit record. -/
theorem State.onHeader_recording (h : Header) (ho : (s.unit u).op = some o) (hq : (s.unit u).seq = .surveying) (hr : o.recording = true) :
    s.onHeader u h = s.setUnit u
      { s.unit u with lastHeader := (s.unit u).headerSeen h, op := some { o.record h with deadline := s.now + 1000 } } := by
  have hon : s.onHeader u h = ((s.seeHeader u h).updOp u (fun x => if o.recording then x.record h else x)).setDeadline u := by
    simp only [State.onHeader, hq, ho]
  have hnow : ((s.seeHeader u h).updOp u (fun x => if o.recording then x.record h else x)).now = s.now :=
    (State.seeHeader_within.trans State.updOp_within).now
  rw [hon, State.setDeadline, hnow]
  simp only [State.updOp, State.updUnit_updUnit, State.seeHeader_updUnit]
  simp [State.updUnit, ho, hr, Config.responseLimit]

/-- R133, R134: HEADER in the recording phase of a survey sets nothing else in motion. -/
theorem exec_header_recording (h : Header) (hset : s.Settled) (hd : (s.unit u).state ≠ .detached) (ho : (s.unit u).op = some o)
    (hq : (s.unit u).seq = .surveying) (hs : o.subject = .survey e) (hr : o.recording = true) :
    exec (.header u h.track h.surface h.sector h.size h.check []) s = .next (s.setUnit u
      { s.unit u with lastHeader := (s.unit u).headerSeen h, op := some { o.record h with deadline := s.now + 1000 } }) := by
  have hexec : exec (.header u h.track h.surface h.sector h.size h.check []) s = .next ((s.takeData u []).onHeader u h).finish :=
    if_pos (State.acts_of_op hd ho)
  rw [hexec, State.takeData_survey [] ho hs, State.onHeader_recording h ho hq hr]
  exact congrArg _ (State.finish_nil _ hset)

end Sys2Proof.Machine

namespace Sys2Proof.Proofs

open Sys2Proof Sys2Proof.Machine

/-- Settles O50: the step is one write of the unit record, and the operation in it is the recording at a list with room or at a full one. -/
theorem surveyRecordsHeaders : Obligations.SurveyRecordsHeaders := by
  intro s u e o track surface sector size check x good seen entry hset _ hd ho hq hs hr
  let h : Header := ⟨track, surface, sector, size, check⟩
  have hgood : h.good = decide good := by rw [Bool.eq_iff_iff, decide_eq_true_iff]; exact h.good_iff
  have hseen : x.headerSeen h = seen := by simp only [UnitRec.headerSeen, hgood, decide_eq_true_iff]; rfl
  have hforeign : (h.size != ownSizeCode) = decide (size ≠ 3) := by rw [Bool.eq_iff_iff, bne_iff_ne, decide_eq_true_iff]; rfl
  have hentry : h.surveyEntry = entry := by rw [Header.surveyEntry, hgood, hforeign]
  have hstep : exec (.header u track surface sector size check []) s = .next (s.setUnit u
      { x with lastHeader := x.headerSeen h, op := some { o.record h with deadline := s.now + 1000 } }) :=
    exec_header_recording h hset hd ho hq hs hr
  rw [hseen] at hstep
  constructor
  · intro hlt
    rwa [Operation.record_of_lt h hlt, hentry] at hstep
  · intro hle
    rwa [Operation.record_of_le h hle] at hstep

end Sys2Proof.Proofs
end

section
/-! PROOF. Index posts (R159, R160): what a valid post writes, what an invalid one does to channel 0 and to a data channel, and what the end of the
step leaves of a channel that a fence cause has taken to FENCING. -/

namespace Sys2Proof.Machine

variable {s : State} {c n : Nat} {cause : FenceCause} {failure : FailureCause}

/-! ### A channel that a fence cause takes out of service (R169, R170) -/

/-- R157: work in motion takes a FENCING channel no way but on to FENCED and CLOSED, and leaves its cause. -/
theorem Channel.Within.of_fencing {x y : Channel} (h : Channel.Within c x y) (hx : x.state = .fencing) :
    (y.state = .fencing ∨ y.state = .fenced ∨ y.state = .closed) ∧ y.cause = x.cause := by
  have hrank : 2 ≤ x.state.rank := by rw [hx]; decide
  have hforward : 2 ≤ y.state.rank := hrank.trans h.forward
  refine ⟨?_, h.cause hrank⟩
  cases hy : y.state <;> simp [hy, ChannelState.rank] at hforward ⊢

/-- R169, R170: the data channels that take a fence cause: an OPEN one any, a CLOSING one a BAD_HEAD or a COMPLETION_POST_ERROR. -/
def Channel.TakesFence (x : Channel) (cause : FenceCause) : Prop :=
  x.state = .open ∨ x.state = .closing ∧ (cause = .completionPostError ∨ cause = .badHead)

/-- R169, R170: a fence cause that is taken writes FENCING and itself into the channel's context; the rest of the fence is work in motion. -/
theorem State.fence_within_fencing (hc : c ≠ 0) (h : (s.channel c).TakesFence cause) :
    ∃ pend, Within (s.updChannel c (fun x => { x with state := .fencing, cause, closePending := pend })) (s.fence c cause) := by
  rcases h with ho | ⟨hcl, hcause⟩
  · refine ⟨(s.channel c).closePending, ?_⟩
    have hstop : Within (s.updChannel c (fun x => { x with state := .fencing, cause }))
        ((s.updChannel c (fun x => { x with state := .fencing, cause })).stopService c .fenced) := stopService_within
    simp only [State.fence, if_neg hc, ho]
    split
    · exact (hstop.trans enterPostError_within).trans noteDrain_within
    · exact hstop.trans noteDrain_within
  · refine ⟨true, ?_⟩
    simp only [State.fence, if_neg hc, hcl, if_pos hcause]
    split
    · exact enterPostError_within.trans noteDrain_within
    · exact noteDrain_within

/-- R159, R160, R169: an invalid post that a data channel takes as a fence cause: at the end of the step the channel is out of service with
that cause, and its indices are as they were. -/
theorem State.badPost_finish_channel (hc : c ≠ 0) (h : (s.channel c).TakesFence cause) :
    let y := (s.badPost c cause failure).finish.channel c
    y.sqTail = (s.channel c).sqTail ∧ y.cqHead = (s.channel c).cqHead
      ∧ (y.state = .fencing ∨ y.state = .fenced ∨ y.state = .closed) ∧ y.cause = cause := by
  obtain ⟨pend, hfence⟩ := State.fence_within_fencing hc h
  have hbad : s.badPost c cause failure = s.fence c cause := if_neg hc
  have hend := (hfence.trans State.finish_within).channel c
  rw [← hbad, State.updChannel_channel, if_pos rfl] at hend
  exact ⟨hend.sqTail, hend.cqHead, hend.of_fencing rfl⟩

/-- R158, R195: an invalid post on channel 0 fails the part, and nothing else happens in its step. -/
theorem State.badPost_admin (hset : s.Settled) (hp : s.part ≠ .failed) :
    (s.badPost 0 cause failure).finish = { s with part := .failed, failure := failure } := by
  have hfail : s.badPost 0 cause failure = { s with part := .failed, failure := failure } := if_neg hp
  rw [hfail]
  exact State.finish_nil _ hset

/-- R170: a fence cause other than COMPLETION_POST_ERROR is ignored on a FENCING channel. -/
theorem State.badPost_fencing (hc : c ≠ 0) (h : (s.channel c).state = .fencing) (hcause : cause ≠ .completionPostError) :
    s.badPost c cause failure = s := by
  simp only [State.badPost, State.fence, if_neg hc, h, if_neg hcause]

/-! ### Tail posts (R159) -/

/-- R159, R200: SQ_TAIL in a part that is not FAILED. -/
theorem exec_sqTail (v : BitVec 32) (hp : s.part ≠ .failed) :
    exec (.sqTail v) s = .next (s.postTail (v.toNat % 16) (v.toNat / 2 ^ 16 % 2 ^ 12)).finish := by
  rw [← postChannel_eq, ← postIndex_eq]
  exact if_neg hp

theorem State.postTail_valid (ho : (s.channel c).state = .open) (hv : (s.channel c).tailOk n = true) :
    s.postTail c n = s.updChannel c (fun x => { x with sqTail := n }) := by
  simp only [State.postTail, if_pos ho, if_pos hv]

theorem State.postTail_invalid (ho : (s.channel c).state = .open) (hv : ¬ (s.channel c).tailOk n = true) :
    s.postTail c n = s.badPost c .badTail .adminBadTail := by
  simp only [State.postTail, if_pos ho, if_neg hv]

theorem State.postTail_ignored (ho : (s.channel c).state ≠ .open) : s.postTail c n = s := if_neg ho

/-! ### Head posts (R160) -/

/-- R160, R200: CQ_HEAD in a part that is not FAILED. -/
theorem exec_cqHead (v : BitVec 32) (hp : s.part ≠ .failed) :
    exec (.cqHead v) s = .next (s.postHead (v.toNat % 16) (v.toNat / 2 ^ 16 % 2 ^ 12)).finish := by
  rw [← postChannel_eq, ← postIndex_eq]
  exact if_neg hp

theorem ChannelState.takesHead_iff (x : ChannelState) : x.takesHead = true ↔ x = .open ∨ x = .closing ∨ x = .fencing := by
  cases x <;> simp [ChannelState.takesHead]

theorem State.leaveEventSet_eq (c : Nat) : s.leaveEventSet c = { s with eventSet := s.eventSet.filter (· ≠ c) } := by
  have hfilter : leaveList c s.eventSet = s.eventSet.filter (· ≠ c) := List.filter_congr fun d _ => by simp [bne, beq_eq_decide]
  rw [State.leaveEventSet, State.setEventSet_eq, hfilter]

theorem State.postHead_valid (ht : (s.channel c).state.takesHead = true) (hv : (s.channel c).headOk n = true) :
    s.postHead c n = (s.updChannel c (fun x => { x with cqHead := n })).leaveEventSet c := by
  simp only [State.postHead, if_pos ht, if_pos hv]

theorem State.postHead_invalid (ht : (s.channel c).state.takesHead = true) (hv : ¬ (s.channel c).headOk n = true) :
    s.postHead c n = s.badPost c .badHead .adminBadHead := by
  simp only [State.postHead, if_pos ht, if_neg hv]

theorem State.postHead_ignored (ht : ¬ (s.channel c).state.takesHead = true) : s.postHead c n = s := if_neg ht

end Sys2Proof.Machine

namespace Sys2Proof.Proofs

open Sys2Proof Sys2Proof.Machine

/-- Settles O9: a tail post is ignored, one write of the channel's context, or a bad post; a fence that the bad post causes goes only forward until
the end of the step. -/
theorem tailPostTaken : Obligations.TailPostTaken := by
  rintro s v c n hset hp rfl rfl x valid
  rw [exec_sqTail v hp]
  refine ⟨fun ho hv => ?_, fun ho hv hc => ?_, fun ho hv hc => ?_, fun ho => ?_⟩
  · rw [State.postTail_valid ho ((Channel.tailOk_iff _ _).2 hv)]
    exact congrArg _ (State.finish_nil _ hset)
  · rw [State.postTail_invalid ho (mt (Channel.tailOk_iff _ _).1 hv), hc, State.badPost_admin hset hp]
  · rw [State.postTail_invalid ho (mt (Channel.tailOk_iff _ _).1 hv)]
    obtain ⟨htail, -, hstate, hcause⟩ := State.badPost_finish_channel (cause := .badTail) (failure := .adminBadTail) hc (.inl ho)
    exact ⟨_, rfl, htail, hstate, hcause⟩
  · rw [State.postTail_ignored ho, hset.finish]

/-- Settles O10: a head post is ignored, one write of the channel's context and of EVENT_SET, or a bad post; on a FENCING channel a bad post is
ignored, and a fence that it causes on another goes only forward until the end of the step. -/
theorem headPostTaken : Obligations.HeadPostTaken := by
  rintro s v c n hset hp rfl rfl x valid listens
  have htakes : x.state.takesHead = true ↔ listens := ChannelState.takesHead_iff _
  have hbad (hl : listens) (hv : ¬ valid) := State.postHead_invalid (htakes.2 hl) (mt (Channel.headOk_iff _ _).1 hv)
  rw [exec_cqHead v hp]
  refine ⟨fun hl hv => ?_, fun hl hv hc => ?_, fun ho hv hc => ?_, fun hf hv hc => ?_, fun hl => ?_⟩
  · rw [State.postHead_valid (htakes.2 hl) ((Channel.headOk_iff _ _).2 hv), State.leaveEventSet_eq]
    exact congrArg _ (State.finish_nil _ hset)
  · rw [hbad hl hv, hc, State.badPost_admin hset hp]
  · have hfence : x.TakesFence .badHead := ho.imp_right fun hcl => ⟨hcl, .inr rfl⟩
    obtain ⟨-, hhead, hstate, hcause⟩ := State.badPost_finish_channel (failure := .adminBadHead) hc hfence
    rw [hbad (ho.imp_right .inl) hv]
    exact ⟨_, rfl, hhead, hstate, hcause⟩
  · rw [hbad (.inr (.inr hf)) hv, State.badPost_fencing hc hf (by decide), hset.finish]
  · rw [State.postHead_ignored (mt htakes.1 hl), hset.finish]

end Sys2Proof.Proofs
end

section
/-! PROOF. The fetch arbiter (R162): when a channel is eligible, which channel is granted by its place in the turn, which entry is set aside, and what
FETCH_GRANT does by what these two find. -/

namespace Sys2Proof.Machine

variable {s : State} {c e : Nat}

/-! ### Eligibility and the entry set aside -/

/-- R161, R162: what makes a channel eligible, but for the request table's free entry. -/
theorem Channel.eligible_iff (x : Channel) : x.eligible = true ↔
    x.state = .open ∧ x.sqHead ≠ x.sqTail ∧ (∃ l, x.limit = some l ∧ x.inFlight < l)
      ∧ x.reserved < x.cqSize - 1 - (x.cqTail + x.cqSize - x.cqHead) % x.cqSize ∧ x.fetchHold = none := by
  have hlimit : x.limit.any (fun l => decide (x.inFlight < l)) = true ↔ ∃ l, x.limit = some l ∧ x.inFlight < l := by
    simp [Option.any_eq_true]
  have hmargin : x.hasMargin = true ↔ x.reserved < x.cqSize - 1 - (x.cqTail + x.cqSize - x.cqHead) % x.cqSize := decide_eq_true_iff
  simp only [Channel.eligible, Bool.and_eq_true, beq_iff_eq, bne_iff_ne, hlimit, hmargin, Option.isNone_iff_eq_none, and_assoc]

/-- What a search from `k` finds is one of the `n` numbers, and satisfies the test. -/
theorem of_firstFrom_eq_some {p : Nat → Bool} {n k i : Nat} (h : firstFrom p n k = some i) : k ≤ i ∧ i < k + n ∧ p i = true := by
  induction n generalizing k with
  | zero => cases h
  | succ n ih =>
    rw [firstFrom] at h
    split at h
    · next hk => cases h; exact ⟨le_rfl, by omega, hk⟩
    · obtain ⟨hle, hlt, hp⟩ := ih h
      exact ⟨by omega, by omega, hp⟩

/-- A search that finds nothing has seen the test fail on all of the `n` numbers. -/
theorem of_firstFrom_eq_none {p : Nat → Bool} {n k i : Nat} (h : firstFrom p n k = none) (hle : k ≤ i) (hlt : i < k + n) : p i = false := by
  induction n generalizing k with
  | zero => omega
  | succ n ih =>
    rw [firstFrom] at h
    split at h
    · cases h
    · next hk =>
      rcases Nat.eq_or_lt_of_le hle with rfl | hlt'
      · simpa using hk
      · exact ih h hlt' (by omega)

/-- R138, R162: the entry set aside is one of the 256 and is free. -/
theorem State.freeTableEntry_some (h : s.freeTableEntry = some e) : e < 256 ∧ s.request e = none := by
  obtain ⟨-, hlt, hfree⟩ := of_firstFrom_eq_some h
  exact ⟨by simpa [Config.tableEntries] using hlt, by simpa using hfree⟩

/-- R138, R162: with a free entry among the 256 one is set aside. -/
theorem State.freeTableEntry_isSome (he : e < 256) (hfree : s.request e = none) : ∃ e', s.freeTableEntry = some e' := by
  cases h : s.freeTableEntry with
  | some e' => exact ⟨e', rfl⟩
  | none =>
    have hheld := of_firstFrom_eq_none h (Nat.zero_le e) (by simpa [Config.tableEntries] using he)
    simp [hfree] at hheld

/-! ### The turn of the data channels -/

/-- R162: the place of data channel `c` in the turn that follows a grant to `last`, from 0 for the channel after it. -/
def turnPlace (last c : Nat) : Nat := (c + 14 - last) % 15

theorem turnPlace_lt (last c : Nat) : turnPlace last c < 15 := Nat.mod_lt _ (by decide)

/-- R162: the channel at place `i` of the turn. -/
theorem turnPlace_turn {last i : Nat} (hlast : last ≤ 15) (hi : i < 15) : turnPlace last ((last + i) % 15 + 1) = i := by
  unfold turnPlace; omega

/-- R162: each data channel stands at its place of the turn. -/
theorem turn_turnPlace {last c : Nat} (hlast : last ≤ 15) (h1 : 1 ≤ c) (h15 : c ≤ 15) : (last + turnPlace last c) % 15 + 1 = c := by
  unfold turnPlace; omega

/-- R162: each data channel is in the turn. -/
theorem mem_turnOrder {last c : Nat} (hlast : last ≤ 15) (h1 : 1 ≤ c) (h15 : c ≤ 15) : c ∈ turnOrder last :=
  List.mem_map.2 ⟨turnPlace last c, List.mem_range.2 (turnPlace_lt last c), turn_turnPlace hlast h1 h15⟩

/-- R162: what is found first in the turn is a data channel, and no data channel that satisfies the test stands before it. -/
theorem of_find?_turnOrder {last c : Nat} {p : Nat → Bool} (hlast : last ≤ 15) (h : (turnOrder last).find? p = some c) :
    1 ≤ c ∧ c ≤ 15 ∧ p c = true ∧ ∀ d, 1 ≤ d → d ≤ 15 → p d = true → turnPlace last c ≤ turnPlace last d := by
  rw [turnOrder, List.find?_map, Option.map_eq_some_iff] at h
  obtain ⟨i, hfind, rfl⟩ := h
  obtain ⟨hp, hi, hbefore⟩ := List.find?_range_eq_some.1 hfind
  have hi : i < 15 := List.mem_range.1 hi
  refine ⟨by omega, by omega, hp, fun d h1 h15 hd => ?_⟩
  rw [turnPlace_turn hlast hi]
  by_contra hlt
  have hnot := hbefore (turnPlace last d) (by omega)
  simp [turn_turnPlace hlast h1 h15, hd] at hnot

/-! ### The channel granted -/

/-- R162: channel 0 is granted whenever it is eligible; otherwise the eligible data channel that comes first in the turn. -/
theorem State.granted_some (hlast : s.lastGranted ≤ 15) (h : s.granted = some c) :
    c ≤ 15 ∧ (s.channel c).eligible = true ∧ (c = 0 ∨ (¬ (s.channel 0).eligible = true ∧
      ∀ d, 1 ≤ d → d ≤ 15 → (s.channel d).eligible = true → turnPlace s.lastGranted c ≤ turnPlace s.lastGranted d)) := by
  rw [State.granted] at h
  split at h
  · next h0 => cases h; exact ⟨Nat.zero_le _, h0, .inl rfl⟩
  · next h0 =>
    obtain ⟨-, h15, hc, hfirst⟩ := of_find?_turnOrder hlast h
    exact ⟨h15, hc, .inr ⟨h0, hfirst⟩⟩

/-- R162: with an eligible channel one is granted. -/
theorem State.granted_isSome (hlast : s.lastGranted ≤ 15) (h15 : c ≤ 15) (hc : (s.channel c).eligible = true) : ∃ d, s.granted = some d := by
  rw [State.granted]
  split
  · exact ⟨0, rfl⟩
  · next h0 =>
    have h1 : 1 ≤ c := Nat.pos_of_ne_zero fun hzero => h0 (hzero ▸ hc)
    exact Option.isSome_iff_exists.1 (List.find?_isSome.2 ⟨c, mem_turnOrder hlast h1 h15, hc⟩)

/-! ### FETCH_GRANT -/

theorem PartState.takesRecords_iff (x : PartState) : x.takesRecords = true ↔ x = .running ∨ x = .quiescing := by
  cases x <;> simp [PartState.takesRecords]

/-- R162: FETCH_GRANT with a channel to grant and an entry to set aside. -/
theorem exec_fetchGrant_granted (hf : s.fetch = none) (hp : s.part = .running ∨ s.part = .quiescing) (hc : s.granted = some c)
    (he : s.freeTableEntry = some e) : exec .fetchGrant s = .next (s.grant c e) := by
  have htest : s.fetch.isNone ∧ s.part.takesRecords := ⟨by rw [hf]; rfl, (PartState.takesRecords_iff _).2 hp⟩
  have hexec : exec .fetchGrant s = execFetchGrant s := rfl
  rw [hexec, execFetchGrant, if_pos htest, hc, he]

/-- R162: FETCH_GRANT either grants, with none in flight in a part that takes records, or has no effect. -/
theorem exec_fetchGrant_cases (s : State) :
    (s.fetch = none ∧ (s.part = .running ∨ s.part = .quiescing) ∧ ∃ c e, s.granted = some c ∧ s.freeTableEntry = some e)
      ∨ exec .fetchGrant s = .next s := by
  have hexec : exec .fetchGrant s = execFetchGrant s := rfl
  rw [hexec, execFetchGrant]
  split
  · next h =>
    obtain ⟨hf, hp⟩ := h
    split
    · next c e hc he => exact .inl ⟨Option.isNone_iff_eq_none.1 hf, (PartState.takesRecords_iff _).1 hp, c, e, hc, he⟩
    · exact .inr rfl
    · exact .inr rfl
  · exact .inr rfl

end Sys2Proof.Machine

namespace Sys2Proof.Proofs

open Sys2Proof Sys2Proof.Machine

/-- Settles O12: what the arbiter finds is the first in the turn, by the places of the channels; and FETCH_GRANT grants just when it finds a channel and
an entry. -/
theorem fetchGrantedInTurn : Obligations.FetchGrantedInTurn := by
  refine ⟨fun s => ⟨_, _, rfl, rfl, rfl, rfl⟩, ?_⟩
  intro s _ hlast eligible turn
  have helig (c : Nat) : (s.channel c).eligible = true ↔ eligible c := Channel.eligible_iff _
  constructor
  · rintro hf hp ⟨e₀, he₀, hfree₀⟩ ⟨c₀, hc₀, hel₀⟩
    obtain ⟨c, hc⟩ := State.granted_isSome hlast hc₀ ((helig c₀).2 hel₀)
    obtain ⟨e, he⟩ := State.freeTableEntry_isSome he₀ hfree₀
    obtain ⟨h15, hel, hturn⟩ := State.granted_some hlast hc
    obtain ⟨he256, hfree⟩ := State.freeTableEntry_some he
    simp only [helig] at hel hturn
    exact ⟨c, e, h15, hel, he256, hfree, hturn, exec_fetchGrant_granted hf hp hc he⟩
  · intro hnone
    refine (exec_fetchGrant_cases s).resolve_left fun ⟨hf, hp, c, e, hc, he⟩ => hnone ⟨hf, hp, ?_, ?_⟩
    · exact ⟨e, State.freeTableEntry_some he⟩
    · obtain ⟨h15, hel, -⟩ := State.granted_some hlast hc
      exact ⟨c, h15, (helig c).1 hel⟩

end Sys2Proof.Proofs
end

section
/-! PROOF. PART_CONTROL (R192): what RUN, QUIESCE and a value that names no command do in each part state, and, for every other command but a reset,
that its step leaves the last refused command as it was. The second rests on `Within`, which says so of all work in motion; what is missing there is
said here of the direct effects of a command. -/

namespace Sys2Proof.Machine

variable {s t : State} {c e u : Nat}

/-! ### RUN, QUIESCE and the values that name no command (R192 to R194) -/

/-- R193: the boot address test. -/
theorem bootAddressOk_iff (a : Addr) : bootAddressOk a = true ↔ a.toNat % 64 = 0 ∧ a.toNat + 64 ≤ 2 ^ 64 := by
  simp [bootAddressOk, addressFits, Config.hostSpace]

theorem exec_run_halted (hp : s.part = .halted) : exec .run s = .next s.start := by
  have hexec : exec .run s = execRun s := rfl
  simp only [hexec, execRun, hp]

theorem State.start_bootRead (h : bootAddressOk s.bootAddress = true) :
    s.start = { s with part := .starting, outbox := .hostRead s.bootAddress.toNat 64 :: s.outbox } := if_pos h

theorem State.start_bootInvalid (hp : s.part = .halted) (h : ¬ bootAddressOk s.bootAddress = true) :
    s.start = { s with part := .failed, failure := .bootInvalid } := by
  have hfail : s.fail .bootInvalid = { s with part := .failed, failure := .bootInvalid } := if_neg (by rw [hp]; decide)
  rw [← hfail]
  exact if_neg h

theorem exec_run_quiesced (hp : s.part = .quiesced) : exec .run s = .next { s with part := .running } := by
  have hexec : exec .run s = execRun s := rfl
  simp only [hexec, execRun, hp, State.setPart_eq]

theorem exec_run_refused (hhalted : s.part ≠ .halted) (hquiesced : s.part ≠ .quiesced) :
    exec .run s = .next { s with lastRefused := .run } := by
  have hexec : exec .run s = execRun s := rfl
  rw [hexec, execRun]
  split
  · contradiction
  · contradiction
  all_goals rfl

theorem exec_quiesce_running (hp : s.part = .running) : exec .quiesce s = .next (s.setPart .quiescing).quiesceCheck := by
  have hexec : exec .quiesce s = execQuiesce s := rfl
  simp only [hexec, execQuiesce, hp]

/-- R194: the test in the step of a QUIESCE takes the part to one of two states. -/
theorem State.quiesceCheck_quiescing (s : State) : (s.setPart .quiescing).quiesceCheck =
    if (s.setPart .quiescing).quiet then { s with part := .quiesced } else { s with part := .quiescing } := by
  unfold State.quiesceCheck
  simp only [State.setPart_part, true_and]
  rfl

theorem exec_quiesce_refused (hp : s.part ≠ .running) : exec .quiesce s = .next { s with lastRefused := .quiesce } := by
  have hexec : exec .quiesce s = execQuiesce s := rfl
  rw [hexec, execQuiesce]
  split
  · contradiction
  all_goals rfl

theorem decodeWrite_invalidCommand {v : BitVec 32} (h1 : v ≠ 1) (h2 : v ≠ 2) (h3 : v ≠ 3) : decodeWrite 0x004 4 v = .invalidCommand v := by
  rw [decodeWrite, if_neg (by decide), if_pos rfl, if_neg h1, if_neg h2, if_neg h3]

theorem exec_invalidCommand {v : BitVec 32} (h1 : v ≠ 1) (h2 : v ≠ 2) (h3 : v ≠ 3) :
    exec (.invalidCommand v) s = .next { s with lastRefused := .invalid } := by
  have hnone : ¬ ([1, 2, 3] : List (BitVec 32)).contains v = true := by simpa using ⟨h1, h2, h3⟩
  exact if_neg hnone

namespace State

/-! ### Requests and administration, as work within the part (R33 to R35, R148, R150, R178 to R181, R185 to R188) -/

theorem emitWrite_within {a : Nat} {data : List Byte} {error : Option Nat} : Within s (s.emitWrite a data error) := by
  unfold emitWrite
  extract_lets sent
  split
  · exact .refl s
  · exact emit_within

theorem takeRelease_within {r : Record} : Within s (s.takeRelease e c r) := by
  unfold takeRelease; split
  · unfold releaseEpisode; split
    · split
      · exact dropHold_within.trans complete_within
      · exact complete_within
    · exact complete_within
  · unfold releaseKey; split
    · split
      · exact dropHold_within.trans complete_within
      · exact complete_within
    · exact complete_within

theorem takeBarrier_within {r : Request} : Within s (s.takeBarrier e r) := by
  unfold takeBarrier; split
  · exact (updChannel_within (by apply neutral <;> rfl)).trans park_within
  · exact complete_within

theorem takeAbandon_within {r : Record} : Within s (s.takeAbandon e c r) := by
  unfold takeAbandon; split
  · exact complete_within
  · split
    · exact endParked_within.trans complete_within
    · exact complete_within

theorem attachUnit_within {r : Record} : Within s (s.attachUnit e r) := by
  unfold attachUnit; dsimp only; split
  · exact setUnit_within.trans complete_within
  · exact complete_within

theorem detachUnit_within {r : Record} : Within s (s.detachUnit e r) := by
  unfold detachUnit; dsimp only; split
  · exact complete_within
  · split
    · exact complete_within
    · split
      · exact carryOutDetach_within
      · exact updUnit_within

theorem refuseDetach_within : Within s (s.refuseDetach u) := by
  unfold refuseDetach; split
  · exact .refl s
  · exact updUnit_within.trans complete_within

theorem discardUnit_within {r : Record} : Within s (s.discardUnit e r) := by
  unfold discardUnit; dsimp only; split
  · exact complete_within
  · exact ((refuseDetach_within.trans updUnit_within).trans endAllParked_within).trans later_within

theorem holdSnapshot_within {bs : List Byte} : Within s (s.holdSnapshot e bs) := updRequest_within

theorem queryChannel_within {r : Record} : Within s (s.queryChannel e r) := by
  unfold queryChannel; split
  · exact holdSnapshot_within
  · exact complete_within

theorem queryUnit_within {r : Record} : Within s (s.queryUnit e r) := by
  unfold queryUnit; split
  · exact complete_within
  · exact holdSnapshot_within.trans countSample_within

theorem queryLine_within {r : Record} : Within s (s.queryLine e r) := by
  unfold queryLine; dsimp only; split
  · exact complete_within
  · split
    · exact complete_within
    · exact holdSnapshot_within

theorem returnFetch_within : Within s (s.returnFetch c) := (updChannel_within (by apply neutral <;> rfl)).trans noteDrain_within

theorem freeWritten_within {entry : Option Nat} : Within s (s.freeWritten entry) := by
  cases entry with
  | none => exact .refl s
  | some _ => exact freeEntry_within

/-! ### The last refused command under the direct effects of a command -/

theorem fail_lastRefused {cause : FailureCause} : (s.fail cause).lastRefused = s.lastRefused := by
  unfold fail; split <;> rfl

theorem openChannel_lastRefused {r : Record} : (s.openChannel e r).lastRefused = s.lastRefused := by
  unfold openChannel; dsimp only; split
  · exact complete_within.lastRefused
  · exact complete_within.lastRefused

theorem closeChannel_lastRefused {r : Record} : (s.closeChannel e r).lastRefused = s.lastRefused := by
  unfold closeChannel; dsimp only; split
  · exact (leaveEventSet_within.trans complete_within).lastRefused
  · exact (stopService_within.trans noteDrain_within).lastRefused
  all_goals exact complete_within.lastRefused

theorem setParameters_lastRefused {r : Record} : (s.setParameters e r).lastRefused = s.lastRefused :=
  (comparePressure_within.trans complete_within).lastRefused

theorem route_lastRefused {r : Request} {k : Kind} : (s.route e r k).lastRefused = s.lastRefused := by
  cases k with
  | read => exact toDirectory_within.lastRefused
  | write => exact toDirectory_within.lastRefused
  | release => exact takeRelease_within.lastRefused
  | flush => exact takeFlush_within.lastRefused
  | survey => exact takeSurvey_within.lastRefused
  | barrier => exact takeBarrier_within.lastRefused
  | abandon => exact takeAbandon_within.lastRefused
  | channelOpen => exact openChannel_lastRefused
  | channelClose => exact closeChannel_lastRefused
  | unitAttach => exact attachUnit_within.lastRefused
  | unitDetach => exact detachUnit_within.lastRefused
  | unitDiscard => exact discardUnit_within.lastRefused
  | setParameters => exact setParameters_lastRefused
  | queryChannel => exact queryChannel_within.lastRefused
  | queryUnit => exact queryUnit_within.lastRefused
  | queryLine => exact queryLine_within.lastRefused

theorem takeRecord_lastRefused {r : Record} : (s.takeRecord c e r).lastRefused = s.lastRefused := by
  unfold takeRecord; dsimp only; split
  · exact complete_within.lastRefused
  · exact route_lastRefused
  · exact complete_within.lastRefused

theorem endFetch_lastRefused {result : Option Record} : (s.endFetch result).lastRefused = s.lastRefused := by
  unfold endFetch; split
  · rfl
  · dsimp only; split
    · rfl
    · split
      · split
        · exact takeRecord_lastRefused
        · exact returnFetch_within.lastRefused
      · split
        · exact fail_lastRefused.trans returnFetch_within.lastRefused
        · exact (returnFetch_within.trans fence_within).lastRefused

theorem badPost_lastRefused {cause : FenceCause} {failure : FailureCause} : (s.badPost c cause failure).lastRefused = s.lastRefused := by
  unfold badPost; split
  · exact fail_lastRefused
  · exact fence_within.lastRefused

theorem postTail_lastRefused {n : Nat} : (s.postTail c n).lastRefused = s.lastRefused := by
  unfold postTail; split
  · split
    · rfl
    · exact badPost_lastRefused
  · rfl

theorem postHead_lastRefused {n : Nat} : (s.postHead c n).lastRefused = s.lastRefused := by
  unfold postHead; split
  · split
    · rfl
    · exact badPost_lastRefused
  · rfl

theorem startCompletion_lastRefused {rest : List Nat} : (s.startCompletion c e rest).lastRefused = s.lastRefused := by
  unfold startCompletion; split <;> rfl

theorem recordPosted_lastRefused {w : RecordWrite} : (s.recordPosted c w).lastRefused = s.lastRefused := by
  unfold recordPosted; dsimp only; split <;> exact (freeWritten_within.trans noteDrain_within).lastRefused

theorem recordFailed_lastRefused {w : RecordWrite} : (s.recordFailed c w).lastRefused = s.lastRefused := by
  unfold recordFailed; dsimp only; split
  · exact fail_lastRefused.trans freeWritten_within.lastRefused
  · exact ((fence_within.trans freeWritten_within).trans noteDrain_within).lastRefused

theorem recordEndsInFailed_lastRefused {w : RecordWrite} {error : Bool} :
    (s.recordEndsInFailed c w error).lastRefused = s.lastRefused := by
  unfold recordEndsInFailed; dsimp only; split <;> rfl

theorem bootUp_lastRefused {b : Boot} : (s.bootUp b).lastRefused = s.lastRefused :=
  (comparePressure_within (s := s.setParams (some b.params))).lastRefused

theorem finish_lastRefused (h : t.lastRefused = s.lastRefused) : t.finish.lastRefused = s.lastRefused := finish_within.lastRefused.trans h

/-- R71, R154: both after the writes of a transfer in a part that is not FAILED, by what follows from their end, and in FAILED. -/
theorem afterWrites_lastRefused {f : State → State} (hw : Within s t) (hf : ∀ t : State, (f t).lastRefused = t.lastRefused) :
    (t.afterWrites e f).lastRefused = s.lastRefused := by
  unfold afterWrites; split
  · exact hw.lastRefused
  · exact finish_lastRefused ((hf t).trans hw.lastRefused)

theorem takeData_lastRefused {bs : List Byte} : (s.takeData u bs).lastRefused = s.lastRefused := by
  obtain ⟨m, -, h⟩ := takeData_within (s := s) (u := u) (bs := bs)
  exact h.lastRefused

end State

/-! ### The last refused command under each command -/

/-- R192: a step's outcome `o` in state `s` leaves the last refused command alone. -/
def KeepsRefused (s : State) (o : Host.Outcome State Fault Refusal) : Prop := ∀ t, o = .next t → t.lastRefused = s.lastRefused

namespace KeepsRefused

theorem next (h : t.lastRefused = s.lastRefused) : KeepsRefused s (.next t) := by rintro _ ⟨⟩; exact h

theorem same : KeepsRefused s (.next s) := next rfl

theorem finish (h : t.lastRefused = s.lastRefused) : KeepsRefused s (.next t.finish) := next (State.finish_lastRefused h)

theorem ite {p : Prop} [Decidable p] {a b : Host.Outcome State Fault Refusal} (ha : KeepsRefused s a) (hb : KeepsRefused s b) :
    KeepsRefused s (if p then a else b) := by
  split
  · exact ha
  · exact hb

theorem bootAddressWrite {high : Bool} {v : BitVec 32} : KeepsRefused s (execBootAddressWrite high v s) := by
  refine next ?_
  split <;> rfl

theorem bootReadEnd {result : Option (List Byte)} : KeepsRefused s (execBootReadEnd result s) := by
  unfold execBootReadEnd; split
  · split
    · exact next State.fail_lastRefused
    · refine next ?_
      split
      · exact State.bootUp_lastRefused
      · exact State.fail_lastRefused
  · exact same

theorem fetchGrant : KeepsRefused s (execFetchGrant s) := by
  unfold execFetchGrant; split
  · split
    · exact next rfl
    · exact same
    · exact same
  · exact same

theorem recordWriteStart : KeepsRefused s (execRecordWriteStart c s) := by
  unfold execRecordWriteStart; split
  · split
    · exact next State.startCompletion_lastRefused
    · exact ite (next rfl) same
    · exact same
  · exact same

theorem recordWriteEnd {error : Bool} : KeepsRefused s (execRecordWriteEnd c error s) := by
  unfold execRecordWriteEnd; split
  · exact same
  · refine ite (next State.recordEndsInFailed_lastRefused) (finish ?_)
    split
    · exact State.recordFailed_lastRefused
    · exact State.recordPosted_lastRefused

theorem readTransferComplete : KeepsRefused s (execReadTransferComplete e s) := by
  unfold execReadTransferComplete; split
  · exact next (State.afterWrites_lastRefused State.emitWrite_within fun _ => State.readComplete_within.lastRefused)
  · exact same

theorem readTransferError {written : Nat} : KeepsRefused s (execReadTransferError e written s) := by
  unfold execReadTransferError; split
  · exact next (State.afterWrites_lastRefused State.emitWrite_within fun _ => State.readError_within.lastRefused)
  · exact same

theorem writeTransferComplete {data : List Byte} : KeepsRefused s (execWriteTransferComplete e data s) := by
  unfold execWriteTransferComplete; split
  · exact finish State.writeComplete_within.lastRefused
  · exact same

theorem writeTransferError {placed : List Byte} : KeepsRefused s (execWriteTransferError e placed s) := by
  unfold execWriteTransferError; split
  · exact finish State.writeError_within.lastRefused
  · exact same

theorem surveyEntryWriteEnd {error : Option Nat} : KeepsRefused s (execSurveyEntryWriteEnd e error s) := by
  unfold execSurveyEntryWriteEnd; split
  · exact next (State.afterWrites_lastRefused State.emitWrite_within fun _ => State.complete_within.lastRefused)
  · exact same

theorem snapshotWriteEnd {error : Option Nat} : KeepsRefused s (execSnapshotWriteEnd e error s) := by
  unfold execSnapshotWriteEnd; split
  · exact next (State.afterWrites_lastRefused State.emitWrite_within fun _ => State.complete_within.lastRefused)
  · exact same

theorem setWaitDeadlineExpiry : KeepsRefused s (execSetWaitDeadlineExpiry e s) := by
  unfold execSetWaitDeadlineExpiry; split
  · exact finish (State.depart_within.trans State.complete_within).lastRefused
  · exact same

end KeepsRefused

/-- R192: RUN, QUIESCE, the two resets and a value that names no command apart, no command changes the last refused command. The 16 record kinds
end the fetch in flight; a unit's event acts on its sequencer or has no effect. -/
theorem exec_keepsRefused {i : Instr} (hrun : i ≠ .run) (hquiesce : i ≠ .quiesce) (hreset : i ≠ .reset) (hpower : i ≠ .powerOnReset)
    (hinvalid : ∀ v, i ≠ .invalidCommand v) : KeepsRefused s (exec i s) := by
  cases i with
  | run => contradiction
  | quiesce => contradiction
  | reset => contradiction
  | powerOnReset => contradiction
  | invalidCommand v => exact absurd rfl (hinvalid v)
  | bootAddressWrite => exact .bootAddressWrite
  | sqTail => exact .ite .same (.finish State.postTail_lastRefused)
  | cqHead => exact .ite .same (.finish State.postHead_lastRefused)
  | registerWriteIgnored => exact .same
  | bootReadEnd => exact .bootReadEnd
  | fetchGrant => exact .fetchGrant
  | fetchEnd | read | write | release | flush | survey | barrier | abandon | channelOpen | channelClose | unitAttach | unitDetach
  | unitDiscard | setParameters | queryChannel | queryUnit | queryLine => exact .finish State.endFetch_lastRefused
  | snapshotWriteEnd => exact .snapshotWriteEnd
  | recordWriteStart => exact .recordWriteStart
  | recordWriteEnd => exact .recordWriteEnd
  | readTransferComplete => exact .readTransferComplete
  | readTransferError => exact .readTransferError
  | writeTransferComplete => exact .writeTransferComplete
  | writeTransferError => exact .writeTransferError
  | surveyEntryWriteEnd => exact .surveyEntryWriteEnd
  | setWaitDeadlineExpiry => exact .setWaitDeadlineExpiry
  | recallDeadlineExpiry => exact .ite (.finish State.expireEpisode_within.lastRefused) .same
  | unitResponseLimitExpiry => exact .ite (.finish State.expireResponse_within.lastRefused) .same
  | arrived => exact .ite (.finish State.onArrived_within.lastRefused) .same
  | homeFound => exact .ite (.finish State.onHomeFound_within.lastRefused) .same
  | positionFault => exact .ite (.finish State.onPositionFault_within.lastRefused) .same
  | index => exact .ite (.finish (State.onIndex_within.lastRefused.trans State.takeData_lastRefused)) .same
  | header => exact .ite (.finish (State.onHeader_within.lastRefused.trans State.takeData_lastRefused)) .same
  | dataMark => exact .ite (.finish (State.onDataMark_within.lastRefused.trans State.takeData_lastRefused)) .same
  | dataEnd => exact .ite (.finish (State.onDataEnd_within.lastRefused.trans State.takeData_lastRefused)) .same
  | writeDone => exact .ite (.finish State.onWriteAnswer_within.lastRefused) .same
  | writeFault => exact .ite (.finish State.onWriteAnswer_within.lastRefused) .same
  | readyRise => exact .ite (.finish State.onReadyRise_within.lastRefused) .same
  | readyFall => exact .ite (.finish State.onReadyFall_within.lastRefused) .same
  | channelDrain => exact .ite .same (.finish State.drainCheck_within.lastRefused)
  | detachAwaitedReadsEnd => exact .ite .same (.finish State.detachTest_within.lastRefused)
  | discardThirdStage => exact .ite .same (.finish State.discardTest_within.lastRefused)
  | quiescedEntry => exact .next State.quiesceCheck_within.lastRefused

end Sys2Proof.Machine

namespace Sys2Proof.Proofs

open Sys2Proof Sys2Proof.Machine

/-- Settles O4: the table of RUN, QUIESCE, RESET and the other values by part state, the three values that name a command, and the last
refused command under every other command. -/
theorem controlWritesByPartState : Obligations.ControlWritesByPartState := by
  refine ⟨fun s => ⟨fun hp halign hfits => ?_, fun hp hbad => ?_, exec_run_quiesced, exec_run_refused, fun hp => ?_, exec_quiesce_refused,
    ⟨_, rfl, rfl, rfl⟩, fun v h1 h2 h3 => ⟨decodeWrite_invalidCommand h1 h2 h3, exec_invalidCommand h1 h2 h3⟩⟩, rfl, rfl, rfl, ?_⟩
  · rw [exec_run_halted hp, State.start_bootRead ((bootAddressOk_iff _).2 ⟨halign, hfits⟩)]
  · rw [exec_run_halted hp, State.start_bootInvalid hp (mt (bootAddressOk_iff _).1 hbad)]
  · rw [exec_quiesce_running hp, State.quiesceCheck_quiescing]
    split
    · exact .inr rfl
    · exact .inl rfl
  · intro i s t hrun hquiesce hreset hpower hinvalid
    exact exec_keepsRefused hrun hquiesce hreset hpower hinvalid t

end Sys2Proof.Proofs
end

section
/-! PROOF. The in-flight counts (R138, R154, R156, R157, R163): the number of entries that a channel holds, and that all work in motion keeps each
channel's in-flight count at that number. -/

namespace Sys2Proof.Machine

variable {s t u : State} {c e : Nat}

/-! ### The number of entries that a channel holds (R138) -/

theorem State.heldBy_congr (h : ∀ i, (t.request i).map Request.channel = (s.request i).map Request.channel) (c : Nat) : t.heldBy c = s.heldBy c := by
  have hany (x : State) (i : Nat) : (x.request i).any (fun r => r.channel == c) = ((x.request i).map Request.channel).any (· == c) := by
    cases x.request i <;> rfl
  rw [State.heldBy, State.heldBy]
  simp only [hany, h]

/-- An entry that is held counts once for its channel and for no other. -/
theorem State.heldBy_setRequest_none {r : Request} (he : e < 256) (hr : s.request e = some r) (c : Nat) :
    s.heldBy c = (s.setRequest e none).heldBy c + if r.channel = c then 1 else 0 := by
  let p := fun (x : State) (i : Nat) => (x.request i).any (fun q => q.channel == c)
  have hother (i : Nat) : p (s.setRequest e none) i = (p s i && i != e) := by
    by_cases hi : i = e
    · simp [p, hi]
    · simp [p, hi]
  have hfilter : (List.range 256).filter (p (s.setRequest e none)) = ((List.range 256).filter (p s)).erase e := by
    rw [(List.nodup_range.filter _).erase_eq_filter, List.filter_filter]
    exact List.filter_congr fun i _ => by rw [hother, Bool.and_comm]
  show ((List.range 256).filter (p s)).length = ((List.range 256).filter (p (s.setRequest e none))).length + _
  rw [hfilter]
  by_cases hc : r.channel = c
  · have hmem : e ∈ (List.range 256).filter (p s) := List.mem_filter.2 ⟨List.mem_range.2 he, by simp [p, hr, hc]⟩
    have := List.length_pos_of_mem hmem
    rw [List.length_erase_of_mem hmem, if_pos hc]
    omega
  · have hmem : e ∉ (List.range 256).filter (p s) := fun h => by simp [p, hr, hc] at h
    rw [List.erase_of_not_mem hmem, if_neg hc, Nat.add_zero]

/-- The counts of a state, with `a c` entries set aside for channel `c`. -/
structure State.Tallied (a : Nat → Nat) (s : State) : Prop where
  counts : ∀ c, (s.channel c).inFlight = s.heldBy c + a c
  entries : ∀ e, 256 ≤ e → s.request e = none
  drained : ∀ c, (s.channel c).state = .closed ∨ (s.channel c).state = .fenced → (s.channel c).inFlight = 0

theorem State.Tallied.lt {a : Nat → Nat} (h : s.Tallied a) {r : Request} (hr : s.request e = some r) : e < 256 := by
  by_contra hlt
  rw [h.entries e (by omega)] at hr
  cases hr

/-- What work in motion does to the request table and the in-flight counts: an entry held after it was held before by the same channel, and the
counts stay those of the table. -/
structure Tally (s t : State) : Prop where
  held : ∀ e q, t.request e = some q → ∃ r, s.request e = some r ∧ r.channel = q.channel
  keep : ∀ a, s.Tallied a → t.Tallied a

theorem Tally.refl (s : State) : Tally s s := ⟨fun _ q hq => ⟨q, hq, rfl⟩, fun _ h => h⟩

theorem Tally.trans (h : Tally s t) (h' : Tally t u) : Tally s u where
  held e q hq := by
    obtain ⟨r, hr, hrq⟩ := h'.held e q hq
    obtain ⟨r', hr', hrr⟩ := h.held e r hr
    exact ⟨r', hr', hrr.trans hrq⟩
  keep a hs := h'.keep a (h.keep a hs)

/-- A free entry stays free. -/
theorem Tally.free (h : Tally s t) (he : s.request e = none) : t.request e = none := by
  by_contra hne
  obtain ⟨q, hq⟩ := Option.ne_none_iff_exists'.1 hne
  obtain ⟨r, hr, -⟩ := h.held e q hq
  rw [he] at hr
  cases hr

/-- A change that leaves the request table and the channel contexts alone. -/
theorem Tally.of_eq (table : t.table = s.table) (channels : t.channels = s.channels) : Tally s t := by
  have hrequest (e : Nat) : t.request e = s.request e := by rw [State.request, State.request, table]
  have hchannel (c : Nat) : t.channel c = s.channel c := by rw [State.channel, State.channel, channels]
  refine ⟨fun e q hq => ⟨q, by rw [← hrequest]; exact hq, rfl⟩, fun a h => ⟨fun c => ?_, fun e he => ?_, fun c hc => ?_⟩⟩
  · rw [hchannel, State.heldBy_congr (s := s) (t := t) fun i => by rw [hrequest]]; exact h.counts c
  · rw [hrequest]; exact h.entries e he
  · rw [hchannel] at hc ⊢; exact h.drained c hc

/-- A CLOSED or FENCED channel has nothing in flight (R157). -/
def Channel.Drained (x : Channel) : Prop := x.state = .closed ∨ x.state = .fenced → x.inFlight = 0

namespace State

/-! ### The updates nearest to the state -/

theorem setLine_tally {k : Nat} {x : Line} : Tally s (s.setLine k x) := .of_eq rfl rfl
theorem setUnit_tally {u : Nat} {x : UnitRec} : Tally s (s.setUnit u x) := .of_eq rfl rfl
theorem setRef_tally {slot n : Nat} : Tally s (s.setRef slot n) := .of_eq rfl rfl
theorem setEpisode_tally {n : Nat} {x : Option Episode} : Tally s (s.setEpisode n x) := .of_eq rfl rfl
theorem setWaiters_tally {t : Nat} {l : List Nat} : Tally s (s.setWaiters t l) := .of_eq rfl rfl
theorem setOrder_tally {t : Nat} {l : List Nat} : Tally s (s.setOrder t l) := .of_eq rfl rfl
theorem updLine_tally {k : Nat} {f : Line → Line} : Tally s (s.updLine k f) := setLine_tally
theorem updUnit_tally {u : Nat} {f : UnitRec → UnitRec} : Tally s (s.updUnit u f) := setUnit_tally
theorem soon_tally {w : List Work} : Tally s (s.soon w) := .of_eq rfl rfl
theorem later_tally {w : List Work} : Tally s (s.later w) := .of_eq rfl rfl
theorem agenda_tally {w : List Work} : Tally s { s with agenda := w } := .of_eq rfl rfl
theorem slotWait_tally {l : List Nat} : Tally s { s with slotWait := l } := .of_eq rfl rfl
theorem episodeWait_tally {l : List Nat} : Tally s { s with episodeWait := l } := .of_eq rfl rfl
theorem joins_tally {n : Nat} : Tally s { s with joins := n } := .of_eq rfl rfl
theorem lines_tally {l : SMap Line} : Tally s { s with lines := l } := .of_eq rfl rfl
theorem store_tally {m : List Host.Cell} : Tally s (s.setStore m) := .of_eq rfl rfl
theorem emit_tally {o : Output} : Tally s (s.emit o) := .of_eq rfl rfl
theorem touch_tally {k : Nat} : Tally s (s.touch k) := setOrder_tally

/-- The entry of a held request replaced by a request of the same channel. -/
theorem setRequest_tally {r q : Request} (hr : s.request e = some r) (hq : q.channel = r.channel) : Tally s (s.setRequest e (some q)) where
  held i y hy := by
    rw [setRequest_request] at hy
    split at hy
    · next hi => cases hy; exact ⟨r, hi ▸ hr, hq.symm⟩
    · exact ⟨y, hy, rfl⟩
  keep a h := by
    refine ⟨fun c => ?_, fun i hi => ?_, h.drained⟩
    · rw [heldBy_congr (s := s) fun i => ?_]
      · exact h.counts c
      · rw [setRequest_request]
        split
        · next hi => rw [hi, hr, Option.map_some, Option.map_some, hq]
        · rfl
    · have hlt := h.lt hr
      rw [setRequest_request, if_neg (by omega)]
      exact h.entries i hi

theorem updRequest_tally {f : Request → Request} (hf : ∀ r, (f r).channel = r.channel) : Tally s (s.updRequest e f) := by
  rw [updRequest]
  cases hr : s.request e with
  | some r => exact setRequest_tally hr (hf r)
  | none =>
    have hsame (i : Nat) : (s.setRequest e none).request i = s.request i := by
      rw [setRequest_request]
      split
      · next hi => rw [hi, hr]
      · rfl
    exact ⟨fun i q hq => ⟨q, (hsame i).symm.trans hq, rfl⟩,
      fun a h => ⟨fun c => (h.counts c).trans (congrArg (· + a c) (heldBy_congr (s := s) (t := s.setRequest e none) (fun i => congrArg _ (hsame i)) c).symm),
        fun i hi => (hsame i).trans (h.entries i hi), h.drained⟩⟩

theorem park_tally {w : WaitList} : Tally s (s.park e w) := updRequest_tally fun _ => by rfl

/-- A channel context changed, its in-flight count kept; if it is drained it stays so. -/
theorem updChannel_tally {f : Channel → Channel}
    (h : (s.channel c).Drained → (f (s.channel c)).inFlight = (s.channel c).inFlight ∧ (f (s.channel c)).Drained) : Tally s (s.updChannel c f) where
  held _ q hq := ⟨q, hq, rfl⟩
  keep a hs := by
    obtain ⟨hcount, hdrained⟩ := h (hs.drained c)
    refine ⟨fun d => ?_, hs.entries, fun d hd => ?_⟩
    · rw [updChannel_channel]
      split
      · next hdc => rw [hcount, hdc]; exact hs.counts c
      · exact hs.counts d
    · rw [updChannel_channel] at hd ⊢
      split at hd
      · next hdc => rw [if_pos hdc]; exact hdrained hd
      · next hdc => rw [if_neg hdc]; exact hs.drained d hd

theorem inOrder_tally {f : State → State} (h : ∀ t, Tally t (f t)) : Tally s (s.inOrder f) :=
  (agenda_tally.trans (h _)).trans agenda_tally

theorem forEach_tally {α : Type} {l : List α} {f : α → State → State} (h : ∀ a t, Tally t (f a t)) : Tally s (s.forEach l f) := by
  unfold forEach
  induction l generalizing s with
  | nil => exact .refl s
  | cons a l ih => exact (inOrder_tally (h a)).trans ih

theorem foldl_tally {α : Type} {l : List α} {f : State → α → State} (h : ∀ t a, Tally t (f t a)) : Tally s (l.foldl f s) := by
  induction l generalizing s with
  | nil => exact .refl s
  | cons a l ih => exact (h s a).trans ih

/-! ### Ops -/

theorem takeRef_tally {slot : Nat} : Tally s (s.takeRef slot) := setRef_tally

theorem dropRef_tally {slot : Nat} : Tally s (s.dropRef slot) := by
  unfold dropRef; split
  · split
    · exact setRef_tally
    · exact (slotWait_tally.trans setRef_tally).trans soon_tally
  · exact setRef_tally

theorem dropSlot_tally {slot : Option Nat} : Tally s (s.dropSlot slot) := by
  cases slot with
  | none => exact .refl s
  | some _ => exact dropRef_tally

theorem noteEvictable_tally {k : Nat} : Tally s (s.noteEvictable k) := by
  unfold noteEvictable; split
  · exact .refl s
  · exact later_tally

theorem noteServe_tally {k : Nat} : Tally s (s.noteServe k) := by
  unfold noteServe; split
  · exact .refl s
  · exact later_tally

theorem noteDrain_tally {c : Nat} : Tally s (s.noteDrain c) := by
  unfold noteDrain; split
  all_goals first | exact later_tally | exact .refl s

theorem noteQuiesce_tally : Tally s s.noteQuiesce := by
  unfold noteQuiesce; split
  · exact later_tally
  · exact .refl s

theorem noteDiscard_tally {u : Nat} : Tally s (s.noteDiscard u) := by
  unfold noteDiscard; split
  · exact later_tally
  · exact .refl s

theorem noteDone_tally {c : Nat} : Tally s (s.noteDone c) := by
  unfold noteDone; split
  · exact later_tally
  · exact .refl s

theorem comparePressure_tally : Tally s s.comparePressure := by
  unfold comparePressure; split
  · exact .refl s
  · split <;> split <;> first | exact .refl s | exact .of_eq rfl rfl

theorem leaveFlushList_tally {k : Nat} {o n : Line} : Tally s (s.leaveFlushList k o n) := by
  unfold leaveFlushList; split
  · split
    · exact updUnit_tally
    · exact .refl s
  · exact .refl s

theorem joinFlushList_tally {k : Nat} {o n : Line} : Tally s (s.joinFlushList k o n) := by
  unfold joinFlushList; split
  · split
    · exact updUnit_tally.trans later_tally
    · exact .refl s
  · exact .refl s

theorem countStranded_tally {o n : Line} : Tally s (s.countStranded o n) := by
  unfold countStranded; split
  · split
    · exact updUnit_tally
    · exact .refl s
  · split
    · split
      · exact updUnit_tally
      · exact .refl s
    · exact .refl s

theorem countDirty_tally {o n : Line} : Tally s (s.countDirty o n) := by
  unfold countDirty; split
  · refine Tally.trans ?_ comparePressure_tally; exact .of_eq rfl rfl
  · refine Tally.trans ?_ comparePressure_tally; exact .of_eq rfl rfl
  · exact .refl s
  · exact .refl s

theorem putLine_tally {k : Nat} {x : Line} : Tally s (s.putLine k x) := by
  unfold putLine
  have h := (((setLine_tally (s := s) (k := k) (x := x)).trans (leaveFlushList_tally (k := k) (o := s.line k) (n := x))).trans
    (joinFlushList_tally (k := k) (o := s.line k) (n := x))).trans (countStranded_tally (o := s.line k) (n := x))
  have h := h.trans (countDirty_tally (o := s.line k) (n := x))
  dsimp only; split
  · exact h.trans noteQuiesce_tally
  · exact h

theorem freeLine_tally {k : Nat} : Tally s (s.freeLine k) := (putLine_tally.trans dropSlot_tally).trans dropSlot_tally

/-- A held entry freed and its channel's in-flight count lowered. -/
theorem vacate_tally {r : Request} (hr : s.request e = some r) :
    Tally s ((s.setRequest e none).updChannel r.channel (fun x => { x with inFlight := x.inFlight - 1 })) where
  held i q hq := by
    have hq : (s.setRequest e none).request i = some q := hq
    rw [setRequest_request] at hq
    split at hq
    · cases hq
    · exact ⟨q, hq, rfl⟩
  keep a h := by
    have hlt := h.lt hr
    have hheld (d : Nat) := heldBy_setRequest_none hlt hr d
    refine ⟨fun d => ?_, fun i hi => ?_, fun d hd => ?_⟩
    · show (((s.setRequest e none).updChannel r.channel _).channel d).inFlight = (s.setRequest e none).heldBy d + a d
      have hcount := h.counts d
      rw [hheld d] at hcount
      rw [updChannel_channel]
      split
      · next hd =>
        subst hd
        rw [if_pos rfl] at hcount
        show (s.channel r.channel).inFlight - 1 = _
        omega
      · next hd =>
        rw [if_neg (Ne.symm hd)] at hcount
        exact hcount
    · show (s.setRequest e none).request i = none
      rw [setRequest_request, if_neg (by omega)]
      exact h.entries i hi
    · rw [updChannel_channel] at hd ⊢
      split
      · next hdr =>
        rw [if_pos hdr] at hd
        have := h.drained r.channel hd
        show (s.channel r.channel).inFlight - 1 = 0
        omega
      · next hdr =>
        rw [if_neg hdr] at hd
        exact h.drained d hd

theorem freeEntry_tally {e : Nat} : Tally s (s.freeEntry e) := by
  unfold freeEntry; split
  · exact .refl s
  · next r hr =>
    have h : Tally s (((s.setRequest e none).updChannel r.channel (fun x => { x with inFlight := x.inFlight - 1 })).noteDrain r.channel) :=
      (vacate_tally hr).trans noteDrain_tally
    dsimp only; split
    · split
      · exact h.trans noteQuiesce_tally
      · exact h
    · exact h

theorem discardRecord_tally {e : Nat} : Tally s (s.discardRecord e) := by
  unfold discardRecord; split
  · exact .refl s
  · exact (updChannel_tally (fun h => ⟨rfl, h⟩)).trans freeEntry_tally

theorem complete_tally {e : Nat} {x : Completion} : Tally s (s.complete e x) := by
  unfold complete; split
  · exact .refl s
  · next r hr =>
    split
    · exact .refl s
    · dsimp only; split
      · exact ((setRequest_tally hr (by rfl)).trans discardRecord_tally).trans noteDone_tally
      · exact ((setRequest_tally hr (by rfl)).trans (updChannel_tally (fun h => ⟨rfl, h⟩))).trans noteDone_tally

/-! ### Holds -/

theorem endWritePhase_tally {k : Nat} : Tally s (s.endWritePhase k) :=
  (updLine_tally.trans noteServe_tally).trans noteEvictable_tally

theorem startWriteTransfer_tally {e slot : Nat} : Tally s (s.startWriteTransfer e slot) := by
  unfold startWriteTransfer; split
  · exact .refl s
  · next r hr => exact (setRequest_tally hr (by rfl)).trans emit_tally

theorem proceed_tally {e : Nat} : Tally s (s.proceed e) := by
  unfold proceed; split
  · exact takeRef_tally.trans startWriteTransfer_tally
  · exact slotWait_tally.trans park_tally

theorem withdrawRecalls_tally {n : Nat} {l : List Nat} : Tally s (s.withdrawRecalls n l) :=
  foldl_tally fun _ _ => updChannel_tally (fun h => ⟨rfl, h⟩)

theorem freeEpisode_tally {n : Nat} : Tally s (s.freeEpisode n) := by
  unfold freeEpisode; split
  · exact .refl s
  · next ep _ =>
    have h : Tally s (((s.setEpisode n none).updLine ep.line (fun x => { x with episode := none })).withdrawRecalls n ep.recalled) :=
      (setEpisode_tally.trans updLine_tally).trans withdrawRecalls_tally
    dsimp only; split
    · exact h
    · exact h.trans later_tally

theorem closeEpisode_tally {n : Nat} : Tally s (s.closeEpisode n) := by
  unfold closeEpisode; split
  · exact .refl s
  · exact freeEpisode_tally.trans proceed_tally

theorem episodeCheck_tally {n : Nat} : Tally s (s.episodeCheck n) := by
  unfold episodeCheck; split
  · exact .refl s
  · split
    · exact closeEpisode_tally
    · exact .refl s

theorem episodeWaitCheck_tally {k : Nat} : Tally s (s.episodeWaitCheck k) := by
  unfold episodeWaitCheck; split
  · exact .refl s
  · split
    · exact .refl s
    · split
      · exact episodeWait_tally.trans proceed_tally
      · exact .refl s

theorem leavePending_tally {c : Nat} {n : Option Nat} : Tally s (s.leavePending c n) := by
  unfold leavePending; split
  · exact .refl s
  · split
    · exact .refl s
    · split
      · exact setEpisode_tally.trans later_tally
      · exact .refl s

theorem dropHold_tally {c k : Nat} : Tally s (s.dropHold c k) := by
  unfold dropHold; dsimp only
  refine Tally.trans ?_ noteEvictable_tally
  have h := ((updLine_tally (s := s) (k := k) (f := fun x => { x with holders := leaveList c x.holders })).trans
    (updChannel_tally (c := c) (f := fun x => { x with holdCount := x.holdCount - 1 })
      (fun h => ⟨rfl, h⟩))).trans (leavePending_tally (c := c) (n := (s.line k).episode))
  split
  · split
    · exact h.trans later_tally
    · exact h
  · exact h

theorem dropAllHolds_tally {c : Nat} : Tally s (s.dropAllHolds c) := forEach_tally fun _ _ => dropHold_tally

theorem applyHold_tally {c k : Nat} {h : Hold} : Tally s (s.applyHold c k h) := by
  unfold applyHold; split
  · exact .refl s
  · exact .refl s
  · exact updLine_tally.trans (updChannel_tally (fun h => ⟨rfl, h⟩))

/-! ### Ending, fences, notices, episodes -/

theorem leaveLineList_tally {e k : Nat} : Tally s (s.leaveLineList e k) := by
  unfold leaveLineList; dsimp only
  refine Tally.trans ?_ noteEvictable_tally
  split
  · exact updLine_tally.trans noteServe_tally
  · exact updLine_tally

theorem depart_tally {e : Nat} {r : Request} : Tally s (s.depart e r) := by
  unfold depart; split
  · exact .refl s
  · exact .refl s
  · exact .refl s
  · exact setWaiters_tally
  · dsimp only; split
    · exact slotWait_tally.trans endWritePhase_tally
    · exact slotWait_tally
  · split
    · exact leaveLineList_tally
    · exact .refl s
  · split
    · exact freeEpisode_tally.trans endWritePhase_tally
    · exact freeEpisode_tally
  · dsimp only; split
    · exact episodeWait_tally.trans endWritePhase_tally
    · exact episodeWait_tally
  · exact updUnit_tally
  · exact updUnit_tally
  · exact updChannel_tally (fun h => ⟨rfl, h⟩)

theorem endParked_tally {e : Nat} {st : Status} : Tally s (s.endParked e st) := by
  unfold endParked; split
  · exact .refl s
  · split
    · exact depart_tally.trans complete_tally
    · exact .refl s

theorem endAllParked_tally {p : Request → Bool} {st : Status} : Tally s (s.endAllParked p st) :=
  forEach_tally fun _ _ => endParked_tally

theorem enterPostError_tally {c : Nat} : Tally s (s.enterPostError c) :=
  (updChannel_tally (fun h => ⟨rfl, h⟩)).trans (forEach_tally fun _ _ => discardRecord_tally)

theorem stopService_tally {c : Nat} {st : Status} : Tally s (s.stopService c st) :=
  (dropAllHolds_tally.trans (updChannel_tally (fun h => ⟨rfl, h⟩))).trans endAllParked_tally

/-- A FENCING channel need not be drained. -/
theorem fencing_drained {x : Channel} (h : x.state = .fencing) : x.Drained := by
  rintro (hx | hx) <;> rw [h] at hx <;> cases hx

/-- A fence keeps the counts. -/
theorem fence_tally {c : Nat} {cause : FenceCause} : Tally s (s.fence c cause) := by
  unfold fence; split
  · exact .refl s
  · next hc =>
    split
    · next ho =>
      have h : Tally s ((s.updChannel c (fun x => { x with state := .fencing, cause })).stopService c .fenced) :=
        (updChannel_tally fun _ => ⟨rfl, fencing_drained rfl⟩).trans stopService_tally
      dsimp only; split
      · exact (h.trans enterPostError_tally).trans noteDrain_tally
      · exact h.trans noteDrain_tally
    · next ho =>
      split
      · have h : Tally s (s.updChannel c (fun x => { x with state := .fencing, cause, closePending := true })) :=
          updChannel_tally fun _ => ⟨rfl, fencing_drained rfl⟩
        dsimp only; split
        · exact (h.trans enterPostError_tally).trans noteDrain_tally
        · exact h.trans noteDrain_tally
      · exact .refl s
    · split
      · exact enterPostError_tally.trans noteDrain_tally
      · exact .refl s
    · exact .refl s
    · exact .refl s

/-- A notice keeps the counts. -/
theorem queueNotice_tally {c : Nat} {n : Notice} : Tally s (s.queueNotice c n) := by
  unfold queueNotice; split
  · exact .refl s
  · split
    · exact updChannel_tally fun h => ⟨rfl, h⟩
    · split
      · exact updChannel_tally fun h => ⟨rfl, h⟩
      · exact fence_tally

theorem queueToEach_tally {l : List Nat} {n : Notice} : Tally s (s.queueToEach l n) := forEach_tally fun _ _ => queueNotice_tally

theorem openEpisode_tally {e k n : Nat} {r : Request} {l : List Nat} : Tally s (s.openEpisode e k n r l) :=
  (((setEpisode_tally.trans updLine_tally).trans park_tally).trans queueToEach_tally).trans episodeCheck_tally

theorem takeWriter_tally {e k : Nat} : Tally s (s.takeWriter e k) := by
  unfold takeWriter; split
  · exact .refl s
  · dsimp only; split
    · exact proceed_tally
    · split
      · exact openEpisode_tally
      · exact episodeWait_tally.trans park_tally

theorem episodeFreed_tally : Tally s s.episodeFreed := by
  unfold episodeFreed; split
  · exact .refl s
  · split
    · split
      · dsimp only; split
        · exact (episodeWait_tally.trans proceed_tally).trans soon_tally
        · exact episodeWait_tally.trans takeWriter_tally
      · exact .refl s
    · exact .refl s

theorem becomeWriter_tally {e k : Nat} : Tally s (s.becomeWriter e k) :=
  (updLine_tally.trans (updRequest_tally fun _ => by rfl)).trans takeWriter_tally

theorem revoke_tally {n c : Nat} {ep : Episode} : Tally s (s.revoke n ep c) := by
  unfold revoke; dsimp only
  have h : Tally s ((s.dropHold c ep.line).queueNotice c (.revoked ep.key n)) := dropHold_tally.trans queueNotice_tally
  split
  · exact (h.trans (updChannel_tally fun h => ⟨rfl, h⟩)).trans fence_tally
  · exact h.trans (updChannel_tally fun h => ⟨rfl, h⟩)

theorem expireEpisode_tally {n : Nat} : Tally s (s.expireEpisode n) := by
  unfold expireEpisode; split
  · exact .refl s
  · exact forEach_tally fun _ _ => revoke_tally

/-! ### The directory -/

theorem startRead_tally {e k : Nat} : Tally s (s.startRead e k) := by
  unfold startRead; split
  · next r _ hr _ => exact (takeRef_tally.trans (setRequest_tally hr (by rfl))).trans touch_tally
  · exact .refl s
  · exact .refl s

theorem joinLine_tally {e k : Nat} : Tally s (s.joinLine e k) := updLine_tally.trans (updRequest_tally fun _ => by rfl)

theorem arrive_tally {e k : Nat} : Tally s (s.arrive e k) := by
  unfold arrive; dsimp only; split
  · split
    · exact joinLine_tally
    · exact startRead_tally
  · split
    · exact joinLine_tally
    · exact becomeWriter_tally
  · exact .refl s

theorem serveList_tally {k : Nat} {l : List Nat} : Tally s (serveList k l s) := by
  induction l generalizing s with
  | nil => exact updLine_tally
  | cons e l ih =>
    unfold serveList; dsimp only; split
    · exact (updLine_tally.trans startRead_tally).trans ih
    · exact updLine_tally.trans becomeWriter_tally
    · exact updLine_tally.trans ih

theorem serveLine_tally {k : Nat} : Tally s (s.serveLine k) := by
  unfold serveLine; dsimp only; split
  · exact .refl s
  · exact serveList_tally

theorem joinSetWait_tally {e : Nat} {r : Request} (hr : s.request e = some r) : Tally s (s.joinSetWait e r) := by
  unfold joinSetWait; dsimp only; split
  · exact (setWaiters_tally.trans (setRequest_tally hr (by rfl))).trans joins_tally
  · split
    · exact complete_tally
    · exact setWaiters_tally.trans park_tally

theorem moveSameKey_tally {t k : Nat} {key : Key} : Tally s (s.moveSameKey t k key) :=
  setWaiters_tally.trans (foldl_tally fun _ _ => joinLine_tally.trans (updRequest_tally fun _ => by rfl))

theorem comparePressure_table : s.comparePressure.table = s.table := by
  unfold comparePressure; split
  · rfl
  · split <;> split <;> rfl

theorem putLine_table {k : Nat} {x : Line} : (s.putLine k x).table = s.table := by
  have hleave : ((s.setLine k x).leaveFlushList k (s.line k) x).table = s.table := by
    unfold leaveFlushList; split
    · split <;> rfl
    · rfl
  have hjoin (t : State) : (t.joinFlushList k (s.line k) x).table = t.table := by
    unfold joinFlushList; split
    · split <;> rfl
    · rfl
  have hstranded (t : State) : (t.countStranded (s.line k) x).table = t.table := by
    unfold countStranded; split
    · split <;> rfl
    · split
      · split <;> rfl
      · rfl
  have hdirty (t : State) : (t.countDirty (s.line k) x).table = t.table := by
    unfold countDirty; split
    · exact comparePressure_table
    · exact comparePressure_table
    · rfl
    · rfl
  have hquiesce (t : State) : t.noteQuiesce.table = t.table := by
    unfold noteQuiesce; split <;> rfl
  have h := ((hdirty _).trans (hstranded _)).trans ((hjoin _).trans hleave)
  unfold putLine; dsimp only; split
  · exact (hquiesce _).trans h
  · exact h

theorem putLine_request {k : Nat} {x : Line} : (s.putLine k x).request e = s.request e := by
  rw [State.request, State.request, putLine_table]

theorem claimFill_tally {e k slot : Nat} {r : Request} (hr : s.request e = some r) : Tally s (s.claimFill e k slot r) :=
  (((((putLine_tally.trans setRef_tally).trans (setRequest_tally (putLine_request.trans hr) (by rfl))).trans touch_tally).trans
    updUnit_tally).trans later_tally).trans moveSameKey_tally

theorem claimLoad_tally {e k slot : Nat} {r : Request} (hr : s.request e = some r) : Tally s (s.claimLoad e k slot r) :=
  ((((putLine_tally.trans setRef_tally).trans (setRequest_tally (putLine_request.trans hr) (by rfl))).trans startWriteTransfer_tally).trans
    touch_tally).trans moveSameKey_tally

theorem claim_tally {e k slot : Nat} {r : Request} (hr : s.request e = some r) : Tally s (s.claim e k slot r) := by
  unfold claim; split
  · exact claimFill_tally hr
  · exact claimLoad_tally hr

theorem allocate_tally {e : Nat} {hand : Option Nat} {r : Request} (hr : s.request e = some r) : Tally s (s.allocate e hand r) := by
  unfold allocate; dsimp only; split
  · exact complete_tally.trans dropSlot_tally
  · split
    · exact claim_tally hr
    · split
      · split
        · exact (putLine_tally.trans (claim_tally (putLine_request.trans hr))).trans dropSlot_tally
        · exact dropSlot_tally
      · split
        · exact slotWait_tally.trans park_tally
        · exact (joinSetWait_tally hr).trans dropSlot_tally

theorem toDirectory_tally {e : Nat} {hand : Option Nat} : Tally s (s.toDirectory e hand) := by
  unfold toDirectory; split
  · exact dropSlot_tally
  · next r hr =>
    split
    · exact arrive_tally.trans dropSlot_tally
    · exact allocate_tally hr

theorem redispatch_tally {e : Nat} : Tally s (s.redispatch e) :=
  (updRequest_tally (f := fun r => { r with place := .routed, line := none }) fun _ => rfl).trans toDirectory_tally

theorem reattempt_tally {t : Nat} : Tally s (s.reattempt t) := by
  unfold reattempt; split
  · exact .refl s
  · split
    · exact setWaiters_tally.trans soon_tally
    · next r hr =>
      split
      · exact (setWaiters_tally.trans soon_tally).trans (allocate_tally hr)
      · exact .refl s

theorem evictCheck_tally {k : Nat} : Tally s (s.evictCheck k) := by
  unfold evictCheck; split
  · exact reattempt_tally
  · exact .refl s

theorem slotGiven_tally {e slot : Nat} : Tally s (s.slotGiven e slot) := by
  unfold slotGiven; split
  · exact dropRef_tally
  · split
    · exact dropRef_tally
    · split
      · exact startWriteTransfer_tally
      · exact toDirectory_tally

theorem unparkAll_tally {l : List Nat} : Tally s (s.unparkAll l) := foldl_tally fun _ _ => updRequest_tally fun _ => by rfl

theorem fillOutcome_tally {k : Nat} {st : Status} {m : Mark} : Tally s (s.fillOutcome k st m) := by
  unfold fillOutcome; dsimp only; split
  · exact .refl s
  · split
    · exact ((putLine_tally.trans touch_tally).trans serveLine_tally).trans noteEvictable_tally
    · exact (unparkAll_tally.trans soon_tally).trans freeLine_tally

theorem handOn_tally {e : Nat} {st : Status} : Tally s (s.handOn e st) := by
  unfold handOn; split
  · exact complete_tally
  · exact redispatch_tally
  · exact .refl s

theorem endAwaited_tally {u e : Nat} : Tally s (s.endAwaited u e) := by
  unfold endAwaited; split
  · exact .refl s
  · split
    · dsimp only; split
      · exact updUnit_tally.trans later_tally
      · exact updUnit_tally
    · exact .refl s

theorem noteTransferEnd_tally {e u : Nat} : Tally s (s.noteTransferEnd e u) := endAwaited_tally.trans noteDiscard_tally

theorem readComplete_tally {e k slot : Nat} {r : Request} : Tally s (s.readComplete e r k slot) :=
  ((applyHold_tally.trans soon_tally).trans dropRef_tally).trans noteTransferEnd_tally

theorem readError_tally {e k slot : Nat} {r : Request} : Tally s (s.readError e r k slot) :=
  (soon_tally.trans dropRef_tally).trans noteTransferEnd_tally

theorem swap_tally {k slot : Nat} {e : Epoch} : Tally s (s.swap k slot e) := by
  unfold swap; dsimp only; split
  · exact (putLine_tally.trans touch_tally).trans dropRef_tally
  · exact (putLine_tally.trans touch_tally).trans dropSlot_tally


theorem writeComplete_tally {e k slot : Nat} {r : Request} {data : List Byte} :
    Tally s (s.writeComplete e r k slot data) :=
  ((store_tally.trans soon_tally).trans swap_tally).trans noteTransferEnd_tally

theorem afterSwap_tally {e : Nat} : Tally s (s.afterSwap e) := by
  unfold afterSwap; split
  · exact .refl s
  · split
    · exact .refl s
    · exact ((applyHold_tally.trans complete_tally).trans updLine_tally).trans serveLine_tally

theorem writeError_tally {e k slot : Nat} {r : Request} {placed : List Byte} :
    Tally s (s.writeError e r k slot placed) := by
  have hstore : Tally s (s.setStore (Memory.writeBytes s.store (slot * Config.slotBytes) (placed.take Config.slotBytes))) := store_tally
  unfold writeError; dsimp only; refine hstore.trans ?_; split
  · exact (((unparkAll_tally.trans soon_tally).trans dropRef_tally).trans freeLine_tally).trans noteTransferEnd_tally
  · exact (soon_tally.trans dropRef_tally).trans noteTransferEnd_tally

/-! ### Write-back -/

theorem flushOutcome_tally {k : Nat} {st : Status} : Tally s (s.flushOutcome k st) := by
  unfold flushOutcome; dsimp only; split
  · exact (soon_tally.trans putLine_tally).trans dropSlot_tally
  · exact .refl s

theorem noteStranded_tally {k : Nat} {st : Status} : Tally s (s.noteStranded k st) := by
  unfold noteStranded; dsimp only; split
  · exact queueNotice_tally
  · exact .refl s

theorem retestList_tally {u : Nat} {l : List Barrier} : Tally s (retestList u l s) := by
  induction l generalizing s with
  | nil => exact .refl s
  | cons b l ih =>
    unfold retestList; split
    · exact .refl s
    · exact (updUnit_tally.trans complete_tally).trans ih

theorem retest_tally {u : Nat} : Tally s (s.retest u) := retestList_tally

theorem adjustEpochs_tally {u : Nat} : Tally s (s.adjustEpochs u) := by
  unfold adjustEpochs
  exact updUnit_tally.trans lines_tally

theorem takeFlush_tally {e u : Nat} : Tally s (s.takeFlush e u) := by
  unfold takeFlush; dsimp only; split
  · exact ((updUnit_tally.trans adjustEpochs_tally).trans updUnit_tally).trans park_tally
  · exact (updUnit_tally.trans adjustEpochs_tally).trans complete_tally

/-! ### The sequencers -/

theorem updOp_tally {u : Nat} {f : Operation → Operation} : Tally s (s.updOp u f) := updUnit_tally
theorem setDeadline_tally {u : Nat} : Tally s (s.setDeadline u) := updOp_tally
theorem enter_tally {u : Nat} {q : SeqState} : Tally s (s.enter u q) := updUnit_tally.trans setDeadline_tally
theorem loseHead_tally {u : Nat} : Tally s (s.loseHead u) := updUnit_tally

theorem closeGate_tally {u : Nat} : Tally s (s.closeGate u) := by
  unfold closeGate; split
  · exact updUnit_tally.trans emit_tally
  · exact .refl s

theorem report_tally {u : Nat} {op : Operation} {st : Status} {m : Mark} : Tally s (s.report u op st m) := by
  unfold report; split
  · exact soon_tally
  · exact soon_tally
  · split
    · exact (updRequest_tally (f := fun r => { r with survey := some ⟨op.entries, op.overflow⟩ }) fun _ => rfl).trans soon_tally
    · exact soon_tally

theorem endOp_tally {u : Nat} {st : Status} {m : Mark} : Tally s (s.endOp u st m) := by
  unfold endOp; split
  · exact .refl s
  · dsimp only; split
    · exact closeGate_tally.trans updUnit_tally
    · exact ((closeGate_tally.trans updUnit_tally).trans report_tally).trans noteDiscard_tally

theorem seekError_tally {u : Nat} : Tally s (s.seekError u) := loseHead_tally.trans endOp_tally
theorem startHoming_tally {u : Nat} : Tally s (s.startHoming u) := (updUnit_tally.trans enter_tally).trans emit_tally
theorem startMove_tally {u t : Nat} : Tally s (s.startMove u t) := (updUnit_tally.trans enter_tally).trans emit_tally
theorem startVerify_tally {u : Nat} : Tally s (s.startVerify u) := updOp_tally.trans enter_tally

theorem startSearch_tally {u : Nat} {op : Operation} : Tally s (s.startSearch u op) := by
  unfold startSearch; split <;> exact updOp_tally.trans enter_tally

theorem beginOp_tally {u : Nat} {op : Operation} : Tally s (s.beginOp u op) := by
  unfold beginOp; dsimp only
  have h : Tally s (if (s.unit u).selectedSurface = some op.surface then s
    else (s.updUnit u (fun y => { y with selectedSurface := some op.surface })).emit (.select u op.surface)) := by
    split
    · exact .refl s
    · exact updUnit_tally.trans emit_tally
  split
  · exact h.trans startHoming_tally
  · split
    · exact h.trans startMove_tally
    · split
      · exact h.trans startVerify_tally
      · exact h.trans startSearch_tally

theorem countSample_tally : Tally s s.countSample := .of_eq rfl rfl

theorem startFlush_tally {u : Nat} {f : FlushEntry} {sw : Sweep} : Tally s (s.startFlush u f sw) := by
  have h : Tally s (match (s.line f.line).currentSlot with
      | some slot => (s.putLine f.line { s.line f.line with state := .flushing, flushSource := (s.line f.line).currentSlot }).takeRef slot
      | none => s.putLine f.line { s.line f.line with state := .flushing, flushSource := (s.line f.line).currentSlot }) := by
    split
    · exact putLine_tally.trans takeRef_tally
    · exact putLine_tally
  unfold startFlush; dsimp only; split
  · exact ((h.trans updUnit_tally).trans countSample_tally).trans endOp_tally
  · exact (((h.trans updUnit_tally).trans countSample_tally).trans updUnit_tally).trans beginOp_tally

theorem startFill_tally {u k : Nat} {l : List Nat} : Tally s (s.startFill u k l) := updUnit_tally.trans beginOp_tally

theorem startSurvey_tally {u e : Nat} {l : List Nat} : Tally s (s.startSurvey u e l) := by
  unfold startSurvey; split
  · exact updUnit_tally
  · exact (updUnit_tally.trans (updRequest_tally (f := fun r => { r with place := .active }) fun _ => rfl)).trans beginOp_tally

theorem select_tally {u : Nat} : Tally s (s.select u) := by
  unfold select; dsimp only; split
  · split
    · exact startFlush_tally
    · split
      · exact startFill_tally
      · exact startSurvey_tally
      · split
        · exact startFlush_tally
        · exact .refl s
  · exact .refl s

theorem seeHeader_tally {u : Nat} {h : Header} : Tally s (s.seeHeader u h) := by
  unfold seeHeader; split
  · exact updUnit_tally
  · exact .refl s

theorem writeField_tally {u k : Nat} : Tally s (s.writeField u k) := (updUnit_tally.trans enter_tally).trans emit_tally

theorem examine_tally {u : Nat} {o : Operation} {h : Header} : Tally s (s.examine u o h) := by
  unfold examine; dsimp only; split
  · split
    · split
      · exact (seeHeader_tally.trans updOp_tally).trans enter_tally
      · exact seeHeader_tally.trans writeField_tally
      · exact seeHeader_tally.trans setDeadline_tally
    · exact (seeHeader_tally.trans updOp_tally).trans setDeadline_tally
  · exact seeHeader_tally.trans setDeadline_tally

theorem resumeSearch_tally {u : Nat} {h : Option Header} : Tally s (s.resumeSearch u h) := by
  unfold resumeSearch; split
  · exact .refl s
  · split
    · exact endOp_tally
    · dsimp only; split
      · exact (updOp_tally.trans enter_tally).trans examine_tally
      · exact updOp_tally.trans enter_tally

theorem badRead_tally {u : Nat} {h : Option Header} : Tally s (s.badRead u h) := by
  unfold badRead; split
  · exact .refl s
  · dsimp only; split
    · exact updOp_tally.trans endOp_tally
    · exact updOp_tally.trans resumeSearch_tally


theorem takeData_tally {u : Nat} {bs : List Byte} : Tally s (s.takeData u bs) := by
  unfold takeData; split
  · exact .refl s
  · split <;> exact .of_eq rfl rfl

theorem onArrived_tally {u : Nat} : Tally s (s.onArrived u) := by
  unfold onArrived; split
  · exact updUnit_tally.trans startVerify_tally
  · exact .refl s

theorem onHomeFound_tally {u : Nat} : Tally s (s.onHomeFound u) := by
  unfold onHomeFound; split
  · dsimp only; split
    · exact updUnit_tally.trans startVerify_tally
    · exact updUnit_tally.trans startMove_tally
  · exact .refl s

theorem onPositionFault_tally {u : Nat} : Tally s (s.onPositionFault u) := seekError_tally

theorem onIndex_tally {u : Nat} : Tally s (s.onIndex u) := by
  unfold onIndex; split
  · exact .refl s
  · dsimp only; split
    · exact .refl s
    · exact .refl s
    · exact .refl s
    · split
      · exact updOp_tally.trans seekError_tally
      · exact updOp_tally.trans setDeadline_tally
    · split
      · exact updOp_tally.trans endOp_tally
      · exact updOp_tally.trans setDeadline_tally
    · split
      · split
        · split
          · exact updOp_tally.trans badRead_tally
          · exact updOp_tally.trans resumeSearch_tally
        · exact updOp_tally.trans setDeadline_tally
      · exact .refl s
      · exact .refl s
    · split
      · exact endOp_tally
      · exact updOp_tally.trans setDeadline_tally

theorem verifyHeader_tally {u : Nat} {o : Operation} {h : Header} : Tally s (s.verifyHeader u o h) := by
  unfold verifyHeader; split
  · exact .refl s
  · split
    · dsimp only; split
      · exact (updUnit_tally.trans startSearch_tally).trans examine_tally
      · exact (updUnit_tally.trans startSearch_tally).trans examine_tally
      · exact updUnit_tally.trans startSearch_tally
    · split
      · exact seekError_tally
      · exact updOp_tally.trans startHoming_tally

theorem onHeader_tally {u : Nat} {h : Header} : Tally s (s.onHeader u h) := by
  unfold onHeader; split
  · exact seeHeader_tally
  · exact verifyHeader_tally
  · exact examine_tally
  · split
    · split
      · exact badRead_tally
      · exact resumeSearch_tally
    · exact .refl s
    · exact .refl s
  · exact (seeHeader_tally.trans updOp_tally).trans setDeadline_tally
  · exact .refl s

theorem onDataMark_tally {u : Nat} {m : Mark} : Tally s (s.onDataMark u m) := by
  unfold onDataMark; split
  · split
    · split
      · exact badRead_tally
      · exact updOp_tally.trans setDeadline_tally
    · exact .refl s
    · exact .refl s
  · exact .refl s

theorem onDataEnd_tally {u : Nat} {c : BitVec 16} : Tally s (s.onDataEnd u c) := by
  unfold onDataEnd; split
  · split
    · split
      · exact endOp_tally
      · exact badRead_tally
    · exact .refl s
  · exact .refl s

theorem onWriteAnswer_tally {u : Nat} {st : Status} : Tally s (s.onWriteAnswer u st) := by
  unfold onWriteAnswer; split
  · split
    · exact endOp_tally
    · exact .refl s
    · exact .refl s
  · exact .refl s

theorem tellFall_tally {u : Nat} {fills surveys : List Nat} : Tally s (s.tellFall u fills surveys) := by
  unfold tellFall; split
  · exact .refl s
  · exact soon_tally

theorem fallFromReady_tally {u : Nat} : Tally s (s.fallFromReady u) :=
  (((updUnit_tally.trans tellFall_tally).trans endOp_tally).trans updUnit_tally).trans noteQuiesce_tally

theorem onReadyFall_tally {u : Nat} : Tally s (s.onReadyFall u) := by
  unfold onReadyFall; dsimp only; split
  · exact updUnit_tally.trans fallFromReady_tally
  · exact updUnit_tally

theorem onReadyRise_tally {u : Nat} : Tally s (s.onReadyRise u) := by
  unfold onReadyRise; dsimp only; split
  · exact updUnit_tally
  · split
    · exact ((updUnit_tally.trans updUnit_tally).trans queueNotice_tally).trans later_tally
    · exact updUnit_tally

theorem expireResponse_tally {u : Nat} : Tally s (s.expireResponse u) := by
  unfold expireResponse; split
  · exact .refl s
  · split
    · exact seekError_tally
    · exact .refl s

theorem takeSurvey_tally {e u : Nat} : Tally s (s.takeSurvey e u) := by
  unfold takeSurvey; split
  · exact complete_tally
  · split
    · exact complete_tally
    · exact (updUnit_tally.trans park_tally).trans later_tally

/-! ### Administration -/

theorem leaveEventSet_tally {c : Nat} : Tally s (s.leaveEventSet c) := .of_eq rfl rfl

theorem completeClose_tally {c : Nat} : Tally s (s.completeClose c) := by
  unfold completeClose; split
  · exact .refl s
  · exact (updChannel_tally (fun h => ⟨rfl, h⟩)).trans complete_tally

theorem drainCheck_tally {c : Nat} : Tally s (s.drainCheck c) := by
  unfold drainCheck; dsimp only; split
  · next hquiet =>
    have hdown (state : ChannelState) : Tally s (s.updChannel c (fun x => { x with state })) :=
      updChannel_tally fun _ => ⟨rfl, fun _ => hquiet.1⟩
    split
    · exact ((hdown .closed).trans leaveEventSet_tally).trans completeClose_tally
    · have h := ((hdown .fenced).trans (leaveEventSet_tally (c := c))).trans (queueNotice_tally (c := 0) (n := .channelFenced c (s.channel c).cause))
      have hst : (((s.updChannel c (fun x => { x with state := .fenced })).leaveEventSet c).channel c).state = .fenced := by
        rw [leaveEventSet_channel]; simp
      split
      · refine (h.trans (updChannel_tally fun hd => ⟨rfl, fun _ => hd ?_⟩)).trans completeClose_tally
        exact (queueNotice_state_ne_open (c := 0) (n := .channelFenced c (s.channel c).cause) hst).symm
      · exact h
    · exact .refl s
    · exact .refl s
    · exact .refl s
  · exact .refl s

theorem freeHeldLine_tally {k : Nat} : Tally s (s.freeHeldLine k) := by
  unfold freeHeldLine; dsimp only
  have h : Tally s ((s.forEach (s.line k).holders (fun c t => t.dropHold c k)).freeLine k) :=
    (forEach_tally fun _ _ => dropHold_tally).trans freeLine_tally
  split
  · exact h
  · exact h.trans later_tally

theorem continueSlots_tally (n : Nat) : ∀ {s : State}, Tally s (State.continueSlots n s) := by
  induction n with
  | zero => exact .refl _
  | succ n ih =>
    intro s
    unfold continueSlots; split
    · exact ((agenda_tally (w := _)).trans slotGiven_tally).trans ih
    · exact .refl s

theorem freeUnitLine_tally {u k : Nat} : Tally s (s.freeUnitLine u k) := by
  unfold freeUnitLine; split
  · exact freeHeldLine_tally.trans (continueSlots_tally _)
  · exact .refl s

theorem freeUnit_tally {u : Nat} : Tally s (s.freeUnit u) := (forEach_tally fun _ _ => freeUnitLine_tally).trans queueToEach_tally

theorem carryOutDetach_tally {e u : Nat} : Tally s (s.carryOutDetach e u) :=
  (((freeUnit_tally.trans retest_tally).trans updUnit_tally).trans complete_tally).trans noteQuiesce_tally

theorem detachTest_tally {u : Nat} : Tally s (s.detachTest u) := by
  unfold detachTest; split
  · exact .refl s
  · split
    · dsimp only; split
      · exact updUnit_tally.trans complete_tally
      · exact updUnit_tally.trans carryOutDetach_tally
    · exact .refl s

theorem thirdStage_tally {e u : Nat} : Tally s (s.thirdStage e u) :=
  (((freeUnit_tally.trans retest_tally).trans updUnit_tally).trans later_tally).trans complete_tally

theorem discardTest_tally {u : Nat} : Tally s (s.discardTest u) := by
  unfold discardTest; split
  · exact .refl s
  · split
    · exact thirdStage_tally
    · exact .refl s

theorem barrierTest_tally {c : Nat} : Tally s (s.barrierTest c) := by
  unfold barrierTest; split
  · exact .refl s
  · split
    · exact .refl s
    · split
      · exact .refl s
      · exact (updChannel_tally (fun h => ⟨rfl, h⟩)).trans complete_tally

theorem quiesceCheck_tally : Tally s s.quiesceCheck := by
  unfold quiesceCheck; split
  · exact .of_eq rfl rfl
  · exact .refl s

/-! ### The end of a step -/

/-- Every piece of work keeps the counts. -/
theorem runWork_tally {w : Work} : Tally s (runWork w s) := by
  cases w with
  | slotGiven => exact slotGiven_tally
  | handOn => exact handOn_tally
  | redispatch => exact redispatch_tally
  | reattempt => exact reattempt_tally
  | evictCheck => exact evictCheck_tally
  | serve => exact serveLine_tally
  | episodeCheck => exact episodeCheck_tally
  | episodeFreed => exact episodeFreed_tally
  | episodeWaitCheck => exact episodeWaitCheck_tally
  | barrierTest => exact barrierTest_tally
  | drainCheck => exact drainCheck_tally
  | quiesceCheck => exact quiesceCheck_tally
  | detachTest => exact detachTest_tally
  | discardTest => exact discardTest_tally
  | select => exact select_tally
  | fillOutcome => exact fillOutcome_tally
  | flushOutcome => exact flushOutcome_tally
  | stranded => exact noteStranded_tally
  | retest => exact retest_tally
  | afterSwap => exact afterSwap_tally
  | endWritePhase => exact endWritePhase_tally
  | complete => exact complete_tally
  | endParked => exact endParked_tally
  | notice => exact queueNotice_tally

theorem settle_tally {n : Nat} : Tally s (settle n s) := by
  induction n generalizing s with
  | zero => exact .refl s
  | succ n ih =>
    unfold settle; split
    · exact .refl s
    · exact (agenda_tally.trans runWork_tally).trans ih

/-- The end of a step keeps the counts. -/
theorem finish_tally : Tally s s.finish := settle_tally.trans agenda_tally

/-! ### What commands do directly -/

theorem emitWrite_tally {a : Nat} {data : List Byte} {error : Option Nat} : Tally s (s.emitWrite a data error) := by
  unfold emitWrite
  extract_lets sent
  split
  · exact .refl s
  · exact emit_tally

theorem takeRelease_tally {r : Record} : Tally s (s.takeRelease e c r) := by
  unfold takeRelease; split
  · unfold releaseEpisode; split
    · split
      · exact dropHold_tally.trans complete_tally
      · exact complete_tally
    · exact complete_tally
  · unfold releaseKey; split
    · split
      · exact dropHold_tally.trans complete_tally
      · exact complete_tally
    · exact complete_tally

theorem takeBarrier_tally {r : Request} : Tally s (s.takeBarrier e r) := by
  unfold takeBarrier; split
  · exact (updChannel_tally (fun h => ⟨rfl, h⟩)).trans park_tally
  · exact complete_tally

theorem takeAbandon_tally {r : Record} : Tally s (s.takeAbandon e c r) := by
  unfold takeAbandon; split
  · exact complete_tally
  · split
    · exact endParked_tally.trans complete_tally
    · exact complete_tally

theorem attachUnit_tally {r : Record} : Tally s (s.attachUnit e r) := by
  unfold attachUnit; dsimp only; split
  · exact setUnit_tally.trans complete_tally
  · exact complete_tally

theorem detachUnit_tally {r : Record} : Tally s (s.detachUnit e r) := by
  unfold detachUnit; dsimp only; split
  · exact complete_tally
  · split
    · exact complete_tally
    · split
      · exact carryOutDetach_tally
      · exact updUnit_tally

theorem refuseDetach_tally {u : Nat} : Tally s (s.refuseDetach u) := by
  unfold refuseDetach; split
  · exact .refl s
  · exact updUnit_tally.trans complete_tally

theorem discardUnit_tally {r : Record} : Tally s (s.discardUnit e r) := by
  unfold discardUnit; dsimp only; split
  · exact complete_tally
  · exact ((refuseDetach_tally.trans updUnit_tally).trans endAllParked_tally).trans later_tally

theorem holdSnapshot_tally {bs : List Byte} : Tally s (s.holdSnapshot e bs) :=
  updRequest_tally fun _ => by rfl

theorem queryChannel_tally {r : Record} : Tally s (s.queryChannel e r) := by
  unfold queryChannel; split
  · exact holdSnapshot_tally
  · exact complete_tally

theorem queryUnit_tally {r : Record} : Tally s (s.queryUnit e r) := by
  unfold queryUnit; split
  · exact complete_tally
  · exact holdSnapshot_tally.trans countSample_tally

theorem queryLine_tally {r : Record} : Tally s (s.queryLine e r) := by
  unfold queryLine; dsimp only; split
  · exact complete_tally
  · split
    · exact complete_tally
    · exact holdSnapshot_tally

theorem freeWritten_tally {entry : Option Nat} : Tally s (s.freeWritten entry) := by
  cases entry with
  | none => exact .refl s
  | some _ => exact freeEntry_tally

end State

/-! ### The fetch in flight (R162, R163) -/

/-- The entry set aside for the fetch in flight counts for its channel. -/
def State.setAside (s : State) (c : Nat) : Nat := if s.fetch.any (fun f => f.channel == c) then 1 else 0

theorem State.setAside_some {f : Fetch} (h : s.fetch = some f) (c : Nat) : s.setAside c = if f.channel = c then 1 else 0 := by
  simp [setAside, h]

theorem State.setAside_none (h : s.fetch = none) (c : Nat) : s.setAside c = 0 := by simp [setAside, h]

/-- An entry that was free and is now held counts once for its channel. -/
theorem State.heldBy_setRequest_some {r : Request} (he : e < 256) (hfree : s.request e = none) (c : Nat) :
    (s.setRequest e (some r)).heldBy c = s.heldBy c + if r.channel = c then 1 else 0 := by
  rw [heldBy_setRequest_none (s := s.setRequest e (some r)) (r := r) he (by simp) c]
  congr 1
  refine heldBy_congr (fun i => ?_) c
  by_cases hi : i = e
  · simp [hi, hfree]
  · simp [hi]

namespace State.InFlightCounted

theorem tallied (h : s.InFlightCounted) : s.Tallied s.setAside := ⟨h.counts, h.entries, h.drained⟩

/-- Work in motion keeps the counts. -/
theorem of_tally (h : s.InFlightCounted) (ht : Tally s t) (hfetch : t.fetch = s.fetch)
    (hboot : t.part = .halted ∨ t.part = .starting → (t.channel 0).state = .closed) : t.InFlightCounted := by
  have hkept := ht.keep _ h.tallied
  refine ⟨fun c => ?_, fun f hf => ?_, hkept.entries, hkept.drained, hboot⟩
  · rw [hfetch]
    exact hkept.counts c
  · rw [hfetch] at hf
    obtain ⟨hlt, hfree⟩ := h.aside f hf
    exact ⟨hlt, ht.free hfree⟩

/-- R138, R163: the record that the fetch in flight returns is entered in the entry set aside. -/
theorem taken {f : Fetch} {r : Request} (h : s.InFlightCounted) (hf : s.fetch = some f) (hr : r.channel = f.channel)
    (hrequest : ∀ i, t.request i = (s.setRequest f.entry (some r)).request i) (hfetch : t.fetch = none) (hpart : t.part = s.part)
    (hcount : ∀ d, (t.channel d).inFlight = (s.channel d).inFlight) (hstate : ∀ d, (t.channel d).state = (s.channel d).state) :
    t.InFlightCounted := by
  obtain ⟨hlt, hfree⟩ := h.aside f hf
  refine ⟨fun d => ?_, fun g hg => ?_, fun i hi => ?_, fun d hd => ?_, fun hp => ?_⟩
  · have hcounts : (s.channel d).inFlight = s.heldBy d + s.setAside d := h.counts d
    rw [hcount, hcounts, heldBy_congr (fun i => congrArg _ (hrequest i)) d, heldBy_setRequest_some hlt hfree, s.setAside_some hf, hr, hfetch]
    simp
  · rw [hfetch] at hg; cases hg
  · rw [hrequest, setRequest_request, if_neg (by omega)]
    exact h.entries i hi
  · rw [hstate] at hd
    rw [hcount, h.drained d hd]
  · rw [hpart] at hp
    rw [hstate, h.boot hp]

/-- R163: the fetch in flight ends, and its channel's in-flight count falls. -/
theorem returned {f : Fetch} (h : s.InFlightCounted) (hf : s.fetch = some f) (htable : t.table = s.table) (hfetch : t.fetch = none)
    (hpart : t.part = s.part) (hcount : ∀ d, (t.channel d).inFlight = (s.channel d).inFlight - if f.channel = d then 1 else 0)
    (hstate : ∀ d, (t.channel d).state = (s.channel d).state) : t.InFlightCounted := by
  have hrequest (i : Nat) : t.request i = s.request i := by rw [request, request, htable]
  refine ⟨fun d => ?_, fun g hg => ?_, fun i hi => (hrequest i).trans (h.entries i hi), fun d hd => ?_, fun hp => ?_⟩
  · have hcounts : (s.channel d).inFlight = s.heldBy d + s.setAside d := h.counts d
    rw [hcount, hcounts, heldBy_congr (fun i => congrArg _ (hrequest i)) d, s.setAside_some hf]
    simp [hfetch]
  · rw [hfetch] at hg; cases hg
  · rw [hstate] at hd
    rw [hcount, h.drained d hd, Nat.zero_sub]
  · rw [hpart] at hp
    rw [hstate, h.boot hp]

/-- R162: a fetch is granted to an OPEN channel with a free entry set aside. -/
theorem granted (h : s.InFlightCounted) (hnone : s.fetch = none) (he : e < 256) (hfree : s.request e = none) (htable : t.table = s.table)
    (hopen : (s.channel c).state = .open) (hfetch : t.fetch = some ⟨c, e⟩) (hpart : t.part = s.part)
    (hcount : ∀ d, (t.channel d).inFlight = (s.channel d).inFlight + if c = d then 1 else 0)
    (hstate : ∀ d, (t.channel d).state = (s.channel d).state) : t.InFlightCounted := by
  have hrequest (i : Nat) : t.request i = s.request i := by rw [request, request, htable]
  refine ⟨fun d => ?_, fun g hg => ?_, fun i hi => (hrequest i).trans (h.entries i hi), fun d hd => ?_, fun hp => ?_⟩
  · have hcounts : (s.channel d).inFlight = s.heldBy d + s.setAside d := h.counts d
    rw [hcount, hcounts, heldBy_congr (fun i => congrArg _ (hrequest i)) d, s.setAside_none hnone]
    simp [hfetch]
  · rw [hfetch] at hg; cases hg
    exact ⟨he, (hrequest e).trans hfree⟩
  · rw [hstate] at hd
    have hne : c ≠ d := by
      rintro rfl
      rw [hopen] at hd
      rcases hd with hd | hd <;> cases hd
    rw [hcount, h.drained d hd, if_neg hne]
  · rw [hpart] at hp
    rw [hstate, h.boot hp]

end State.InFlightCounted

end Sys2Proof.Machine
end

section
/-! PROOF. What one command can do to the part as a whole, said once for all commands but the two resets: it answers a next state, it leaves the
queue and the clock alone, it keeps the laws and the line store, and it leaves no work behind. It rests on `Within`, which says this of all work in
motion; what is missing there is said here of the direct effects of a command. -/

namespace Sys2Proof.Machine

variable {s t u : State} {c e n : Nat}

/-! ### The laws, channel by channel -/

/-- The laws that concern one channel's context (R44, R158, R166, R167). -/
structure Channel.Lawful (c : Nat) (x : Channel) : Prop where
  backlog : x.backlog.length ≤ backlogLimit c
  admin : c = 0 → (x.state = .closed ∨ x.state = .open) ∧ x.cause = .none
  revoke : x.revokeCount ≤ Config.revokeCeiling
  lost : x.lost ≤ Config.lostLimit

theorem State.lawful_iff (s : State) :
    s.Lawful ↔ (∀ c, Channel.Lawful c (s.channel c)) ∧ s.CauseMatches ∧ s.StoreCanonical := by
  constructor
  · intro h
    exact ⟨fun c => ⟨h.backlogs c, fun h0 => h0 ▸ h.admin, (h.counts c).1, (h.counts c).2⟩, h.cause, h.store⟩
  · rintro ⟨hc, hcause, hstore⟩
    exact ⟨fun c => (hc c).backlog, (hc 0).admin rfl, hcause, fun c => ⟨(hc c).revoke, (hc c).lost⟩, hstore⟩

/-- Work in motion keeps the laws of a channel. -/
theorem Channel.Within.lawful {x y : Channel} (h : Channel.Within c x y) (hx : Channel.Lawful c x) : Channel.Lawful c y where
  backlog := h.backlog.trans (max_le hx.backlog le_rfl)
  admin h0 := by
    obtain ⟨hstate, hcause⟩ := hx.admin h0
    obtain ⟨hstate', hcause'⟩ := h.admin h0 hstate.symm
    rw [hstate', hcause']
    exact ⟨hstate, hcause⟩
  revoke := h.revoke.trans (max_le hx.revoke le_rfl)
  lost := h.lost.trans (max_le hx.lost le_rfl)

/-! ### What a command's direct effects can do -/

/-- What a command, its work in motion included, can do to the part: from `s` to `t`. -/
structure Moves (s t : State) : Prop where
  pending : t.pending = s.pending
  now : t.now = s.now
  store : t.store = s.store
  channels : s.Lawful → ∀ c, Channel.Lawful c (t.channel c)
  cause : s.CauseMatches → t.CauseMatches
  failed : s.part = .failed → t.part = .failed
  counted : t.part ≠ .failed → s.InFlightCounted → t.InFlightCounted

theorem Moves.lawful (h : Moves s t) (hs : s.Lawful) : t.Lawful :=
  t.lawful_iff.2 ⟨h.channels hs, h.cause hs.cause, by rw [State.StoreCanonical, h.store]; exact hs.store⟩

theorem Moves.trans (a : Moves s t) (b : Moves t u) : Moves s u where
  pending := b.pending.trans a.pending
  now := b.now.trans a.now
  store := b.store.trans a.store
  channels hs := b.channels (a.lawful hs)
  cause hs := b.cause (a.cause hs)
  failed hp := b.failed (a.failed hp)
  counted hp hs := b.counted hp (a.counted (mt b.failed hp) hs)

/-- Work in motion moves the part, and keeps the in-flight counts at what the table holds. -/
theorem Within.moves (h : Within s t) (h' : Tally s t) : Moves s t where
  pending := h.pending
  now := h.now
  store := h.store
  channels hs c := (h.channel c).lawful ((s.lawful_iff.1 hs).1 c)
  cause hs := by
    rw [State.CauseMatches] at hs ⊢
    rw [h.failure, ← hs]
    rcases h.part with hp | ⟨hp, hp'⟩
    · rw [hp]
    · simp [hp, hp']
  failed hp := by
    rcases h.part with hp' | ⟨hp', -⟩
    · rw [hp', hp]
    · rw [hp'] at hp; cases hp
  counted _ hs := by
    have hboot : t.part = .halted ∨ t.part = .starting → (t.channel 0).state = .closed := by
      intro hp
      have hpart : t.part = s.part := by
        rcases h.part with hp' | ⟨-, hp'⟩
        · exact hp'
        · rcases hp with hp | hp <;> rw [hp'] at hp <;> cases hp
      rw [hpart] at hp
      have hclosed := hs.boot hp
      rw [((h.channel 0).admin rfl (.inr hclosed)).1, hclosed]
    exact hs.of_tally h' h.fetch hboot

theorem Moves.refl (s : State) : Moves s s := (Within.refl s).moves (.refl s)

/-- A change that leaves the channel contexts, the request table and the fetch alone, and the part state unless neither side is FAILED. -/
theorem Moves.of_part (pending : t.pending = s.pending) (now : t.now = s.now) (store : t.store = s.store) (channels : t.channels = s.channels)
    (failure : t.failure = s.failure)
    (part : t.part = s.part ∨ (s.part ≠ .failed ∧ t.part ≠ .failed) ∧ (t.part = .halted ∨ t.part = .starting → s.part = .halted))
    (table : t.table = s.table) (fetch : t.fetch = s.fetch) : Moves s t where
  pending := pending
  now := now
  store := store
  channels hs c := by rw [State.channel, channels]; exact (s.lawful_iff.1 hs).1 c
  cause hs := by
    rw [State.CauseMatches] at hs ⊢
    rw [failure, ← hs]
    rcases part with hp | ⟨⟨hp, hp'⟩, -⟩
    · rw [hp]
    · simp [hp, hp']
  failed hp := by
    rcases part with hp' | ⟨⟨hp', -⟩, -⟩
    · rw [hp', hp]
    · exact absurd hp hp'
  counted _ hs := by
    refine hs.of_tally (.of_eq table channels) fetch fun hp => ?_
    rw [State.channel, channels]
    rcases part with hp' | ⟨-, hp'⟩
    · rw [hp'] at hp; exact hs.boot hp
    · exact hs.boot (.inl (hp' hp))

/-- A channel context replaced by one that keeps the laws and, where it stood by its drained channel, its in-flight count. -/
theorem Moves.setChannel {x : Channel} (h : Channel.Lawful c (s.channel c) → Channel.Lawful c x)
    (count : (s.channel c).Drained → x.inFlight = (s.channel c).inFlight ∧ x.Drained)
    (boot : s.part = .halted ∨ s.part = .starting → (s.channel c).state = .closed → c = 0 → x.state = .closed) :
    Moves s (s.setChannel c x) where
  pending := rfl
  now := rfl
  store := rfl
  channels hs d := by
    have hlaws := (s.lawful_iff.1 hs).1
    rw [State.setChannel_channel]
    split
    · next hd => subst hd; exact h (hlaws d)
    · exact hlaws d
  cause hs := hs
  failed hp := hp
  counted _ hs := by
    refine hs.of_tally (State.updChannel_tally (c := c) (f := fun _ => x) count) rfl fun hp => ?_
    rw [State.setChannel_channel]
    split
    · next h0 => exact boot hp (h0 ▸ hs.boot hp) h0.symm
    · exact hs.boot hp

/-- A change of a channel context outside the fields that the laws speak of. -/
theorem Moves.updChannel {f : Channel → Channel} (backlog : (f (s.channel c)).backlog = (s.channel c).backlog)
    (state : (f (s.channel c)).state = (s.channel c).state) (cause : (f (s.channel c)).cause = (s.channel c).cause)
    (revoke : (f (s.channel c)).revokeCount = (s.channel c).revokeCount) (lost : (f (s.channel c)).lost = (s.channel c).lost)
    (inFlight : (f (s.channel c)).inFlight = (s.channel c).inFlight) : Moves s (s.updChannel c f) :=
  .setChannel (fun h => ⟨by rw [backlog]; exact h.backlog, by rw [state, cause]; exact h.admin, by rw [revoke]; exact h.revoke,
      by rw [lost]; exact h.lost⟩)
    (fun h => ⟨inFlight, fun hd => inFlight.trans (h (state ▸ hd))⟩) fun _ h _ => state.trans h

namespace State

theorem fail_moves {cause : FailureCause} (h : cause ≠ .none) : Moves s (s.fail cause) := by
  unfold fail; split
  · exact .refl s
  · exact ⟨rfl, rfl, rfl, fun hs => (s.lawful_iff.1 hs).1, fun _ => by simp [CauseMatches, h], fun _ => rfl, fun hp => absurd rfl hp⟩

/-! ### Administration of a channel (R176, R177) -/

/-- A channel at open keeps the laws, channel 0 too. -/
theorem openedChannel_lawful {rings : Rings} {limit : Nat} {intr : Bool} {quota revoke : Nat} :
    Channel.Lawful c (openedChannel rings limit intr quota revoke) :=
  ⟨Nat.zero_le _, fun _ => ⟨.inr rfl, rfl⟩, Nat.zero_le _, Nat.zero_le _⟩

theorem openChannel_moves {r : Record} (hc : r.channel ≠ 0) : Moves s (s.openChannel e r) := by
  unfold openChannel; extract_lets; split
  · next hclosed =>
    exact (Moves.setChannel (fun _ => openedChannel_lawful) (fun h => ⟨(h (.inl hclosed)).symm, fun _ => rfl⟩)
      fun _ _ h0 => absurd h0 hc).trans (complete_within.moves complete_tally)
  · exact complete_within.moves complete_tally

/-- A data channel's context with its state replaced, a drained channel's by any. -/
theorem updState_moves {f : Channel → Channel} (hc : c ≠ 0)
    (count : (s.channel c).Drained → (f (s.channel c)).inFlight = (s.channel c).inFlight ∧ (f (s.channel c)).Drained) (backlog : (f (s.channel c)).backlog = (s.channel c).backlog)
    (revoke : (f (s.channel c)).revokeCount = (s.channel c).revokeCount) (lost : (f (s.channel c)).lost = (s.channel c).lost) :
    Moves s (s.updChannel c f) :=
  .setChannel (fun h => ⟨by rw [backlog]; exact h.backlog, fun h0 => absurd h0 hc, by rw [revoke]; exact h.revoke, by rw [lost]; exact h.lost⟩)
    count fun _ _ h0 => absurd h0 hc

theorem closeChannel_moves {r : Record} (hc : r.channel ≠ 0) : Moves s (s.closeChannel e r) := by
  unfold closeChannel; extract_lets; split
  · next hfenced =>
    exact (updState_moves hc (fun h => ⟨rfl, fun _ => h (.inr hfenced)⟩) rfl rfl rfl).trans
      ((leaveEventSet_within.trans complete_within).moves (leaveEventSet_tally.trans complete_tally))
  · exact (updState_moves hc (fun _ => ⟨rfl, fun h => by rcases h with h | h <;> cases h⟩) rfl rfl rfl).trans
      ((stopService_within.trans noteDrain_within).moves (stopService_tally.trans noteDrain_tally))
  all_goals exact complete_within.moves complete_tally

theorem setParams_moves {p : Option Params} : Moves s (s.setParams p) := .of_part rfl rfl rfl rfl rfl (.inl rfl) rfl rfl

theorem setParameters_moves {r : Record} : Moves s (s.setParameters e r) :=
  setParams_moves.trans ((comparePressure_within.trans complete_within).moves (comparePressure_tally.trans complete_tally))

/-! ### A record taken (R138, R141, R147, R163) -/

/-- R176, R177: a CHANNEL_OPEN or CHANNEL_CLOSE that passes validation names a data channel. -/
theorem channel_ne_zero_of_validate {r : Record} {k : Kind} (hv : s.validate c r = none) (hk : r.kindOf = some k)
    (h : k = .channelOpen ∨ k = .channelClose) : r.channel ≠ 0 := by
  have hf : r.fieldsOk k = true := by
    by_contra hf
    simp only [validate, hk, hf] at hv
    split at hv <;> simp at hv
  rw [Record.fieldsOk, Bool.and_eq_true] at hf
  obtain ⟨-, hranges⟩ := hf
  rcases h with h | h
  · subst h
    simp only [Record.rangesOk, Bool.and_eq_true, decide_eq_true_eq] at hranges
    omega
  · subst h
    have : 1 ≤ r.channel ∧ r.channel ≤ 15 := of_decide_eq_true hranges
    omega

theorem route_moves {r : Request} {k : Kind} (hr : s.request e = some r) (h : k = .channelOpen ∨ k = .channelClose → r.record.channel ≠ 0) :
    Moves s (s.route e r k) := by
  have hadmin : Moves s (s.setRequest e (some { r with place := .active })) := setRequest_within.moves (setRequest_tally hr rfl)
  cases k with
  | read => exact toDirectory_within.moves toDirectory_tally
  | write => exact toDirectory_within.moves toDirectory_tally
  | release => exact takeRelease_within.moves takeRelease_tally
  | flush => exact takeFlush_within.moves takeFlush_tally
  | survey => exact takeSurvey_within.moves takeSurvey_tally
  | barrier => exact takeBarrier_within.moves takeBarrier_tally
  | abandon => exact takeAbandon_within.moves takeAbandon_tally
  | channelOpen => exact hadmin.trans (openChannel_moves (h (.inl rfl)))
  | channelClose => exact hadmin.trans (closeChannel_moves (h (.inr rfl)))
  | unitAttach => exact hadmin.trans (attachUnit_within.moves attachUnit_tally)
  | unitDetach => exact hadmin.trans (detachUnit_within.moves detachUnit_tally)
  | unitDiscard => exact hadmin.trans (discardUnit_within.moves discardUnit_tally)
  | setParameters => exact hadmin.trans setParameters_moves
  | queryChannel => exact hadmin.trans (queryChannel_within.moves queryChannel_tally)
  | queryUnit => exact hadmin.trans (queryUnit_within.moves queryUnit_tally)
  | queryLine => exact hadmin.trans (queryLine_within.moves queryLine_tally)

/-- R138, R139, R163: the fetch in flight ends with its record entered in the entry set aside. -/
theorem enterRecord_moves {f : Fetch} {r : Record} (hf : s.fetch = some f) :
    Moves s ((s.setFetch none).enterRecord f.channel f.entry r) := by
  have hlaws : Moves (s.setFetch none) ((s.setFetch none).updChannel f.channel
      (fun x => { x with arrivals := x.arrivals + 1, sqHead := nextIndex x.sqSize x.sqHead })) := .updChannel rfl rfl rfl rfl rfl rfl
  refine ⟨rfl, rfl, rfl, fun hs => hlaws.channels ⟨hs.backlogs, hs.admin, hs.cause, hs.counts, hs.store⟩, fun hs => hs, fun hp => hp, fun _ hs => ?_⟩
  have hchannel (d : Nat) : (((s.setFetch none).enterRecord f.channel f.entry r).channel d).inFlight = (s.channel d).inFlight
      ∧ (((s.setFetch none).enterRecord f.channel f.entry r).channel d).state = (s.channel d).state := by
    rw [enterRecord, updChannel_channel]
    split
    · next hd => subst hd; exact ⟨rfl, rfl⟩
    · exact ⟨rfl, rfl⟩
  exact hs.taken (r := s.newRequest f.channel r) hf rfl (fun _ => rfl) rfl rfl (fun d => (hchannel d).1) fun d => (hchannel d).2

theorem takeRecord_moves {f : Fetch} {r : Record} (hf : s.fetch = some f) :
    Moves s ((s.setFetch none).takeRecord f.channel f.entry r) := by
  have henter : Moves s ((s.setFetch none).enterRecord f.channel f.entry r) := enterRecord_moves hf
  unfold takeRecord; extract_lets; split
  · exact henter.trans (complete_within.moves complete_tally)
  · next k hv hk =>
    exact henter.trans (route_moves (by simp [enterRecord]) (channel_ne_zero_of_validate hv hk))
  · exact henter.trans (complete_within.moves complete_tally)

/-- R163: the fetch in flight ends without its record being taken. -/
theorem returnFetch_moves {f : Fetch} (hf : s.fetch = some f) : Moves s ((s.setFetch none).returnFetch f.channel) := by
  have hlower : Moves s ((s.setFetch none).updChannel f.channel (fun x => { x with reserved := x.reserved - 1, inFlight := x.inFlight - 1 })) := by
    refine ⟨rfl, rfl, rfl, fun hs d => ?_, fun hs => hs, fun hp => hp, fun _ hs => ?_⟩
    · have hd := (s.lawful_iff.1 hs).1 d
      rw [updChannel_channel]
      split
      · next hd' => subst hd'; exact ⟨hd.backlog, hd.admin, hd.revoke, hd.lost⟩
      · exact hd
    · have hchannel (d : Nat) :
          (((s.setFetch none).updChannel f.channel (fun x => { x with reserved := x.reserved - 1, inFlight := x.inFlight - 1 })).channel d).inFlight
            = (s.channel d).inFlight - (if f.channel = d then 1 else 0)
          ∧ (((s.setFetch none).updChannel f.channel (fun x => { x with reserved := x.reserved - 1, inFlight := x.inFlight - 1 })).channel d).state
            = (s.channel d).state := by
        rw [updChannel_channel]
        split
        · next hd => subst hd; rw [if_pos rfl]; exact ⟨rfl, rfl⟩
        · next hd => rw [if_neg (Ne.symm hd)]; exact ⟨rfl, rfl⟩
      exact hs.returned hf rfl rfl rfl (fun d => (hchannel d).1) fun d => (hchannel d).2
  exact hlower.trans (noteDrain_within.moves noteDrain_tally)

theorem endFetch_moves {result : Option Record} : Moves s (s.endFetch result) := by
  unfold endFetch; split
  · exact .refl s
  · next f hf =>
    extract_lets; split
    · next hp => exact ⟨rfl, rfl, rfl, fun hs => (s.lawful_iff.1 hs).1, fun hs => hs, fun _ => hp, fun hp' => absurd hp hp'⟩
    · split
      · split
        · exact takeRecord_moves hf
        · exact returnFetch_moves hf
      · split
        · next h0 => exact (h0 ▸ returnFetch_moves hf).trans (fail_moves (by decide))
        · exact (returnFetch_moves hf).trans (fence_within.moves fence_tally)

/-! ### Index posts, grants and record writes (R159 to R165) -/

theorem badPost_moves {cause : FenceCause} {failure : FailureCause} (h : failure ≠ .none) : Moves s (s.badPost c cause failure) := by
  unfold badPost; split
  · exact fail_moves h
  · exact fence_within.moves fence_tally

theorem postTail_moves : Moves s (s.postTail c n) := by
  unfold postTail; split
  · split
    · exact .updChannel rfl rfl rfl rfl rfl rfl
    · exact badPost_moves (by decide)
  · exact .refl s

theorem postHead_moves : Moves s (s.postHead c n) := by
  unfold postHead; split
  · split
    · exact (Moves.updChannel rfl rfl rfl rfl rfl rfl).trans (leaveEventSet_within.moves leaveEventSet_tally)
    · exact badPost_moves (by decide)
  · exact .refl s

/-- R162: a fetch is granted to an eligible channel with a free entry set aside. -/
theorem grant_moves (hfetch : s.fetch = none) (hc : s.granted = some c) (he : s.freeTableEntry = some e) : Moves s (s.grant c e) := by
  have hopen : (s.channel c).state = .open := by
    have heligible : (s.channel c).eligible = true := by
      unfold granted at hc; split at hc
      · next h0 => cases hc; exact h0
      · exact List.find?_some (p := fun c => (s.channel c).eligible) hc
    exact (s.channel c).eligible_iff.1 heligible |>.1
  obtain ⟨-, hlt, hfree⟩ := of_firstFrom_eq_some he
  rw [Nat.zero_add] at hlt
  have hchannel (d : Nat) : Channel.Lawful d (s.channel d) → Channel.Lawful d ((s.grant c e).channel d) := by
    intro h
    show Channel.Lawful d ((s.updChannel c (fun x => { x with inFlight := x.inFlight + 1, reserved := x.reserved + 1 })).channel d)
    rw [updChannel_channel]
    split
    · next hd => subst hd; exact ⟨h.backlog, h.admin, h.revoke, h.lost⟩
    · exact h
  have hcount (d : Nat) : ((s.grant c e).channel d).inFlight = (s.channel d).inFlight + (if c = d then 1 else 0)
      ∧ ((s.grant c e).channel d).state = (s.channel d).state := by
    have hgrant : (s.grant c e).channel d
        = (s.updChannel c (fun x => { x with inFlight := x.inFlight + 1, reserved := x.reserved + 1 })).channel d := rfl
    rw [hgrant]
    rw [updChannel_channel]
    split
    · next hd => subst hd; rw [if_pos rfl]; exact ⟨rfl, rfl⟩
    · next hd => rw [if_neg (Ne.symm hd)]; exact ⟨rfl, rfl⟩
  exact ⟨rfl, rfl, rfl, fun hs d => hchannel d ((s.lawful_iff.1 hs).1 d), fun hs => hs, fun hp => hp, fun _ hs =>
    hs.granted hfetch hlt (Option.isNone_iff_eq_none.1 hfree) rfl hopen rfl rfl (fun d => (hcount d).1) fun d => (hcount d).2⟩

theorem startCompletion_moves {rest : List Nat} : Moves s (s.startCompletion c e rest) := by
  unfold startCompletion; split
  · exact .refl s
  · exact .setChannel (fun h => ⟨h.backlog, h.admin, h.revoke, h.lost⟩) (fun h => ⟨rfl, h⟩) fun _ h _ => h

theorem startNotice_moves {note : Notice} {rest : List Notice} (h : (s.channel c).backlog = note :: rest) :
    Moves s (s.startNotice c note rest) := by
  refine .setChannel (fun hx => ⟨?_, hx.admin, hx.revoke, ?_⟩) (fun h => ⟨rfl, h⟩) fun _ h _ => h
  · exact (Nat.le_succ _).trans (by simpa [h] using hx.backlog)
  · show (if c = 0 then 0 else (s.channel c).lost) ≤ _
    split
    · exact Nat.zero_le _
    · exact hx.lost

theorem recordPosted_moves {w : RecordWrite} : Moves s (s.recordPosted c w) := by
  have hpost : Moves s ((s.emit (.hostWrite w.address w.bytes)).updChannel c
      (fun x => { x with writing := none, posted := nextIndex x.cqSize x.posted })) :=
    (emit_within.moves emit_tally).trans (.updChannel rfl rfl rfl rfl rfl rfl)
  have hset (l : List Nat) (t : State) : Moves t (t.setEventSet l) := .of_part rfl rfl rfl rfl rfl (.inl rfl) rfl rfl
  unfold recordPosted; dsimp only; split
  · exact (hpost.trans (hset _ _)).trans ((freeWritten_within.trans noteDrain_within).moves (freeWritten_tally.trans noteDrain_tally))
  · exact hpost.trans ((freeWritten_within.trans noteDrain_within).moves (freeWritten_tally.trans noteDrain_tally))

/-- R165, R174: the note that a record write is in flight is cleared. -/
theorem clearWriting_moves : Moves s (s.updChannel c (fun x => { x with writing := none })) := .updChannel rfl rfl rfl rfl rfl rfl

theorem recordFailed_moves {w : RecordWrite} : Moves s (s.recordFailed c w) := by
  unfold recordFailed; extract_lets; split
  · exact (clearWriting_moves.trans (freeWritten_within.moves freeWritten_tally)).trans (fail_moves (by decide))
  · exact clearWriting_moves.trans (((fence_within.trans freeWritten_within).trans noteDrain_within).moves
      ((fence_tally.trans freeWritten_tally).trans noteDrain_tally))

theorem recordEndsInFailed_moves {w : RecordWrite} {error : Bool} : Moves s (s.recordEndsInFailed c w error) := by
  unfold recordEndsInFailed; extract_lets; split
  · exact clearWriting_moves
  · exact clearWriting_moves.trans (emit_within.moves emit_tally)

/-- R158, R193: channel 0, CLOSED till then, opens as the part starts. -/
theorem bootUp_moves {b : Boot} (h : s.part = .starting) : Moves s (s.bootUp b) := by
  have hpress : Moves s (s.setParams (some b.params)).comparePressure :=
    setParams_moves.trans (comparePressure_within.moves comparePressure_tally)
  have hopen : Channel.Lawful 0 b.channel0 := ⟨Nat.zero_le _, fun _ => ⟨.inr rfl, rfl⟩, Nat.zero_le _, Nat.zero_le _⟩
  have hstart (t : State) (ht : t.part = .starting) : Moves t ((t.setChannel 0 b.channel0).setPart .running) := by
    refine ⟨rfl, rfl, rfl, fun hs d => ?_, fun hs => ?_, fun hp => ?_, fun _ hs => ?_⟩
    · rw [setPart_channel, setChannel_channel]
      split
      · next hd => subst hd; exact hopen
      · exact (t.lawful_iff.1 hs).1 d
    · rw [CauseMatches] at hs ⊢
      rw [setPart_failure, setChannel_failure, ← hs, ht]
      exact ⟨nofun, nofun⟩
    · rw [ht] at hp; cases hp
    · have hdrained := hs.drained 0 (.inl (hs.boot (.inr ht)))
      have htally : Tally t (t.updChannel 0 (fun _ => b.channel0)) :=
        updChannel_tally fun _ => ⟨hdrained.symm, fun hd => by rcases hd with hd | hd <;> cases hd⟩
      exact hs.of_tally (htally.trans (.of_eq rfl rfl)) rfl fun hp => by rcases hp with hp | hp <;> cases hp
  refine hpress.trans (hstart _ ?_)
  rcases (comparePressure_within (s := s.setParams (some b.params))).part with hp | ⟨hp, -⟩
  · rw [hp, setParams_part, h]
  · rw [setParams_part, h] at hp; cases hp

end State

/-! ### What leaves the agenda alone -/

namespace State

theorem quiesceCheck_agenda (s : State) : s.quiesceCheck.agenda = s.agenda := by
  unfold quiesceCheck; split <;> rfl

theorem fail_agenda (cause : FailureCause) : (s.fail cause).agenda = s.agenda := by
  unfold fail; split <;> rfl

theorem comparePressure_agenda (s : State) : s.comparePressure.agenda = s.agenda := by
  unfold comparePressure; split
  · rfl
  · split <;> split <;> rfl

theorem bootUp_agenda (b : Boot) : (s.bootUp b).agenda = s.agenda := comparePressure_agenda _

theorem emitWrite_agenda (s : State) (a : Nat) (data : List Byte) (error : Option Nat) : (s.emitWrite a data error).agenda = s.agenda := by
  unfold emitWrite; extract_lets; split <;> rfl

end State

/-! ### What each command's step comes to -/

/-- A step's outcome `o` in state `s`: a next state that the command can move the part to, with no work left over. -/
def Ends (s : State) (o : Host.Outcome State Fault Refusal) : Prop := ∃ t, o = .next t ∧ Moves s t ∧ (s.Settled → t.Settled)

namespace Ends

theorem next (h : Moves s t) (ha : s.Settled → t.Settled) : Ends s (.next t) := ⟨t, rfl, h, ha⟩

theorem same : Ends s (.next s) := next (.refl s) id

theorem finish (h : Moves s t) : Ends s (.next t.finish) := next (h.trans (State.finish_within.moves State.finish_tally)) fun _ => State.finish_agenda t

theorem within (h : Within s t) (h' : Tally s t) : Ends s (.next t.finish) := finish (h.moves h')

theorem ite {p : Prop} [Decidable p] {a b : Host.Outcome State Fault Refusal} (ha : p → Ends s a) (hb : ¬ p → Ends s b) :
    Ends s (if p then a else b) := by
  split
  · next h => exact ha h
  · next h => exact hb h

/-- R71, R154: after the writes of a transfer, both in a part that is not FAILED and in FAILED. -/
theorem afterWrites {f : State → State} (hw : Within s t) (hw' : Tally s t) (ha : t.agenda = s.agenda) (hf : ∀ t, Within t (f t))
    (hf' : ∀ t, Tally t (f t)) : Ends s (.next (t.afterWrites e f)) := by
  unfold State.afterWrites; split
  · exact next ((hw.moves hw').trans (.of_part rfl rfl rfl rfl rfl (.inl rfl) rfl rfl)) fun h => ha.trans h
  · exact within (hw.trans (hf t)) (hw'.trans (hf' t))

theorem run : Ends s (execRun s) := by
  unfold execRun
  have hpart (p : PartState) (h : s.part ≠ .failed) (h' : p ≠ .failed) (h'' : p = .halted ∨ p = .starting → s.part = .halted) :
      Moves s (s.setPart p) := .of_part rfl rfl rfl rfl rfl (.inr ⟨⟨h, h'⟩, h''⟩) rfl rfl
  have hrefuse : Ends s (.next (s.refuse .run)) := next (.of_part rfl rfl rfl rfl rfl (.inl rfl) rfl rfl) id
  split
  · next hp =>
    unfold State.start; split
    · exact next ((hpart .starting (by rw [hp]; decide) (by decide) fun _ => hp).trans (State.emit_within.moves State.emit_tally)) id
    · exact next (State.fail_moves (by decide)) fun h => (State.fail_agenda _).trans h
  · next hp => exact next (hpart .running (by rw [hp]; decide) (by decide) fun h => by rcases h with h | h <;> cases h) id
  all_goals exact hrefuse

theorem quiesce : Ends s (execQuiesce s) := by
  unfold execQuiesce
  have hrefuse : Ends s (.next (s.refuse .quiesce)) := next (.of_part rfl rfl rfl rfl rfl (.inl rfl) rfl rfl) id
  split
  · next hp =>
    have hpart : Moves s (s.setPart .quiescing) := .of_part rfl rfl rfl rfl rfl (.inr ⟨⟨by rw [hp]; decide, nofun⟩, fun h => by rcases h with h | h <;> cases h⟩) rfl rfl
    exact next (hpart.trans (State.quiesceCheck_within.moves State.quiesceCheck_tally)) fun h => (State.quiesceCheck_agenda _).trans h
  all_goals exact hrefuse

theorem invalidCommand {v : BitVec 32} : Ends s (execInvalidCommand v s) :=
  .ite (fun _ => same) fun _ => next (.of_part rfl rfl rfl rfl rfl (.inl rfl) rfl rfl) id

theorem bootAddressWrite {high : Bool} {v : BitVec 32} : Ends s (execBootAddressWrite high v s) := by
  unfold execBootAddressWrite; split
  · exact next (.of_part rfl rfl rfl rfl rfl (.inl rfl) rfl rfl) id
  · exact same

theorem bootReadEnd {result : Option (List Byte)} : Ends s (execBootReadEnd result s) := by
  unfold execBootReadEnd; split
  · next hp =>
    split
    · exact next (State.fail_moves (by decide)) fun h => (State.fail_agenda _).trans h
    · split
      · exact next (State.bootUp_moves hp) fun h => (State.bootUp_agenda _).trans h
      · exact next (State.fail_moves (by decide)) fun h => (State.fail_agenda _).trans h
  · exact same

theorem fetchGrant : Ends s (execFetchGrant s) := by
  unfold execFetchGrant; split
  · next hmay =>
    split
    · next hc he => exact next (State.grant_moves (Option.isNone_iff_eq_none.1 hmay.1) hc he) id
    · exact same
    · exact same
  · exact same

theorem recordWriteStart : Ends s (execRecordWriteStart c s) := by
  unfold execRecordWriteStart; split
  · split
    · refine next State.startCompletion_moves fun h => ?_
      unfold State.startCompletion; split <;> exact h
    · next hb => exact ite (fun _ => next (State.startNotice_moves hb) id) fun _ => same
    · exact same
  · exact same

theorem recordWriteEnd {error : Bool} : Ends s (execRecordWriteEnd c error s) := by
  unfold execRecordWriteEnd; split
  · exact same
  · refine ite (fun _ => next State.recordEndsInFailed_moves fun h => ?_) fun _ => finish ?_
    · unfold State.recordEndsInFailed; extract_lets; split <;> exact h
    · split
      · exact State.recordFailed_moves
      · exact State.recordPosted_moves

theorem readTransferComplete : Ends s (execReadTransferComplete e s) := by
  unfold execReadTransferComplete; split
  · exact afterWrites State.emitWrite_within State.emitWrite_tally (State.emitWrite_agenda ..) (fun _ => State.readComplete_within)
      fun _ => State.readComplete_tally
  · exact same

theorem readTransferError {written : Nat} : Ends s (execReadTransferError e written s) := by
  unfold execReadTransferError; split
  · exact afterWrites State.emitWrite_within State.emitWrite_tally (State.emitWrite_agenda ..) (fun _ => State.readError_within)
      fun _ => State.readError_tally
  · exact same

theorem surveyEntryWriteEnd {error : Option Nat} : Ends s (execSurveyEntryWriteEnd e error s) := by
  unfold execSurveyEntryWriteEnd; split
  · exact afterWrites State.emitWrite_within State.emitWrite_tally (State.emitWrite_agenda ..) (fun _ => State.complete_within)
      fun _ => State.complete_tally
  · exact same

theorem snapshotWriteEnd {error : Option Nat} : Ends s (execSnapshotWriteEnd e error s) := by
  unfold execSnapshotWriteEnd; split
  · exact afterWrites State.emitWrite_within State.emitWrite_tally (State.emitWrite_agenda ..) (fun _ => State.complete_within)
      fun _ => State.complete_tally
  · exact same

theorem setWaitDeadlineExpiry : Ends s (execSetWaitDeadlineExpiry e s) := by
  unfold execSetWaitDeadlineExpiry; split
  · exact within (State.depart_within.trans State.complete_within) (State.depart_tally.trans State.complete_tally)
  · exact same

end Ends

/-- R12, R64, R123: the commands that bring bytes for the line store. -/
def bringsData : Instr → Bool
  | .writeTransferComplete _ _ | .writeTransferError _ _ | .index _ _ | .header _ _ _ _ _ _ _ | .dataMark _ _ _ | .dataEnd _ _ _ => true
  | _ => false

/-- The step of each command but the two resets and those that bring bytes for the line store. The 16 record kinds end the fetch in flight. -/
theorem exec_ends {i : Instr} (hreset : i ≠ .reset) (hpower : i ≠ .powerOnReset) (hdata : bringsData i = false) : Ends s (exec i s) := by
  cases i with
  | reset => contradiction
  | powerOnReset => contradiction
  | writeTransferComplete | writeTransferError | index | header | dataMark | dataEnd => cases hdata
  | run => exact .run
  | quiesce => exact .quiesce
  | invalidCommand => exact .invalidCommand
  | bootAddressWrite => exact .bootAddressWrite
  | sqTail => exact .ite (fun _ => .same) fun _ => .finish State.postTail_moves
  | cqHead => exact .ite (fun _ => .same) fun _ => .finish State.postHead_moves
  | registerWriteIgnored => exact .same
  | bootReadEnd => exact .bootReadEnd
  | fetchGrant => exact .fetchGrant
  | fetchEnd | read | write | release | flush | survey | barrier | abandon | channelOpen | channelClose | unitAttach | unitDetach
  | unitDiscard | setParameters | queryChannel | queryUnit | queryLine => exact .finish State.endFetch_moves
  | snapshotWriteEnd => exact .snapshotWriteEnd
  | recordWriteStart => exact .recordWriteStart
  | recordWriteEnd => exact .recordWriteEnd
  | readTransferComplete => exact .readTransferComplete
  | readTransferError => exact .readTransferError
  | surveyEntryWriteEnd => exact .surveyEntryWriteEnd
  | setWaitDeadlineExpiry => exact .setWaitDeadlineExpiry
  | recallDeadlineExpiry => exact .ite (fun _ => .within State.expireEpisode_within State.expireEpisode_tally) fun _ => .same
  | unitResponseLimitExpiry => exact .ite (fun _ => .within State.expireResponse_within State.expireResponse_tally) fun _ => .same
  | arrived => exact .ite (fun _ => .within State.onArrived_within State.onArrived_tally) fun _ => .same
  | homeFound => exact .ite (fun _ => .within State.onHomeFound_within State.onHomeFound_tally) fun _ => .same
  | positionFault => exact .ite (fun _ => .within State.onPositionFault_within State.onPositionFault_tally) fun _ => .same
  | writeDone => exact .ite (fun _ => .within State.onWriteAnswer_within State.onWriteAnswer_tally) fun _ => .same
  | writeFault => exact .ite (fun _ => .within State.onWriteAnswer_within State.onWriteAnswer_tally) fun _ => .same
  | readyRise => exact .ite (fun _ => .within State.onReadyRise_within State.onReadyRise_tally) fun _ => .same
  | readyFall => exact .ite (fun _ => .within State.onReadyFall_within State.onReadyFall_tally) fun _ => .same
  | channelDrain => exact .ite (fun _ => .same) fun _ => .within State.drainCheck_within State.drainCheck_tally
  | detachAwaitedReadsEnd => exact .ite (fun _ => .same) fun _ => .within State.detachTest_within State.detachTest_tally
  | discardThirdStage => exact .ite (fun _ => .same) fun _ => .within State.discardTest_within State.discardTest_tally
  | quiescedEntry => exact .next (State.quiesceCheck_within.moves State.quiesceCheck_tally) fun h => (State.quiesceCheck_agenda s).trans h

/-- What a command that brings bytes for the line store comes to: the bytes go into the store, and the rest moves the part on. -/
def EndsWithData (s : State) (o : Host.Outcome State Fault Refusal) : Prop :=
  ∃ m t, o = .next t ∧ (Memory.wf s.store = true → Memory.wf m = true) ∧ Moves (s.setStore m) t ∧ (s.Settled → t.Settled)

namespace EndsWithData

theorem same : EndsWithData s (.next s) := ⟨s.store, s, rfl, id, .refl s, id⟩

theorem finish {m : List Host.Cell} (hm : Memory.wf s.store = true → Memory.wf m = true) (h : Within (s.setStore m) t)
    (h' : Tally s t) : EndsWithData s (.next t.finish) :=
  have hstore : Tally (s.setStore m) s := .of_eq rfl rfl
  ⟨m, t.finish, rfl, hm, (h.trans State.finish_within).moves ((hstore.trans h').trans State.finish_tally), fun _ => State.finish_agenda t⟩

theorem writeTransferComplete {data : List Byte} : EndsWithData s (execWriteTransferComplete e data s) := by
  unfold execWriteTransferComplete; split
  · exact finish (Memory.wf_writeBytes _ _ _) State.writeComplete_within State.writeComplete_tally
  · exact same

theorem writeTransferError {placed : List Byte} : EndsWithData s (execWriteTransferError e placed s) := by
  unfold execWriteTransferError; split
  · exact finish (Memory.wf_writeBytes _ _ _) State.writeError_within State.writeError_tally
  · exact same

/-- R123: an event of a unit port, after the data bytes delivered before it. -/
theorem event {bs : List Byte} {v : Nat} {f : State → State} (hf : ∀ t, Within t (f t)) (hf' : ∀ t, Tally t (f t)) :
    EndsWithData s (if s.acts v then .next (f (s.takeData v bs)).finish else .next s) := by
  split
  · obtain ⟨m, hm, hdata⟩ := State.takeData_within (s := s) (u := v) (bs := bs)
    exact finish hm (hdata.trans (hf _)) (State.takeData_tally.trans (hf' _))
  · exact same

end EndsWithData

/-- The step of each command that brings bytes for the line store. -/
theorem exec_endsWithData {i : Instr} (hdata : bringsData i = true) : EndsWithData s (exec i s) := by
  cases i with
  | writeTransferComplete => exact .writeTransferComplete
  | writeTransferError => exact .writeTransferError
  | index u =>
    exact .event (f := fun t => t.onIndex u) (fun _ => State.onIndex_within)
      fun _ => State.onIndex_tally
  | header u track surface sector size check =>
    exact .event (f := fun t => t.onHeader u ⟨track, surface, sector, size, check⟩) (fun _ => State.onHeader_within)
      fun _ => State.onHeader_tally
  | dataMark u mark =>
    exact .event (f := fun t => t.onDataMark u mark) (fun _ => State.onDataMark_within)
      fun _ => State.onDataMark_tally
  | dataEnd u check =>
    exact .event (f := fun t => t.onDataEnd u check) (fun _ => State.onDataEnd_within)
      fun _ => State.onDataEnd_tally
  | _ => cases hdata

/-! ### The resets and the passing of time (R196, 0.6) -/

/-- R196: the state after a reset keeps the laws, whatever the state before. -/
theorem State.lawful_of_cleared (hc : t.channels = []) (hp : t.part = .halted) (hf : t.failure = .none) (hs : t.store = []) : t.Lawful := by
  refine t.lawful_iff.2 ⟨fun c => ?_, by simp [CauseMatches, hp, hf], by rw [StoreCanonical, hs]; rfl⟩
  rw [channel, hc]
  exact ⟨Nat.zero_le _, fun _ => ⟨.inl rfl, rfl⟩, Nat.zero_le _, Nat.zero_le _⟩

/-- R12, R44, R158, R166, R167, R191: a command keeps the laws. -/
theorem exec_lawful {i : Instr} (hs : s.Lawful) (ht : exec i s = .next t) : t.Lawful := by
  by_cases hreset : i = .reset
  · subst hreset; cases ht; exact State.lawful_of_cleared rfl rfl rfl rfl
  by_cases hpower : i = .powerOnReset
  · subst hpower; cases ht; exact State.lawful_of_cleared rfl rfl rfl rfl
  cases hdata : bringsData i
  · obtain ⟨t', heq, hmoves, -⟩ := exec_ends (s := s) hreset hpower hdata
    cases heq.symm.trans ht
    exact hmoves.lawful hs
  · obtain ⟨m, t', heq, hm, hmoves, -⟩ := exec_endsWithData (s := s) hdata
    cases heq.symm.trans ht
    exact hmoves.lawful ⟨hs.backlogs, hs.admin, hs.cause, hs.counts, hm hs.store⟩

/-- R138: after a reset no entry is held, so no in-flight count is above 0. -/
theorem State.inFlightCounted_of_cleared (hc : t.channels = []) (ht : t.table = []) (hf : t.fetch = none) : t.InFlightCounted := by
  have hchannel (c : Nat) : t.channel c = {} := by rw [channel, hc]; rfl
  have hrequest (e : Nat) : t.request e = none := by rw [request, ht]; rfl
  refine ⟨fun c => ?_, fun f h => ?_, fun e _ => hrequest e, fun c _ => by rw [hchannel], fun _ => by rw [hchannel]⟩
  · simp [hchannel, heldBy, hrequest, hf]
  · rw [hf] at h; cases h

/-- R138, R154, R156, R157, R162, R163: a command keeps the in-flight counts; only the resets leave FAILED. -/
theorem exec_inFlightCounted {i : Instr} (hs : s.part ≠ .failed → s.InFlightCounted) (ht : exec i s = .next t) (hp : t.part ≠ .failed) :
    t.InFlightCounted := by
  by_cases hreset : i = .reset
  · subst hreset; cases ht; exact State.inFlightCounted_of_cleared rfl rfl rfl
  by_cases hpower : i = .powerOnReset
  · subst hpower; cases ht; exact State.inFlightCounted_of_cleared rfl rfl rfl
  cases hdata : bringsData i
  · obtain ⟨t', heq, hmoves, -⟩ := exec_ends (s := s) hreset hpower hdata
    cases heq.symm.trans ht
    exact hmoves.counted hp (hs (mt hmoves.failed hp))
  · obtain ⟨m, t', heq, -, hmoves, -⟩ := exec_endsWithData (s := s) hdata
    cases heq.symm.trans ht
    have hcounted := hs (mt hmoves.failed hp)
    exact hmoves.counted hp (hcounted.of_tally (t := s.setStore m) State.store_tally rfl hcounted.boot)

/-- R138, R157, R163: the channel of a fetch in flight counts the entry set aside, so it is not one that has drained. -/
theorem State.InFlightCounted.fetching {f : Fetch} (h : s.InFlightCounted) (hf : s.fetch = some f) :
    0 < (s.channel f.channel).inFlight ∧ (s.channel f.channel).state ≠ .fenced ∧ (s.channel f.channel).state ≠ .closed := by
  have hcount : (s.channel f.channel).inFlight = s.heldBy f.channel + s.setAside f.channel := h.counts f.channel
  rw [s.setAside_some hf, if_pos rfl] at hcount
  have hdrained := h.drained f.channel
  exact ⟨by omega, fun hs => by have := hdrained (.inr hs); omega, fun hs => by have := hdrained (.inl hs); omega⟩

end Sys2Proof.Machine

namespace Sys2Proof.Proofs

open Sys2Proof Sys2Proof.Machine

/-- Settles O1: the step function is this by its definition. -/
theorem stepRunsFrontCommand : Obligations.StepRunsFrontCommand := by
  intro s c rest hs
  rw [step, hs]

/-- Settles O56: the passing of a millisecond touches none of the fields; a command keeps the laws, its queue being none of them. -/
theorem lawsKeptByEveryStep : Obligations.LawsKeptByEveryStep := by
  intro s t hs ht
  rw [step] at ht
  split at ht
  · cases ht; exact ⟨hs.backlogs, hs.admin, hs.cause, hs.counts, hs.store⟩
  · refine exec_lawful ?_ ht
    exact ⟨hs.backlogs, hs.admin, hs.cause, hs.counts, hs.store⟩

/-- Settles O57: the passing of a millisecond touches none of the fields that the counts speak of; a command keeps the counts. -/
theorem inFlightCountsMatchTheTable : Obligations.InFlightCountsMatchTheTable := by
  refine ⟨fun s t hs ht hp => ?_, fun s f hs hf => hs.fetching hf⟩
  rw [step] at ht
  split at ht
  · cases ht
    have hcounted := hs hp
    exact ⟨hcounted.counts, hcounted.aside, hcounted.entries, hcounted.drained, hcounted.boot⟩
  · refine exec_inFlightCounted (fun hp' => ?_) ht hp
    have hcounted := hs hp'
    exact ⟨hcounted.counts, hcounted.aside, hcounted.entries, hcounted.drained, hcounted.boot⟩

/-- Settles O3: a reset answers its state outright; every other command moves the part, its bytes for the line store put in first. -/
theorem everyCommandIsOneWholeStep : Obligations.EveryCommandIsOneWholeStep := by
  intro i s hs
  by_cases hreset : i = .reset
  · subst hreset; exact ⟨_, rfl, rfl, rfl, rfl⟩
  by_cases hpower : i = .powerOnReset
  · subst hpower; exact ⟨_, rfl, rfl, rfl, rfl⟩
  cases hdata : bringsData i
  · obtain ⟨t, heq, hmoves, hsettled⟩ := exec_ends (s := s) hreset hpower hdata
    exact ⟨t, heq, hsettled hs, hmoves.pending, hmoves.now⟩
  · obtain ⟨m, t, heq, -, hmoves, hsettled⟩ := exec_endsWithData (s := s) hdata
    exact ⟨t, heq, hsettled hs, hmoves.pending, hmoves.now⟩

/-- Settles O60: the commands left are those that bring no bytes, and they leave the store as it is. -/
theorem storeChangesOnlyByTransfers : Obligations.StoreChangesOnlyByTransfers := by
  intro i s t hreset hpower hwc hwe hindex hmark hend hheader ht a
  have hdata : bringsData i = false := by
    cases i with
    | writeTransferComplete e bs => exact absurd rfl (hwc e bs)
    | writeTransferError e bs => exact absurd rfl (hwe e bs)
    | index u bs => exact absurd rfl (hindex u bs)
    | dataMark u m bs => exact absurd rfl (hmark u m bs)
    | dataEnd u c bs => exact absurd rfl (hend u c bs)
    | header u tr su se si c bs => exact absurd rfl (hheader u tr su se si c bs)
    | _ => rfl
  obtain ⟨t', heq, hmoves, -⟩ := exec_ends (s := s) hreset hpower hdata
  cases heq.symm.trans ht
  rw [hmoves.store]

end Sys2Proof.Proofs
end

section
/-! PROOF. A FAILED part (R71, R115, R154, R174, R195): the events of its units, the only ones that still have an effect of their own, touch the unit
records, what has been put out and the line store; every other command leaves the part as it stands or notes that an access has ended. -/

namespace Sys2Proof.Machine

variable {s t v : State} {u k e : Nat}

/-! ### The events of a unit in a FAILED part (R115) -/

/-- From `s` to `t` a FAILED part has changed at most its unit records, what it has put out and its line store. -/
def Stands (s t : State) : Prop := s.part = .failed → ∃ units outbox store, t = { s with units, outbox, store }

theorem Stands.refl (s : State) : Stands s s := fun _ => ⟨_, _, _, rfl⟩

theorem Stands.trans (a : Stands s t) (b : Stands t v) : Stands s v := by
  intro hp
  obtain ⟨x, o, m, rfl⟩ := a hp
  obtain ⟨x', o', m', rfl⟩ := b hp
  exact ⟨x', o', m', rfl⟩

namespace State

theorem updUnit_stands {f : UnitRec → UnitRec} : Stands s (s.updUnit u f) := fun _ => ⟨_, _, _, rfl⟩
theorem emit_stands {o : Output} : Stands s (s.emit o) := fun _ => ⟨_, _, _, rfl⟩
theorem setStore_stands {m : List Host.Cell} : Stands s (s.setStore m) := fun _ => ⟨_, _, _, rfl⟩
theorem updOp_stands {f : Operation → Operation} : Stands s (s.updOp u f) := updUnit_stands
theorem setDeadline_stands : Stands s (s.setDeadline u) := updOp_stands
theorem enter_stands {q : SeqState} : Stands s (s.enter u q) := updUnit_stands.trans setDeadline_stands
theorem loseHead_stands : Stands s (s.loseHead u) := updUnit_stands

theorem closeGate_stands : Stands s (s.closeGate u) := by
  unfold closeGate; split
  · exact updUnit_stands.trans emit_stands
  · exact .refl s

/-- R115: the outcome of an operation that ends in FAILED is told no one. -/
theorem endOp_stands {st : Status} {m : Mark} : Stands s (s.endOp u st m) := by
  intro hp
  unfold endOp; split
  · exact Stands.refl s hp
  · dsimp only
    rw [if_pos hp]
    exact closeGate_stands.trans updUnit_stands hp

theorem seekError_stands : Stands s (s.seekError u) := loseHead_stands.trans endOp_stands
theorem startHoming_stands : Stands s (s.startHoming u) := (updUnit_stands.trans enter_stands).trans emit_stands
theorem startMove_stands {track : Nat} : Stands s (s.startMove u track) := (updUnit_stands.trans enter_stands).trans emit_stands
theorem startVerify_stands : Stands s (s.startVerify u) := updOp_stands.trans enter_stands

theorem startSearch_stands {op : Operation} : Stands s (s.startSearch u op) := by
  unfold startSearch; split <;> exact updOp_stands.trans enter_stands

theorem seeHeader_stands {h : Header} : Stands s (s.seeHeader u h) := by
  unfold seeHeader; split
  · exact updUnit_stands
  · exact .refl s

theorem writeField_stands : Stands s (s.writeField u k) := (updUnit_stands.trans enter_stands).trans emit_stands

theorem examine_stands {o : Operation} {h : Header} : Stands s (s.examine u o h) := by
  refine seeHeader_stands.trans (t := s.seeHeader u h) ?_
  unfold examine; dsimp only; split
  · split
    · split
      · exact updOp_stands.trans enter_stands
      · exact writeField_stands
      · exact setDeadline_stands
    · exact updOp_stands.trans setDeadline_stands
  · exact setDeadline_stands

theorem resumeSearch_stands {h : Option Header} : Stands s (s.resumeSearch u h) := by
  unfold resumeSearch; split
  · exact .refl s
  · split
    · exact endOp_stands
    · dsimp only; split
      · exact (updOp_stands.trans enter_stands).trans examine_stands
      · exact updOp_stands.trans enter_stands

theorem badRead_stands {h : Option Header} : Stands s (s.badRead u h) := by
  unfold badRead; split
  · exact .refl s
  · dsimp only; split
    · exact updOp_stands.trans endOp_stands
    · exact updOp_stands.trans resumeSearch_stands

theorem takeData_stands {bs : List Byte} : Stands s (s.takeData u bs) := by
  unfold takeData; split
  · exact .refl s
  · split
    · exact setStore_stands.trans updOp_stands
    all_goals exact .refl s

theorem onArrived_stands : Stands s (s.onArrived u) := by
  unfold onArrived; split
  · exact updUnit_stands.trans startVerify_stands
  · exact .refl s

theorem onHomeFound_stands : Stands s (s.onHomeFound u) := by
  unfold onHomeFound; split
  · dsimp only; split
    · exact updUnit_stands.trans startVerify_stands
    · exact updUnit_stands.trans startMove_stands
  · exact .refl s

theorem onIndex_stands : Stands s (s.onIndex u) := by
  unfold onIndex; split
  · exact .refl s
  · dsimp only; split
    · exact .refl s
    · exact .refl s
    · exact .refl s
    · split
      · exact updOp_stands.trans seekError_stands
      · exact updOp_stands.trans setDeadline_stands
    · split
      · exact updOp_stands.trans endOp_stands
      · exact updOp_stands.trans setDeadline_stands
    · split
      · split
        · split
          · exact updOp_stands.trans badRead_stands
          · exact updOp_stands.trans resumeSearch_stands
        · exact updOp_stands.trans setDeadline_stands
      all_goals exact .refl s
    · split
      · exact endOp_stands
      · exact updOp_stands.trans setDeadline_stands

theorem verifyHeader_stands {o : Operation} {h : Header} : Stands s (s.verifyHeader u o h) := by
  unfold verifyHeader; split
  · exact .refl s
  · split
    · dsimp only; split
      · exact (updUnit_stands.trans startSearch_stands).trans examine_stands
      · exact (updUnit_stands.trans startSearch_stands).trans examine_stands
      · exact updUnit_stands.trans startSearch_stands
    · split
      · exact seekError_stands
      · exact updOp_stands.trans startHoming_stands

theorem onHeader_stands {h : Header} : Stands s (s.onHeader u h) := by
  unfold onHeader; split
  · exact seeHeader_stands
  · exact verifyHeader_stands
  · exact examine_stands
  · split
    · split
      · exact badRead_stands
      · exact resumeSearch_stands
    all_goals exact .refl s
  · exact (seeHeader_stands.trans updOp_stands).trans setDeadline_stands
  · exact .refl s

theorem onDataMark_stands {m : Mark} : Stands s (s.onDataMark u m) := by
  unfold onDataMark; split
  · split
    · split
      · exact badRead_stands
      · exact updOp_stands.trans setDeadline_stands
    all_goals exact .refl s
  · exact .refl s

theorem onDataEnd_stands {c : BitVec 16} : Stands s (s.onDataEnd u c) := by
  unfold onDataEnd; split
  · split
    · split
      · exact endOp_stands
      · exact badRead_stands
    · exact .refl s
  · exact .refl s

theorem onWriteAnswer_stands {st : Status} : Stands s (s.onWriteAnswer u st) := by
  unfold onWriteAnswer; split
  · split
    · exact endOp_stands
    all_goals exact .refl s
  · exact .refl s

/-- R115: what a fall would tell LD, RT and channel 0 is told no one in FAILED. -/
theorem tellFall_stands {fills surveys : List Nat} : Stands s (s.tellFall u fills surveys) := fun hp => by
  rw [tellFall, if_pos hp]
  exact Stands.refl s hp

theorem noteQuiesce_stands : Stands s s.noteQuiesce := fun hp => by
  rw [noteQuiesce, if_neg (by rw [hp]; decide)]
  exact Stands.refl s hp

theorem onReadyFall_stands : Stands s (s.onReadyFall u) := by
  unfold onReadyFall; dsimp only; split
  · exact updUnit_stands.trans
      ((((updUnit_stands.trans tellFall_stands).trans endOp_stands).trans updUnit_stands).trans noteQuiesce_stands)
  · exact updUnit_stands

/-- R115: in FAILED a rise is recorded and no more. -/
theorem onReadyRise_stands : Stands s (s.onReadyRise u) := fun hp => by
  rw [onReadyRise, if_pos hp]
  exact updUnit_stands hp

theorem expireResponse_stands : Stands s (s.expireResponse u) := by
  unfold expireResponse; split
  · exact .refl s
  · split
    · exact seekError_stands
    · exact .refl s

end State

/-! ### Every command in a FAILED part -/

/-- What a command leaves as it stands in a FAILED part, from `s` to `t`. -/
structure StandsStill (s t : State) : Prop where
  part : t.part = .failed
  failure : t.failure = s.failure
  table : t.table = s.table
  lines : t.lines = s.lines
  recency : t.recency = s.recency
  setWait : t.setWait = s.setWait
  refs : t.refs = s.refs
  slotWait : t.slotWait = s.slotWait
  episodes : t.episodes = s.episodes
  episodeWait : t.episodeWait = s.episodeWait
  dirtyCount : t.dirtyCount = s.dirtyCount
  eventSet : t.eventSet = s.eventSet
  params : t.params = s.params
  bootAddress : t.bootAddress = s.bootAddress
  channel : ∀ c, { t.channel c with writing := none } = { s.channel c with writing := none }

/-- A step's outcome `o` in state `s` leaves a FAILED part standing. -/
def KeepsStanding (s : State) (o : Host.Outcome State Fault Refusal) : Prop := s.part = .failed → ∃ t, o = .next t ∧ StandsStill s t

namespace KeepsStanding

/-- A change of the note of a fetch, of the last refused command, of the noted ends and of what a unit's event changes. -/
theorem next {refused : Refused} {fetch : Option Fetch} {units : SMap UnitRec} {outbox : List Output} {store : List Host.Cell}
    {ended : List Nat}
    (h : t = { s with lastRefused := refused, fetch, units, outbox, store, endedInFailed := ended }) : KeepsStanding s (.next t) := by
  intro hp
  subst h
  refine ⟨_, rfl, ?_⟩
  constructor <;> first | exact hp | intros; rfl

theorem same : KeepsStanding s (.next s) := next rfl

/-- A command that a FAILED part ignores. -/
theorem ignored {o : Host.Outcome State Fault Refusal} (h : s.part = .failed → o = .next s) : KeepsStanding s o := fun hp => by
  rw [h hp]
  exact same hp

theorem ite {p : Prop} [Decidable p] {a b : Host.Outcome State Fault Refusal} (ha : p → KeepsStanding s a) (hb : ¬ p → KeepsStanding s b) :
    KeepsStanding s (if p then a else b) := by
  split
  · next h => exact ha h
  · next h => exact hb h

/-- What a unit's event does ends with the step, since it sets nothing in motion. -/
theorem stands (hset : s.Settled) (h : Stands s t) : KeepsStanding s (.next t.finish) := fun hp => by
  obtain ⟨x, o, m, rfl⟩ := h hp
  have hfin : State.finish { s with units := x, outbox := o, store := m } = _ := State.finish_nil _ hset
  rw [hfin]
  exact next rfl hp

theorem event {p : Prop} [Decidable p] (hset : s.Settled) (h : Stands s t) : KeepsStanding s (if p then .next t.finish else .next s) :=
  ite (fun _ => stands hset h) fun _ => same

/-- R174: a fetch that ends in FAILED only clears the note that it is in flight. -/
theorem endFetch {result : Option Record} (hset : s.Settled) : KeepsStanding s (.next (s.endFetch result).finish) := fun hp => by
  unfold State.endFetch; split
  · rw [State.finish_nil _ hset]
    exact same hp
  · extract_lets returned
    rw [if_pos hp, State.finish_nil _ (show returned.agenda = [] from hset)]
    exact next rfl hp

/-- R71, R154: the writes of a transfer are put out, and their end is noted. -/
theorem afterWrites {a : Nat} {data : List Byte} {error : Option Nat} {f : State → State} :
    KeepsStanding s (.next ((s.emitWrite a data error).afterWrites e f)) := fun hp => by
  have hsent : ∃ o, s.emitWrite a data error = { s with outbox := o } := by
    unfold State.emitWrite; extract_lets; split <;> exact ⟨_, rfl⟩
  obtain ⟨o, ho⟩ := hsent
  rw [ho, State.afterWrites_failed (t := { s with outbox := o }) hp]
  exact next rfl hp

theorem recordWriteEnd {c : Nat} {error : Bool} : KeepsStanding s (execRecordWriteEnd c error s) := fun hp => by
  unfold execRecordWriteEnd; split
  · exact same hp
  · rw [if_pos hp]
    refine ⟨_, rfl, ?_⟩
    unfold State.recordEndsInFailed; extract_lets t
    have hchannel (d : Nat) : { t.channel d with writing := none } = { s.channel d with writing := none } := by
      by_cases hd : d = c <;> simp [t, hd]
    split
    · constructor <;> first | exact hp | exact hchannel | rfl
    · constructor <;> first | exact hp | exact hchannel | rfl

end KeepsStanding

/-- R50, R71, R115, R154, R174, R195: no command but a reset moves a FAILED part. The 16 record kinds end the fetch in flight. -/
theorem exec_keepsStanding {i : Instr} (hset : s.Settled) (hreset : i ≠ .reset) (hpower : i ≠ .powerOnReset) : KeepsStanding s (exec i s) := by
  cases i with
  | reset => contradiction
  | powerOnReset => contradiction
  | run => exact fun hp => by simp only [exec, execRun, hp]; exact KeepsStanding.next rfl hp
  | quiesce => exact fun hp => by simp only [exec, execQuiesce, hp]; exact KeepsStanding.next rfl hp
  | invalidCommand => exact .ite (fun _ => .same) fun _ => .next rfl
  | bootAddressWrite => exact .ignored fun hp => by simp [exec, execBootAddressWrite, hp]
  | sqTail => exact .ignored fun hp => if_pos hp
  | cqHead => exact .ignored fun hp => if_pos hp
  | registerWriteIgnored => exact .same
  | bootReadEnd => exact .ignored fun hp => if_neg (by rw [hp]; decide)
  | fetchGrant => exact .ignored fun hp => if_neg (by simp [hp, PartState.takesRecords])
  | fetchEnd | read | write | release | flush | survey | barrier | abandon | channelOpen | channelClose | unitAttach | unitDetach
  | unitDiscard | setParameters | queryChannel | queryUnit | queryLine => exact .endFetch hset
  | snapshotWriteEnd => simp only [exec, execSnapshotWriteEnd]; split <;> first | exact .afterWrites | exact .same
  | recordWriteStart => exact .ignored fun hp => if_neg (by simp [hp])
  | recordWriteEnd => exact .recordWriteEnd
  | readTransferComplete => simp only [exec, execReadTransferComplete]; split <;> first | exact .afterWrites | exact .same
  | readTransferError => simp only [exec, execReadTransferError]; split <;> first | exact .afterWrites | exact .same
  | writeTransferComplete =>
    exact .ignored fun hp => by simp only [exec, execWriteTransferComplete, State.writeInFlight, if_pos hp]
  | writeTransferError =>
    exact .ignored fun hp => by simp only [exec, execWriteTransferError, State.writeInFlight, if_pos hp]
  | surveyEntryWriteEnd => simp only [exec, execSurveyEntryWriteEnd]; split <;> first | exact .afterWrites | exact .same
  | setWaitDeadlineExpiry =>
    exact .ignored fun hp => by simp only [exec, execSetWaitDeadlineExpiry, State.setWaitDue, if_pos hp]
  | recallDeadlineExpiry => exact .ignored fun hp => if_neg (by simp [State.episodeDue, hp])
  | unitResponseLimitExpiry => exact .event hset State.expireResponse_stands
  | arrived => exact .event hset State.onArrived_stands
  | homeFound => exact .event hset State.onHomeFound_stands
  | positionFault => exact .event hset State.seekError_stands
  | index => exact .event hset (State.takeData_stands.trans State.onIndex_stands)
  | header => exact .event hset (State.takeData_stands.trans State.onHeader_stands)
  | dataMark => exact .event hset (State.takeData_stands.trans State.onDataMark_stands)
  | dataEnd => exact .event hset (State.takeData_stands.trans State.onDataEnd_stands)
  | writeDone => exact .event hset State.onWriteAnswer_stands
  | writeFault => exact .event hset State.onWriteAnswer_stands
  | readyRise => exact .event hset State.onReadyRise_stands
  | readyFall => exact .event hset State.onReadyFall_stands
  | channelDrain => exact .ignored fun hp => if_pos hp
  | detachAwaitedReadsEnd => exact .ignored fun hp => if_pos hp
  | discardThirdStage => exact .ignored fun hp => if_pos hp
  | quiescedEntry => exact .ignored fun hp => by simp [exec, execQuiescedEntry, State.quiesceCheck, hp]

end Sys2Proof.Machine

namespace Sys2Proof.Proofs

open Sys2Proof Sys2Proof.Machine

/-- Settles O59: what `exec_keepsStanding` says of the state that the step answers. -/
theorem failedPartStandsStill : Obligations.FailedPartStandsStill := by
  intro i s t hset hp hreset hpower ht
  obtain ⟨t', heq, h⟩ := exec_keepsStanding hset hreset hpower hp
  cases heq.symm.trans ht
  exact ⟨h.part, h.failure, h.table, h.lines, h.recency, h.setWait, h.refs, h.slotWait, h.episodes, h.episodeWait, h.dirtyCount, h.eventSet,
    h.params, h.bootAddress, h.channel⟩

end Sys2Proof.Proofs
end

section
/-! PROOF. The clock on an empty queue (0.6, log 8), the test of the quiesce condition (R194), and what the two resets leave (R196). -/

namespace Sys2Proof.Machine

variable {s t : State} {c e u n : Nat}

/-! ### The passing of a millisecond -/

/-- 0.6: after a millisecond more a deadline has stood for a full one when its moment had come before. -/
theorem overdue_succ_iff {now d : Nat} : overdue (now + 1) d = true ↔ d ≤ now := by simp [overdue]

/-- What the clock puts on an empty queue, by kind of deadline. -/
theorem State.tick_pending (h : s.pending = []) :
    s.tick.pending = { s with now := s.now + 1 }.overdueEpisodes ++ { s with now := s.now + 1 }.overdueSetWaits
      ++ { s with now := s.now + 1 }.overdueUnits := by
  show s.pending ++ _ ++ _ ++ _ = _
  rw [h]; rfl

theorem State.recallDeadlineExpiry_mem_tick (h : s.pending = []) (hp : s.part ≠ .failed) :
    Instr.recallDeadlineExpiry n ∈ s.tick.pending ↔ n < 32 ∧ ∃ ep, s.episode n = some ep ∧ ep.deadline ≤ s.now := by
  simp [State.tick_pending h, overdueEpisodes, overdueSetWaits, overdueUnits, hp, Option.any_eq_true, overdue_succ_iff, Config.episodes, episode]

theorem State.setWaitDeadlineExpiry_mem_tick (h : s.pending = []) (hp : s.part ≠ .failed) :
    Instr.setWaitDeadlineExpiry e ∈ s.tick.pending ↔
      ∃ r d, (e, r) ∈ s.held ∧ r.place = .parked .setWait ∧ r.deadline = some d ∧ d ≤ s.now := by
  simp [State.tick_pending h, overdueEpisodes, overdueSetWaits, overdueUnits, hp, Option.any_eq_true, overdue_succ_iff, held]

theorem State.unitResponseLimitExpiry_mem_tick (h : s.pending = []) (hp : s.part ≠ .failed) :
    Instr.unitResponseLimitExpiry u ∈ s.tick.pending ↔
      u < 4 ∧ (s.unit u).state ≠ .detached ∧ ∃ o, (s.unit u).op = some o ∧ o.deadline ≤ s.now := by
  simp [State.tick_pending h, overdueEpisodes, overdueSetWaits, overdueUnits, hp, Option.any_eq_true, overdue_succ_iff, Config.units, acts, unit]

/-! ### The quiesce condition (R194) -/

/-- R194: QUIESCED_ENTRY tests the condition in QUIESCING. -/
theorem exec_quiescedEntry (s : State) :
    exec .quiescedEntry s = .next (if s.part = .quiescing ∧ s.quiet then { s with part := .quiesced } else s) := rfl

/-! ### The resets (R196) -/

/-- R99, R116: a table of the four unit records with values by unit number. -/
theorem get_foldl_set (f : Nat → UnitRec) (l : List Nat) (m : SMap UnitRec) :
    SMap.get {} (l.foldl (fun m u => SMap.set {} m u (f u)) m) u = if u ∈ l then f u else SMap.get {} m u := by
  induction l generalizing m with
  | nil => simp
  | cons v l ih =>
    rw [List.foldl_cons, ih, SMap.get_set]
    by_cases hl : u ∈ l
    · simp [hl]
    · by_cases hv : u = v <;> simp [hl, hv]

/-- R99, R116: after a reset a unit record has its reset values, but for the level of its ready line. -/
theorem State.clear_unit (h : u < 4) : s.clear.unit u = { readyLine := (s.unit u).readyLine } := by
  have hget := get_foldl_set (u := u) (fun v => { readyLine := (s.unit v).readyLine }) (List.range Config.units) []
  rwa [if_pos (List.mem_range.2 h : u ∈ List.range Config.units)] at hget

/-- R100, R128: a reset turns off a write gate that is on. -/
theorem State.writeGateOff_mem_clear (h : u < 4) (hon : (s.unit u).writeGate = true) : Output.writeGateOff u ∈ s.clear.outbox := by
  refine List.mem_append_left _ (List.mem_map.2 ⟨u, List.mem_filter.2 ⟨List.mem_range.2 h, hon⟩, rfl⟩)

end Sys2Proof.Machine

namespace Sys2Proof.Proofs

open Sys2Proof Sys2Proof.Machine

/-- Settles O2: the step is the clock's, and each kind of expiry comes from one of its three lists. -/
theorem idleStepQueuesExpiries : Obligations.IdleStepQueuesExpiries := by
  intro s hs hp
  refine ⟨s.tick, by rw [step, hs], rfl, ?_, fun n => State.recallDeadlineExpiry_mem_tick hs hp,
    fun e => State.setWaitDeadlineExpiry_mem_tick hs hp, fun u => State.unitResponseLimitExpiry_mem_tick hs hp⟩
  rw [← hs]
  rfl

/-- Settles O5: the part state apart, the condition that QUIESCE tests is that of the state before it. -/
theorem quiescedWhenTheConditionHolds : Obligations.QuiescedWhenTheConditionHolds := by
  intro s
  have hquiet : (s.setPart .quiescing).quiet = s.quiet := rfl
  refine ⟨fun hp hq => ?_, fun hp hq => ?_, fun hp hq => ?_, fun hp hq => ?_, fun hp => ?_⟩
  · rw [exec_quiesce_running hp, State.quiesceCheck_quiescing, hquiet, if_pos (s.quiet_iff.2 hq)]
  · rw [exec_quiesce_running hp, State.quiesceCheck_quiescing, hquiet, if_neg (mt s.quiet_iff.1 hq)]
  · rw [exec_quiescedEntry, if_pos ⟨hp, s.quiet_iff.2 hq⟩]
  · rw [exec_quiescedEntry, if_neg fun h => hq (s.quiet_iff.1 h.2)]
  · rw [exec_quiescedEntry, if_neg fun h => hp h.1]

/-- Settles O6: each field is one of the reset state; the unit records and what is put out are looked up in the tables that the reset builds. -/
theorem resetsClearEveryBlock : Obligations.ResetsClearEveryBlock := by
  intro s
  refine ⟨_, _, rfl, rfl, rfl, rfl, rfl, rfl, rfl, rfl, fun _ => rfl, rfl, rfl, rfl, fun _ => rfl, fun _ => rfl, fun _ => rfl, fun _ => rfl,
    fun _ => rfl, rfl, fun _ => rfl, rfl, rfl, rfl, fun u hu => State.clear_unit hu, fun u hu hon => State.writeGateOff_mem_clear hu hon, rfl⟩

/-- Settles O58: the reset state has empty tables. -/
theorem lawsHoldAtReset : Obligations.LawsHoldAtReset :=
  ⟨State.lawful_of_cleared rfl rfl rfl rfl, State.inFlightCounted_of_cleared rfl rfl rfl⟩

end Sys2Proof.Proofs
end

section
/-! PROOF. The register window (R190, R191, R200): what a write of it is as a command, and the fields of the words that a read returns. -/

namespace Sys2Proof.Machine

variable {s : State}

/-! ### Writes (R190) -/

theorem exec_bootAddressWrite_halted (high : Bool) (v : BitVec 32) (hp : s.part = .halted) :
    exec (.bootAddressWrite high v) s = .next { s with bootAddress := replaceHalf s.bootAddress high v } := congrArg _ (if_pos hp)

theorem exec_bootAddressWrite_ignored (high : Bool) (v : BitVec 32) (hp : s.part ≠ .halted) :
    exec (.bootAddressWrite high v) s = .next s := congrArg _ (if_neg hp)

theorem replaceHalf_low (a : Addr) (v : BitVec 32) : (replaceHalf a false v).toNat = a.toNat / 2 ^ 32 * 2 ^ 32 + v.toNat := by
  simp only [replaceHalf, Bool.false_eq_true, if_false, BitVec.toNat_append, BitVec.extractLsb'_toNat, Nat.shiftRight_eq_div_pow]
  rw [← Nat.shiftLeft_add_eq_or_of_lt v.isLt, Nat.shiftLeft_eq, Nat.mod_eq_of_lt (by have := a.isLt; omega)]

theorem replaceHalf_high (a : Addr) (v : BitVec 32) : (replaceHalf a true v).toNat = v.toNat * 2 ^ 32 + a.toNat % 2 ^ 32 := by
  simp only [replaceHalf, if_true, BitVec.toNat_append, BitVec.extractLsb'_toNat, Nat.shiftRight_eq_div_pow]
  rw [← Nat.shiftLeft_add_eq_or_of_lt (by omega), Nat.shiftLeft_eq, Nat.pow_zero, Nat.div_one]

/-- R190: the words that a write of the window can change. -/
theorem takesWrite_iff (offset : BitVec 12) (bytes : Nat) : takesWrite offset bytes = true ↔
    bytes = 4 ∧ (offset = 0x004 ∨ offset = 0x010 ∨ offset = 0x014 ∨ offset = 0x018 ∨ offset = 0x01C) := by
  simp [takesWrite]

/-- R190: a write that the window does not take is the command for it. -/
theorem decodeWrite_ignored {offset : BitVec 12} {bytes : Nat} (v : BitVec 32) (h : ¬ takesWrite offset bytes = true) :
    decodeWrite offset bytes v = .registerWriteIgnored offset bytes v := by
  rw [takesWrite_iff] at h
  unfold decodeWrite
  split
  · rfl
  · next h4 =>
    have hoffset := not_and.1 h (not_not.1 h4)
    simp only [not_or] at hoffset
    obtain ⟨h1, h2, h3, h4, h5⟩ := hoffset
    rw [if_neg h1, if_neg h2, if_neg h3, if_neg h4, if_neg h5]

/-- R190, R192: every write is a command that the outside can send. -/
theorem decodeWrite_wellFormed (offset : BitVec 12) (bytes : Nat) (v : BitVec 32) : (decodeWrite offset bytes v).wellFormed = true := by
  by_cases h : takesWrite offset bytes = true
  · obtain ⟨rfl, rfl | rfl | rfl | rfl | rfl⟩ := (takesWrite_iff _ _).1 h
    · by_cases h1 : v = 1
      · subst h1; rfl
      by_cases h2 : v = 2
      · subst h2; rfl
      by_cases h3 : v = 3
      · subst h3; rfl
      rw [decodeWrite_invalidCommand h1 h2 h3]
      simpa [Instr.wellFormed] using ⟨h1, h2, h3⟩
    all_goals rfl
  · rw [decodeWrite_ignored v h]
    simpa [Instr.wellFormed] using h

/-! ### Reads (R190, R191, R200) -/

/-- R200: the PART_STATE word as a number, its fields not overlapping. -/
theorem State.partStateWord_toNat (h : s.dirtyCount ≤ 4096) : s.partStateWord.toNat =
      s.part.code + 2 ^ 4 * s.failure.code + 2 ^ 8 * s.lastFailure.code + 2 ^ 12 * s.lastRefused.code + 2 ^ 16 * s.retainedDirty
    ∧ s.part.code < 2 ^ 3 ∧ s.failure.code < 2 ^ 4 ∧ s.lastFailure.code < 2 ^ 4 ∧ s.lastRefused.code < 2 ^ 2 ∧ s.retainedDirty < 2 ^ 13 := by
  have hpart : s.part.code < 2 ^ 3 := by cases s.part <;> decide
  have hfailure (x : FailureCause) : x.code ≤ 6 := by cases x <;> decide
  have hf := hfailure s.failure
  have hl := hfailure s.lastFailure
  have hrefused : s.lastRefused.code < 2 ^ 2 := by cases s.lastRefused <;> decide
  have hdirty : s.retainedDirty ≤ 4096 := by unfold retainedDirty; split <;> omega
  rw [partStateWord, BitVec.toNat_ofNat]
  omega

/-- A field of a word, by division. -/
theorem extractLsb'_eq_ofNat {w : BitVec 32} {start len x : Nat} (h : w.toNat / 2 ^ start % 2 ^ len = x % 2 ^ len) :
    w.extractLsb' start len = BitVec.ofNat len x := by
  apply BitVec.eq_of_toNat_eq
  rw [BitVec.extractLsb'_toNat, BitVec.toNat_ofNat, Nat.shiftRight_eq_div_pow, h]

/-- The bits of a sum of different powers of two. -/
theorem testBit_sum_two_pow {l : List Nat} (hl : l.Nodup) (i : Nat) : (l.map (fun c => 2 ^ c)).sum.testBit i = l.contains i := by
  have hperm : (l.toFinset.sort (· ≤ ·)).Perm l :=
    List.perm_of_nodup_nodup_toFinset_eq (Finset.sort_nodup ..) hl (Finset.sort_toFinset ..)
  have hsum := (hperm.map (fun c => 2 ^ c)).sum_eq
  have hbits := Nat.bitIndices_sum_map_two_pow (Finset.sortedLT_sort l.toFinset)
  rw [hsum] at hbits
  rw [Bool.eq_iff_iff, ← Nat.mem_bitIndices, hbits, List.contains_iff_mem, hperm.mem_iff]

/-- R200: the EVENT_SET word has bit c for channel c. -/
theorem State.eventSetWord_getLsbD (c : Nat) : s.eventSetWord.getLsbD c = (decide (c < 16) && s.eventSet.contains c) := by
  have hnodup : ((List.range Config.channels).filter s.eventSet.contains).Nodup := List.nodup_range.filter _
  rw [eventSetWord, BitVec.getLsbD_ofNat, testBit_sum_two_pow hnodup, Bool.eq_iff_iff]
  simp [Config.channels]
  omega

/-- R190: the two halves of BOOT_ADDRESS make it up. -/
theorem State.readRegister_bootAddress (s : State) : s.readRegister 0x014 4 ++ s.readRegister 0x010 4 = s.bootAddress := by
  have hhigh : s.readRegister 0x014 4 = s.bootAddress.extractLsb' 32 32 := rfl
  have hlow : s.readRegister 0x010 4 = s.bootAddress.extractLsb' 0 32 := rfl
  rw [hhigh, hlow]
  exact BitVec.extractLsb'_append_extractLsb'_eq_extractLsb' rfl |>.trans BitVec.extractLsb'_eq_self

end Sys2Proof.Machine

namespace Sys2Proof.Proofs

open Sys2Proof Sys2Proof.Machine

/-- Settles O7: writes by what `decodeWrite` makes of them, reads by the numbers that the words stand for. -/
theorem windowWritesAndReads : Obligations.WindowWritesAndReads := by
  refine ⟨fun s v => ⟨rfl, rfl, fun hp => ⟨?_, ?_⟩, fun hp => ⟨?_, ?_⟩⟩, fun offset bytes v s => ⟨rfl, decodeWrite_wellFormed .., fun h => ?_⟩,
    fun s h => ?_⟩
  · exact ⟨_, exec_bootAddressWrite_halted _ _ hp, replaceHalf_low _ _, rfl⟩
  · exact ⟨_, exec_bootAddressWrite_halted _ _ hp, replaceHalf_high _ _, rfl⟩
  · exact exec_bootAddressWrite_ignored _ _ hp
  · exact exec_bootAddressWrite_ignored _ _ hp
  · rw [decodeWrite_ignored v (mt (takesWrite_iff _ _).1 h)]; rfl
  · obtain ⟨hword, hpart, hfailure, hlast, hrefused, hdirty⟩ := State.partStateWord_toNat h
    have hread : s.readRegister 0x008 4 = s.partStateWord := rfl
    have hevents : s.readRegister 0x020 4 = s.eventSetWord := rfl
    rw [hread, hevents]
    refine ⟨rfl, extractLsb'_eq_ofNat ?_, extractLsb'_eq_ofNat ?_, extractLsb'_eq_ofNat ?_, extractLsb'_eq_ofNat ?_, extractLsb'_eq_ofNat ?_,
      s.readRegister_bootAddress, fun c hc => ?_, fun c hc => ?_, fun offset bytes h => ?_⟩
    · omega
    · omega
    · omega
    · omega
    · show _ = s.retainedDirty % 2 ^ 13
      omega
    · rw [State.eventSetWord_getLsbD, decide_eq_true hc, Bool.true_and]
    · rw [State.eventSetWord_getLsbD, decide_eq_false (Nat.not_lt.2 hc), Bool.false_and]
    · obtain hb | rfl | rfl | rfl := h
      · exact if_pos hb
      all_goals
        unfold State.readRegister
        split <;> rfl

end Sys2Proof.Proofs
end

section
/-! PROOF. Records and their bytes (R193, R197, R198): fields written and read back, submission records, the boot record, and the records that the
part writes. -/

namespace Sys2Proof.Machine

/-! ### Little-endian fields (R197) -/

/-- `n` bytes from offset `i` on, 0 beyond the end. -/
def bytesFrom (bs : List Byte) (i n : Nat) : List Byte := (List.range n).map (fun j => byteAt bs (i + j))

theorem bytesFrom_append (bs : List Byte) (i m n : Nat) : bytesFrom bs i m ++ bytesFrom bs (i + m) n = bytesFrom bs i (m + n) := by
  simp [bytesFrom, List.range_add, Nat.add_assoc]

theorem bytesFrom_succ (bs : List Byte) (i n : Nat) : bytesFrom bs i (n + 1) = byteAt bs i :: bytesFrom bs (i + 1) n := by
  rw [Nat.add_comm, ← bytesFrom_append]; rfl

/-- Two stretches of bytes that follow on each other from the start. -/
theorem bytesFrom_join (bs : List Byte) (m n : Nat) : bytesFrom bs 0 m ++ bytesFrom bs m n = bytesFrom bs 0 (m + n) := by
  rw [← bytesFrom_append, Nat.zero_add]

theorem bytesFrom_length (bs : List Byte) : bytesFrom bs 0 bs.length = bs := by
  apply List.ext_getElem
  · simp [bytesFrom]
  · intro i h1 h2
    simp [bytesFrom, byteAt, h2]

/-- The bytes after the first `l` are those of the rest. -/
theorem bytesFrom_drop (l bs : List Byte) : bytesFrom (l ++ bs) l.length bs.length = bs := by
  conv_rhs => rw [← bytesFrom_length bs]
  simp [bytesFrom, byteAt, List.getElem?_append_right]

theorem leAt_cons (b : Byte) (bs : List Byte) (i n : Nat) : leAt (b :: bs) (i + 1) n = leAt bs i n := by
  induction n generalizing i with
  | zero => rfl
  | succ n ih => rw [leAt, leAt, ih]; rfl

/-- A field of `n` bytes reads back as its number. -/
theorem leAt_leBytes (n v : Nat) : leAt (leBytes n v) 0 n = v % 256 ^ n := by
  induction n generalizing v with
  | zero => simp [leAt, Nat.mod_one]
  | succ n ih =>
    have hhead : byteAt (leBytes (n + 1) v) 0 = BitVec.ofNat 8 v := rfl
    rw [leAt, hhead, leBytes, leAt_cons, ih, BitVec.toNat_ofNat, show 2 ^ 8 = 256 from rfl, Nat.pow_succ, Nat.mul_comm (256 ^ n),
      Nat.mod_mul]

@[simp] theorem leBytes_length (n v : Nat) : (leBytes n v).length = n := by
  induction n generalizing v with
  | zero => rfl
  | succ n ih => rw [leBytes, List.length_cons, ih]

theorem byteAt_append_left {l : List Byte} (r : List Byte) {i : Nat} (h : i < l.length) : byteAt (l ++ r) i = byteAt l i := by
  simp [byteAt, List.getElem?_append_left h]

theorem leAt_append_left {l : List Byte} (r : List Byte) {i n : Nat} (h : i + n ≤ l.length) : leAt (l ++ r) i n = leAt l i n := by
  induction n generalizing i with
  | zero => rfl
  | succ n ih => rw [leAt, leAt, byteAt_append_left r (by omega), ih (by omega)]

theorem leAt_append_right {l : List Byte} (r : List Byte) {i n : Nat} (h : l.length = i) : leAt (l ++ r) i n = leAt r 0 n := by
  subst h
  induction l with
  | nil => rfl
  | cons b l ih => rw [List.cons_append, List.length_cons, leAt_cons, ih]

theorem leAt_lt (bs : List Byte) (i n : Nat) : leAt bs i n < 256 ^ n := by
  induction n generalizing i with
  | zero => simp [leAt]
  | succ n ih =>
    have hrest := ih (i + 1)
    have hbyte := (byteAt bs i).isLt
    rw [leAt, Nat.pow_succ]
    omega

/-- The number read from a field has the field's bytes. -/
theorem leBytes_leAt (bs : List Byte) (i n : Nat) : leBytes n (leAt bs i n) = bytesFrom bs i n := by
  induction n generalizing i with
  | zero => rfl
  | succ n ih =>
    have hbyte := (byteAt bs i).isLt
    have hhead : BitVec.ofNat 8 ((byteAt bs i).toNat + 256 * leAt bs (i + 1) n) = byteAt bs i := by
      apply BitVec.eq_of_toNat_eq
      rw [BitVec.toNat_ofNat]
      omega
    have htail : ((byteAt bs i).toNat + 256 * leAt bs (i + 1) n) / 256 = leAt bs (i + 1) n := by omega
    rw [leAt, leBytes, hhead, htail, ih, bytesFrom_succ]

theorem lowByte_eq (w : BitVec 16) : lowByte w = BitVec.ofNat 8 w.toNat := by
  simp [lowByte, BitVec.extractLsb']

theorem highByte_eq (w : BitVec 16) : highByte w = BitVec.ofNat 8 (w.toNat / 256) := by
  simp [highByte, BitVec.extractLsb', Nat.shiftRight_eq_div_pow]

/-- The two bytes of a 16-bit field, less significant first. -/
theorem leBytes_two (w : BitVec 16) : leBytes 2 w.toNat = [lowByte w, highByte w] := by
  rw [lowByte_eq, highByte_eq]; rfl

/-- A 16-bit field reads back. -/
theorem ofNat_leAt_word (w : BitVec 16) : BitVec.ofNat 16 (leAt [lowByte w, highByte w] 0 2) = w := by
  rw [← leBytes_two, leAt_leBytes]
  apply BitVec.eq_of_toNat_eq
  have := w.isLt
  rw [BitVec.toNat_ofNat]
  omega

/-- A 64-bit field reads back. -/
theorem ofNat_leAt_addr (a : Addr) : BitVec.ofNat 64 (leAt (leBytes 8 a.toNat) 0 8) = a := by
  rw [leAt_leBytes]
  apply BitVec.eq_of_toNat_eq
  have := a.isLt
  rw [BitVec.toNat_ofNat]
  omega

/-- The bytes of a 16-bit field read from a record. -/
theorem bytes_of_word (bs : List Byte) (i : Nat) :
    [lowByte (BitVec.ofNat 16 (leAt bs i 2)), highByte (BitVec.ofNat 16 (leAt bs i 2))] = bytesFrom bs i 2 := by
  have hlt : leAt bs i 2 < 2 ^ 16 := leAt_lt bs i 2
  rw [← leBytes_two, BitVec.toNat_ofNat, Nat.mod_eq_of_lt hlt, leBytes_leAt]

/-- The bytes of a 64-bit field read from a record. -/
theorem bytes_of_addr (bs : List Byte) (i : Nat) : leBytes 8 (BitVec.ofNat 64 (leAt bs i 8)).toNat = bytesFrom bs i 8 := by
  have hlt : leAt bs i 8 < 2 ^ 64 := leAt_lt bs i 8
  rw [BitVec.toNat_ofNat, Nat.mod_eq_of_lt hlt, leBytes_leAt]

/-! ### Submission records (R197) -/

/-- The bytes of the record read from 64 bytes are these bytes. -/
theorem Record.bytes_parse {bs : List Byte} (h : bs.length = 64) : (Record.parse bs).bytes = bs := by
  have hfields : (Record.parse bs).bytes = bytesFrom bs 0 2 ++ bytesFrom bs 2 2 ++ bytesFrom bs 4 2 ++ bytesFrom bs 6 2 ++ bytesFrom bs 8 2
      ++ bytesFrom bs 10 2 ++ bytesFrom bs 12 4 ++ bytesFrom bs 16 8 ++ bytesFrom bs 24 8 ++ bytesFrom bs 32 2 ++ bytesFrom bs 34 6
      ++ bytesFrom bs 40 24 := by
    rw [← bytes_of_word bs 2, ← bytes_of_word bs 6, ← bytes_of_word bs 10, ← bytes_of_word bs 32, ← bytes_of_addr bs 16, ← bytes_of_addr bs 24]
    rfl
  rw [hfields]
  simp only [bytesFrom_join, Nat.reduceAdd]
  rw [← h, bytesFrom_length]

/-- The record read from a record's bytes is the record. -/
theorem Record.parse_bytes {r : Record} (hgap : r.gap.length = 4) (hrest : r.rest.length = 24) : Record.parse r.bytes = r := by
  obtain ⟨kind, flags, tag, subject, surface, track, sector, episode, target, gap, buffer, cqBase, p32, p34, p35, p36, p37, p38, p39, rest⟩ := r
  obtain ⟨g0, g1, g2, g3, rfl⟩ : ∃ g0 g1 g2 g3, gap = [g0, g1, g2, g3] := by
    match gap, hgap with
    | [g0, g1, g2, g3], _ => exact ⟨g0, g1, g2, g3, rfl⟩
  have hrest' : bytesFrom (Record.bytes ⟨kind, flags, tag, subject, surface, track, sector, episode, target, [g0, g1, g2, g3], buffer, cqBase,
      p32, p34, p35, p36, p37, p38, p39, rest⟩) 40 24 = rest := by
    rw [← hrest]
    exact bytesFrom_drop _ rest
  exact (Record.mk.injEq ..).mpr ⟨rfl, rfl, ofNat_leAt_word tag, rfl, rfl, ofNat_leAt_word track, rfl, rfl, ofNat_leAt_word target, rfl,
    ofNat_leAt_addr buffer, ofNat_leAt_addr cqBase, ofNat_leAt_word p32, rfl, rfl, rfl, rfl, rfl, rfl, hrest'⟩

/-- The fields that no record kind defines are zero in its command's record, and have their lengths. -/
theorem Instr_record_lengths {i : Instr} {r : Record} (h : i.record = some r) : r.gap.length = 4 ∧ r.rest.length = 24 := by
  cases i <;> cases h <;> exact ⟨rfl, rfl⟩

/-- A record-kind command is the end of the fetch in flight with its record (log 5). -/
theorem exec_of_record {i : Instr} {r : Record} (h : i.record = some r) (s : State) : exec i s = .next (s.fetchReturns r) := by
  cases i <;> cases h <;> rfl

/-! ### The boot record (R193, R197) -/

/-- The 64 bytes of a boot record with its undefined bytes zero. -/
def bootBytes (version flags : Byte) (sqBase cqBase : Addr) (sqSize cqSize : Nat) (recallMs setWaitMs high low : BitVec 16) : List Byte :=
  [version, flags, 0, 0, 0, 0, 0, 0] ++ leBytes 8 sqBase.toNat ++ leBytes 8 cqBase.toNat ++ leBytes 2 sqSize ++ leBytes 2 cqSize
    ++ leBytes 2 recallMs.toNat ++ leBytes 2 setWaitMs.toNat ++ leBytes 2 high.toNat ++ leBytes 2 low.toNat ++ List.replicate 28 0

theorem leAt_word (w : BitVec 16) : leAt (leBytes 2 w.toNat) 0 2 = w.toNat := (leAt_leBytes 2 _).trans (Nat.mod_eq_of_lt w.isLt)

theorem parseBoot_bootBytes (version flags : Byte) (sqBase cqBase : Addr) {sqSize cqSize : Nat} (recallMs setWaitMs high low : BitVec 16)
    (hsq : sqSize < 2 ^ 16) (hcq : cqSize < 2 ^ 16) :
    parseBoot (bootBytes version flags sqBase cqBase sqSize cqSize recallMs setWaitMs high low)
      = ⟨version, flags, sqBase, cqBase, sqSize, cqSize, ⟨recallMs.toNat, setWaitMs.toNat, high.toNat, low.toNat⟩, true⟩ := by
  have hver : byteAt (bootBytes version flags sqBase cqBase sqSize cqSize recallMs setWaitMs high low) 0 = version := rfl
  have hflags : byteAt (bootBytes version flags sqBase cqBase sqSize cqSize recallMs setWaitMs high low) 1 = flags := rfl
  have hgap : allZero (((bootBytes version flags sqBase cqBase sqSize cqSize recallMs setWaitMs high low).drop 2).take 6) = true := rfl
  have hrest : allZero (((bootBytes version flags sqBase cqBase sqSize cqSize recallMs setWaitMs high low).drop 36).take 28) = true := rfl
  have hword {n : Nat} (h : n < 2 ^ 16) : leAt (leBytes 2 n) 0 2 = n := (leAt_leBytes 2 n).trans (Nat.mod_eq_of_lt h)
  rw [parseBoot, hver, hflags, hgap, hrest]
  simp (disch := simp [leBytes_length]) only [bootBytes, leAt_append_left, leAt_append_right, ofNat_leAt_addr, leAt_word, hword hsq, hword hcq]
  rfl

theorem ringSizeOk_two_pow {m : Nat} (h1 : 4 ≤ m) (h2 : m ≤ 8) : ringSizeOk 16 256 (2 ^ m) = true := by
  interval_cases m <;> rfl

/-- R193: a boot record whose ranges are kept passes the check when its version is 1. -/
theorem Boot.ok_iff {b : Boot} (hflags : b.flags = 0 ∨ b.flags = 1) (hsq : ringSizeOk 16 256 b.sqSize = true)
    (hcq : ringSizeOk 16 256 b.cqSize = true) (hsqFits : b.sqBase.toNat % 64 = 0 ∧ b.sqBase.toNat + b.sqSize * 64 ≤ 2 ^ 64)
    (hcqFits : b.cqBase.toNat % 64 = 0 ∧ b.cqBase.toNat + b.cqSize * 32 ≤ 2 ^ 64) (hparams : b.params.ok = true)
    (hzero : b.undefinedZero = true) : b.ok = true ↔ b.version = 1 := by
  have hf : ((b.flags &&& 0xFE) == 0) = true := by rcases hflags with h | h <;> rw [h] <;> rfl
  have hfits (a : Addr) (size : Nat) (h : a.toNat % 64 = 0 ∧ a.toNat + size ≤ 2 ^ 64) : addressFits a size = true :=
    Bool.and_eq_true_iff.2 ⟨beq_iff_eq.2 h.1, decide_eq_true h.2⟩
  rw [Boot.ok, hf, hsq, hcq, hfits _ _ hsqFits, hfits _ _ hcqFits, hparams, hzero]
  simp

variable {s : State}

theorem State.fail_eq {cause : FailureCause} (hp : s.part ≠ .failed) : s.fail cause = { s with part := .failed, failure := cause } := if_neg hp

theorem exec_bootReadEnd (bs : List Byte) (hp : s.part = .starting) :
    exec (.bootReadEnd (some bs)) s = .next (if (parseBoot bs).ok then s.bootUp (parseBoot bs) else s.fail .bootInvalid) := if_pos hp

/-- R193: the part comes up with no pressure when no line is dirty. -/
theorem State.bootUp_eq {b : Boot} (hpress : s.pressure = false) (hdirty : s.dirtyCount = 0) (hhigh : 1 ≤ b.params.highMark) :
    s.bootUp b = { s with part := .running, params := some b.params, channels := SMap.set {} s.channels 0 b.channel0 } := by
  have hsame : (s.setParams (some b.params)).comparePressure = s.setParams (some b.params) := by
    have hlt : ¬ b.params.highMark ≤ 0 := by omega
    simp [comparePressure, setParams, hpress, hdirty, hlt]
  rw [bootUp, hsame]
  rfl

end Sys2Proof.Machine

namespace Sys2Proof.Proofs

open Sys2Proof Sys2Proof.Machine

/-- Settles O14: reading undoes writing and writing undoes reading; a record-kind command is then the end of the fetch with its bytes. -/
theorem recordBytesRoundTrip : Obligations.RecordBytesRoundTrip := by
  refine ⟨fun r hgap hrest => Record.parse_bytes hgap hrest, fun bs h => Record.bytes_parse h, fun i r h s => ?_⟩
  obtain ⟨hgap, hrest⟩ := Instr_record_lengths h
  have hfetch : exec (.fetchEnd (some r.bytes)) s = .next (s.fetchReturns (Record.parse r.bytes)) := rfl
  rw [hfetch, Record.parse_bytes hgap hrest, exec_of_record h]

/-- Settles O8: the fields read from the bytes pass the check when the version is 1, and channel 0 at open has them. -/
theorem bootRecordStartsThePart : Obligations.BootRecordStartsThePart := by
  intro s interrupt version sqBase cqBase m n recallMs setWaitMs high low hp hpress hdirty hm hm' hn hn' hsq hsqFits hcq hcqFits hr hr' hw hw'
    hh hh' hl record
  have hne : s.part ≠ .failed := by rw [hp]; decide
  have hsize {j : Nat} (hj : j ≤ 8) : 2 ^ j < 2 ^ 16 := Nat.pow_lt_pow_right (by decide) (by omega)
  have hparse : parseBoot record = _ := parseBoot_bootBytes version (if interrupt then 1 else 0) sqBase cqBase recallMs setWaitMs high low
    (hsize hm') (hsize hn')
  have hparams : Params.ok ⟨recallMs.toNat, setWaitMs.toNat, high.toNat, low.toNat⟩ = true :=
    decide_eq_true ⟨hr, hr', hw, hw', hh, hh', hl⟩
  have hok : (parseBoot record).ok = true ↔ version = 1 := by
    rw [hparse]
    exact Boot.ok_iff (by cases interrupt <;> simp) (ringSizeOk_two_pow hm hm') (ringSizeOk_two_pow hn hn') ⟨hsq, hsqFits⟩ ⟨hcq, hcqFits⟩
      hparams rfl
  refine ⟨(if_pos hp).trans (congrArg _ (State.fail_eq hne)), fun hv => ?_, fun hv => ?_⟩
  · rw [exec_bootReadEnd _ hp, if_neg (mt hok.1 hv), State.fail_eq hne]
  · rw [exec_bootReadEnd _ hp, if_pos (hok.2 hv), hparse, State.bootUp_eq hpress hdirty hh]
    have hbit : (if interrupt then (1 : Byte) else 0).getLsbD 0 = interrupt := by cases interrupt <;> rfl
    simp only [Boot.channel0, hbit]
    rfl

end Sys2Proof.Proofs
end

section
/-! PROOF. The records that the part writes, byte by byte (R186, R187, R188, R198). -/

namespace Sys2Proof.Machine

/-! ### A field of a record put together from pieces -/

@[simp] theorem byteAt_append_right {l : List Byte} (r : List Byte) {i : Nat} (h : l.length ≤ i) : byteAt (l ++ r) i = byteAt r (i - l.length) := by
  simp [byteAt, List.getElem?_append_right h]

/-- A field behind the bytes of `l`. -/
@[simp] theorem leAt_append_ge {l : List Byte} (r : List Byte) {i n : Nat} (h : l.length ≤ i) : leAt (l ++ r) i n = leAt r (i - l.length) n := by
  induction n generalizing i with
  | zero => rfl
  | succ n ih => rw [leAt, leAt, byteAt_append_right r h, ih (by omega), show i + 1 - l.length = i - l.length + 1 by omega]

/-- A field at the front. -/
@[simp] theorem leAt_leBytes_append (n v : Nat) (r : List Byte) : leAt (leBytes n v ++ r) 0 n = leAt (leBytes n v) 0 n :=
  leAt_append_left r (by simp [leBytes_length])

@[simp] theorem byteAt_cons_zero (b : Byte) (bs : List Byte) : byteAt (b :: bs) 0 = b := rfl

@[simp] theorem byteAt_cons_succ (b : Byte) (bs : List Byte) (i : Nat) : byteAt (b :: bs) (i + 1) = byteAt bs i := rfl

/-- A field of `n` bytes within the padding-free part reads back as its number. -/
theorem leAt_leBytes_of_lt {n v : Nat} (h : v < 256 ^ n) : leAt (leBytes n v) 0 n = v := (leAt_leBytes n v).trans (Nat.mod_eq_of_lt h)

/-- A 16-bit field reads back as its number. -/
theorem leAt_field {v : Nat} (h : v < 2 ^ 16) : leAt (leBytes 2 v) 0 2 = v := leAt_leBytes_of_lt h

theorem byteOf_toNat {n : Nat} (h : n < 256) : (byteOf n).toNat = n := by
  rw [byteOf, BitVec.toNat_ofNat]; exact Nat.mod_eq_of_lt h

/-- The bits of a byte made from four flags. -/
@[simp] theorem flagByte_four : ∀ a b c d : Bool, (flagByte [a, b, c, d])[0] = a ∧ (flagByte [a, b, c, d])[1] = b
    ∧ (flagByte [a, b, c, d])[2] = c ∧ (flagByte [a, b, c, d])[3] = d ∧ (flagByte [a, b, c, d]).toNat < 16 := by decide

/-- The bits of a byte made from five flags. -/
@[simp] theorem flagByte_five : ∀ a b c d e : Bool, (flagByte [a, b, c, d, e])[0] = a ∧ (flagByte [a, b, c, d, e])[1] = b
    ∧ (flagByte [a, b, c, d, e])[2] = c ∧ (flagByte [a, b, c, d, e])[3] = d ∧ (flagByte [a, b, c, d, e])[4] = e
    ∧ (flagByte [a, b, c, d, e]).toNat < 32 := by decide

/-- The bits of a holder set. -/
theorem holderBits_testBit {l : List Nat} (hl : l.Nodup) (c : Nat) : (holderBits l).testBit c = decide (c ∈ l) := by
  rw [holderBits, testBit_sum_two_pow hl, List.contains_eq_mem]

theorem holderBits_lt {l : List Nat} (hl : l.Nodup) (h : ∀ c ∈ l, c ≤ 15) : holderBits l < 2 ^ 16 :=
  Nat.lt_pow_two_of_testBit _ fun c hc => by
    rw [holderBits_testBit hl]
    exact decide_eq_false fun hmem => absurd (h c hmem) (by omega)

theorem LineState.and_not_loadsData (b : Bool) (st : LineState) :
    (b && st != .filling && st != .loading) = if st.loadsData then false else b := by
  cases st <;> cases b <;> rfl

theorem pad64_length {bs : List Byte} (h : bs.length ≤ 64) : (pad64 bs).length = 64 := by
  rw [pad64, List.length_append, List.length_replicate]; omega

theorem pad64_drop {bs : List Byte} {i n : Nat} (h : bs.length = i) (hn : 64 - i = n) : (pad64 bs).drop i = List.replicate n 0 := by
  rw [pad64, ← h, List.drop_left, h, hn]

end Sys2Proof.Machine

namespace Sys2Proof.Proofs

open Sys2Proof Sys2Proof.Machine

/-- Settles O36: each record's length and its zero bytes at the end first; the other bytes are read past the pieces before them. -/
theorem writtenRecordLayouts : Obligations.WrittenRecordLayouts := by
  refine ⟨?completion, ?notice, ?channelRow, ?unitRow, ?lineRow, ?absent⟩
  case completion =>
    intro phase sqHead r x hq hx bytes
    have hphase : flagByte [phase, false] = if phase then 1 else 0 := by cases phase <;> rfl
    have harrival : leAt (leBytes 4 r.arrival) 0 4 = r.arrival % 2 ^ 32 := leAt_leBytes 4 _
    have hcount : leAt (leBytes 4 x.count) 0 4 = x.count := leAt_leBytes_of_lt hx
    have hepoch : leAt (leBytes 4 x.epoch.toNat) 0 4 = x.epoch.toNat := leAt_leBytes_of_lt x.epoch.isLt
    have hdrop : bytes.drop 20 = List.replicate 12 0 := List.drop_left' (by simp)
    have hlength : bytes.length = 32 := by simp [bytes, completionBytes]
    refine ⟨hlength, ?_⟩
    rw [hdrop]
    simp [bytes, completionBytes, ← leBytes_two, Flags.byte, leAt_cons, leAt_word, leAt_field hq, harrival, hcount, hepoch, hphase]
  case notice =>
    intro phase sqHead lost key n hq hl hu hs ht hc hn bytes
    have hphase : flagByte [phase, true] = if phase then 3 else 2 := by cases phase <;> rfl
    have hdrop : bytes.drop 12 = List.replicate 20 0 := by
      simp [bytes, noticeBytes, Notice.fields, List.drop_append, List.drop_eq_nil_of_le]
    have hlength : bytes.length = 32 := by simp [bytes, noticeBytes, Notice.fields]
    refine ⟨hlength, ?_⟩
    rw [hdrop]
    simp [bytes, noticeBytes, Notice.fields, Notice.code, leAt_cons, leAt_field hq, leAt_field hl, leAt_field ht, hphase,
      byteOf_toNat (show key.unit < 256 by omega), byteOf_toNat hs, byteOf_toNat hc, byteOf_toNat (show n < 256 by omega)]
  case channelRow =>
    intro s c g hrings hsqSize hcqSize hsqHead hsqTail hcqHead hcqTail hreserved hinFlight hbacklog hlimit hquota hheld hrevokeLimit hrevoked hlost bytes
    have hphase : flagByte [(s.channel c).phase] = if (s.channel c).phase then 1 else 0 := by cases (s.channel c).phase <;> rfl
    have hdata {n : Nat} (h : n < 256) : (byteOf (if c = 0 then 0 else n)).toNat = if c = 0 then 0 else n :=
      byteOf_toNat (by split <;> omega)
    have hlostField : leAt (leBytes 2 (if c = 0 then (s.channel c).lost else 0)) 0 2 = if c = 0 then (s.channel c).lost else 0 :=
      leAt_field (by split <;> omega)
    have hgap (r : List Byte) : leAt (0#8 :: 0#8 :: 0#8 :: 0#8 :: r) 0 4 = 0 := rfl
    have hsqBase : leAt (leBytes 8 g.sqBase.toNat) 0 8 = g.sqBase.toNat := leAt_leBytes_of_lt g.sqBase.isLt
    have hcqBase : leAt (leBytes 8 g.cqBase.toNat) 0 8 = g.cqBase.toNat := leAt_leBytes_of_lt g.cqBase.isLt
    have hdrop : bytes.drop 48 = List.replicate 16 0 := pad64_drop (by simp) rfl
    have hlength : bytes.length = 64 := pad64_length (by simp)
    refine ⟨hlength, ?_⟩
    rw [hdrop]
    simp [bytes, State.channelSnapshot, pad64, Channel.sqSize, Channel.cqSize, Channel.sqBase, Channel.cqBase, hrings, leAt_cons,
      leAt_field hsqSize, leAt_field hcqSize, leAt_field hsqHead, leAt_field hsqTail, leAt_field hcqHead, leAt_field hcqTail,
      leAt_field hreserved, hlostField, byteOf_toNat hinFlight, byteOf_toNat hbacklog, byteOf_toNat hlimit, hdata hquota, hdata hheld,
      hdata hrevokeLimit, hdata hrevoked, hgap, hsqBase, hcqBase, hphase]
  case unitRow =>
    intro s u g n x hgeometry hretries hsurfaces hsectors hn htracks hbelieved hfill hsurvey hflush hstranded hbarriers hdirty bytes code
    subst x
    have hepoch : leAt (leBytes 4 (s.unit u).epoch.toNat) 0 4 = (s.unit u).epoch.toNat := leAt_leBytes_of_lt (s.unit u).epoch.isLt
    have hbelieved' : (s.unit u).believed.getD 0xFFFF < 2 ^ 16 := by
      cases hx : (s.unit u).believed with
      | none => decide
      | some track => exact hbelieved track hx
    have hdrop : bytes.drop 28 = List.replicate 36 0 := pad64_drop (by simp) rfl
    have hlength : bytes.length = 64 := pad64_length (by simp)
    refine ⟨hlength, ?_⟩
    rw [hdrop]
    have hcode : operationCode (s.unit u).op = code := rfl
    simp [bytes, State.unitSnapshot, pad64, hgeometry, hretries, leAt_cons, byteOf_toNat hsurfaces, byteOf_toNat hsectors, byteOf_toNat hn,
      leAt_field htracks, leAt_field hfill, leAt_field hsurvey, leAt_field hflush, leAt_field hstranded, leAt_field hbarriers,
      leAt_field hdirty, leAt_field hbelieved', hepoch, hcode]
    cases (s.unit u).sweep <;> rfl
  case lineRow =>
    intro s key k ln hk hlt hfailures hlist hepisode hnodup hholders hu hs ht hc bytes
    subst ln
    have hbytes : bytes = _ := (show s.lineSnapshot key = _ by simp only [State.lineSnapshot, hk]; rfl)
    have hdrop : bytes.drop 21 = List.replicate 43 0 := hbytes ▸ pad64_drop (by simp) rfl
    have hlength : bytes.length = 64 := hbytes ▸ pad64_length (by simp)
    refine ⟨hlength, ?_⟩
    rw [hdrop]
    have hmark : markCode (s.line k).mark = if (s.line k).mark = .data then 0#8 else 1#8 := by cases (s.line k).mark <;> rfl
    have hset : leAt (leBytes 2 (setOfLine k)) 0 2 = k / 4 := leAt_field (by simp only [setOfLine, Config.ways]; omega)
    have hway : (byteOf (wayOfLine k)).toNat = k % 4 := byteOf_toNat (by simp only [wayOfLine, Config.ways]; omega)
    have hrecord : (byteOf ((s.line k).episode.getD 0)).toNat = (s.line k).episode.getD 0 := byteOf_toNat (by
      cases hn : (s.line k).episode with
      | none => decide
      | some n => exact (hepisode n hn).trans (by decide))
    have hdirty : leAt (leBytes 4 (((s.line k).dirtyEpoch.map BitVec.toNat).getD 0)) 0 4 = ((s.line k).dirtyEpoch.map BitVec.toNat).getD 0 := by
      cases (s.line k).dirtyEpoch with
      | none => rfl
      | some e => exact leAt_leBytes_of_lt e.isLt
    have hholderSet (c : Nat) : (leAt (leBytes 2 (if (s.line k).state.loadsData then 0 else holderBits (s.line k).holders)) 0 2).testBit c
        = (decide (c ∈ (s.line k).holders) && (s.line k).state != .filling && (s.line k).state != .loading) := by
      rw [LineState.and_not_loadsData, leAt_field (by split; exacts [by decide, holderBits_lt hnodup fun c hc => (hholders c hc).2])]
      split
      · exact Nat.zero_testBit c
      · exact holderBits_testBit hnodup c
    simp [hbytes, pad64, leAt_cons, leAt_field ht, byteOf_toNat (show key.unit < 256 by omega), byteOf_toNat hs, byteOf_toNat hc, hmark, hset, hway,
      byteOf_toNat hfailures, hrecord, leAt_field hlist, hdirty, hholderSet]
  case absent =>
    intro s key hk hu hs ht hc bytes
    have hbytes : bytes = pad64 (List.replicate 16 0 ++ ([byteOf key.unit, byteOf key.surface] ++ leBytes 2 key.track ++ [byteOf key.sector])) := by
      simp only [bytes, State.lineSnapshot, hk]
    have hdrop : bytes.drop 21 = List.replicate 43 0 := hbytes ▸ pad64_drop (by simp) rfl
    have hlength : bytes.length = 64 := hbytes ▸ pad64_length (by simp)
    refine ⟨hlength, ?_⟩
    rw [hdrop]
    simp [hbytes, pad64, leAt_cons, leAt_field ht, byteOf_toNat (show key.unit < 256 by omega), byteOf_toNat hs, byteOf_toNat hc]

end Sys2Proof.Proofs
end

section
/-! PROOF. Records taken: those that a check refuses, those that complete when routed, and those that wait for the unit or hold a snapshot. -/

namespace Sys2Proof.Machine

variable {s : State} {c e : Nat}

/-! ### Validation of a record whose undefined fields are zero (R141 to R146) -/

/-- The checks after the first part of the field check, for a record of kind `k` that sets the fields of its kind only. -/
theorem State.validate_of_defined {r : Record} {k : Kind} (hk : r.kindOf = some k) (hdef : r.withoutDefined k = {}) :
    s.validate c r = if ¬ k.acceptedOn c then some .badKind else if ¬ r.rangesOk k then some .badRecord
      else if ¬ r.addressesOk k then some .badAddress else if s.part = .quiescing ∧ k.heldByQuiesce then some .quiescing
      else s.unitChecks r k := by
  have hfields : r.fieldsOk k = r.rangesOk k := by rw [Record.fieldsOk, decide_eq_true hdef, Bool.true_and]
  simp only [State.validate, hk, hfields]

theorem State.rangesOk_of_validate {r : Record} {k : Kind} (hk : r.kindOf = some k) (hdef : r.withoutDefined k = {})
    (h : s.validate c r = none) : r.rangesOk k = true := by
  rw [State.validate_of_defined hk hdef] at h
  by_contra hno
  rw [if_pos hno] at h
  split at h <;> contradiction

/-- The check of an administration record on channel 0. -/
theorem State.validate_admin {r : Record} {k : Kind} (hk : r.kindOf = some k) (hdef : r.withoutDefined k = {}) (hadmin : k.isAdmin = true) :
    s.validate 0 r = if ¬ r.rangesOk k then some .badRecord else if ¬ r.addressesOk k then some .badAddress else none := by
  have hfree : k.heldByQuiesce = false ∧ k.namesUnit = false := by cases k <;> first | exact ⟨rfl, rfl⟩ | exact absurd hadmin (by decide)
  rw [State.validate_of_defined hk hdef]
  simp [Kind.acceptedOn, hadmin, hfree.1, State.unitChecks, hfree.2]

/-- A record of a kind that names a unit passes validation only when the unit is attached and is not being discarded. -/
theorem State.unit_of_validate {r : Record} {k : Kind} (hk : r.kindOf = some k) (hnames : k.namesUnit = true) (h : s.validate c r = none) :
    (s.unit r.unit).state ≠ .detached ∧ (s.unit r.unit).discarding = false := by
  have hunit : s.unitChecks r k = none := by
    simp only [State.validate, hk] at h
    repeat (split at h; · contradiction)
    exact h
  simp only [State.unitChecks, hnames, if_true] at hunit
  split at hunit
  · contradiction
  · next hd =>
    refine ⟨hd, ?_⟩
    split at hunit
    · contradiction
    · split at hunit
      · contradiction
      · next hf => exact Bool.eq_false_iff.2 hf

theorem addressFits_iff (a : Addr) (n : Nat) : addressFits a n = true ↔ ¬ (a.toNat % 64 ≠ 0 ∨ 2 ^ 64 < a.toNat + n) := by
  rw [addressFits, Bool.and_eq_true, beq_iff_eq, decide_eq_true_eq, Config.hostSpace]
  omega

/-- The two bytes of a 16-bit field make it up. -/
theorem word_of_bytes (w : BitVec 16) : (lowByte w).toNat + 256 * (highByte w).toNat = w.toNat := by
  have hlt := w.isLt
  simp only [lowByte, highByte, BitVec.extractLsb'_toNat, Nat.shiftRight_eq_div_pow]
  omega

theorem setParametersRecord_params (tag recallMs setWaitMs high low : BitVec 16) :
    (setParametersRecord tag recallMs setWaitMs high low).params = ⟨recallMs.toNat, setWaitMs.toNat, high.toNat, low.toNat⟩ :=
  (Params.mk.injEq ..).mpr ⟨rfl, word_of_bytes _, word_of_bytes _, word_of_bytes _⟩

theorem isPowerOfTwo_double (m : Nat) (hm : m ≠ 0) : isPowerOfTwo (2 * m) = isPowerOfTwo m := by
  have hand : 2 * m &&& (2 * m - 1) = 2 * (m &&& (m - 1)) := by
    have := Nat.land_bit false m true (m - 1)
    simp only [Nat.bit_val, Bool.and_true, Bool.toNat_false, Bool.toNat_true] at this
    rwa [show 2 * (m - 1) + 1 = 2 * m - 1 by omega] at this
  rw [isPowerOfTwo, isPowerOfTwo, hand]
  have h1 : (2 * m != 0) = (m != 0) := by simp [bne, hm]
  have h2 : (2 * (m &&& (m - 1)) == 0) = ((m &&& (m - 1)) == 0) := by simp
  rw [h1, h2]

/-- A power of two in the sense of the check is one. -/
theorem eq_two_pow_of_isPowerOfTwo {n : Nat} (h : isPowerOfTwo n = true) : ∃ k, n = 2 ^ k := by
  induction n using Nat.strong_induction_on with
  | _ n ih =>
    rcases Nat.even_or_odd' n with ⟨m, rfl | rfl⟩
    · rcases Nat.eq_zero_or_pos m with rfl | hm
      · exact absurd h (by decide)
      · obtain ⟨k, hk⟩ := ih m (by omega) (isPowerOfTwo_double m (by omega) ▸ h)
        exact ⟨k + 1, by rw [hk, Nat.pow_succ, Nat.mul_comm]⟩
    · refine ⟨0, ?_⟩
      have hand : 2 * m + 1 &&& 2 * m = 2 * m := by
        have := Nat.land_bit true m false m
        simpa only [Nat.bit_val, Bool.and_false, Bool.toNat_false, Bool.toNat_true, Nat.and_self, Nat.add_zero] using this
      rw [isPowerOfTwo, Nat.add_sub_cancel, hand, Bool.and_eq_true, beq_iff_eq] at h
      rw [h.2]
      rfl

theorem ringSizeOk_iff (n : Nat) : ringSizeOk 16 4096 n = true ↔ n ∈ [16, 32, 64, 128, 256, 512, 1024, 2048, 4096] := by
  constructor
  · intro h
    rw [ringSizeOk, Bool.and_eq_true, Bool.and_eq_true, decide_eq_true_eq, decide_eq_true_eq] at h
    obtain ⟨⟨hpow, hlow⟩, hhigh⟩ := h
    obtain ⟨k, rfl⟩ := eq_two_pow_of_isPowerOfTwo hpow
    have h4 : 4 ≤ k := (Nat.pow_le_pow_iff_right (a := 2) (by decide)).1 hlow
    have h12 : k ≤ 12 := (Nat.pow_le_pow_iff_right (a := 2) (by decide)).1 hhigh
    interval_cases k <;> decide
  · have hall : ∀ m ∈ [16, 32, 64, 128, 256, 512, 1024, 2048, 4096], ringSizeOk 16 4096 m = true := by decide
    exact hall n

/-! ### Pressure (R80) -/

/-- Pressure follows the dirty count by the marks in force. -/
theorem State.comparePressure_eq {p : Params} (hp : s.params = some p) :
    s.comparePressure = s.setPressure (if s.pressure then decide (p.lowMark < s.dirtyCount) else decide (p.highMark ≤ s.dirtyCount)) := by
  have hsame (b : Bool) (hb : s.pressure = b) : s = s.setPressure b := by rw [← hb]; rfl
  rw [comparePressure, hp]
  cases hb : s.pressure with
  | false =>
    by_cases hh : p.highMark ≤ s.dirtyCount
    · simp [hh]
    · simpa [hh] using hsame false hb
  | true =>
    by_cases hl : s.dirtyCount ≤ p.lowMark
    · simp [hl, Nat.not_lt.2 hl]
    · simpa [hl, Nat.not_le.1 hl] using hsame true hb

/-- R105: no selection is made while an operation is in flight. -/
theorem State.select_of_op {u : Nat} (h : (s.unit u).op.isSome) : s.select u = s := by
  have : s.maySelect u = false := by simp [State.maySelect, Option.isSome_iff_ne_none.1 h]
  rw [State.select, this]
  rfl

/-! ### The entry of a record that has been taken -/

@[simp] theorem State.placed_setRequest (r q : Request) : (s.placed c e r).setRequest e (some q) = s.placed c e q := by
  simp [State.placed, State.setRequest_eq]

@[simp] theorem State.placed_updRequest (r : Request) (f : Request → Request) : (s.placed c e r).updRequest e f = s.placed c e (f r) := by
  simp [State.updRequest]

/-- A request just taken changes, on a state that agrees with `placed` on the request table. -/
theorem State.updRequest_like {t : State} {q : Request} (ht : t.table = (s.placed c e q).table) (f : Request → Request) :
    t.updRequest e f = { t with table := SMap.set none s.table e (some (f q)) } := by
  have hreq : t.request e = some q := by rw [State.request, ht]; exact (s.placed_request q e).trans (if_pos rfl)
  rw [State.updRequest, hreq, State.setRequest_eq, ht]
  simp [State.placed]

@[simp] theorem State.newRequest_record (r : Record) : (s.newRequest c r).record = r := rfl

/-- A request just taken completes whatever has been noted on it, on a state that agrees with `placed` on the request table and the channels. -/
theorem State.Takes.completes (h : s.Takes c e) {t : State} {q : Request} (x : Completion) (ht : t.table = (s.placed c e q).table)
    (hc : t.channels = (s.placed c e q).channels) (hq : q.place ≠ .done) (hch : q.channel = c) :
    t.complete e x = { t with
      table := SMap.set none s.table e (some (q.ended x))
      channels := SMap.set {} s.channels c { (s.channel c).taken with postQueue := (s.channel c).postQueue ++ [e] } } := by
  have hreq : t.request e = some q := by rw [State.request, ht]; exact (s.placed_request q e).trans (if_pos rfl)
  have hchan (d : Nat) : t.channel d = if d = c then (s.channel c).taken else s.channel d := by
    rw [State.channel, hc]; exact s.placed_channel q d
  have htaken : t.channel q.channel = (s.channel c).taken := by rw [hch, hchan, if_pos rfl]
  rw [State.complete_plain x hreq hq (by rw [htaken]; exact h.posts) (by rw [htaken]; exact h.clear), State.updChannel, State.setRequest_channel,
    htaken, hch]
  simp [State.setRequest_eq, State.setChannel_eq, ht, hc, State.placed, Channel.taken]

/-! ### Routing of the administration kinds (R147) -/

section
variable (r : Record)

theorem State.placed_route_openChannel : (s.placed c e (s.newRequest c r)).route e (s.newRequest c r) .channelOpen
    = (s.placed c e { s.newRequest c r with place := .active }).openChannel e r := congrArg (State.openChannel · e r) (State.placed_setRequest ..)

theorem State.placed_route_closeChannel : (s.placed c e (s.newRequest c r)).route e (s.newRequest c r) .channelClose
    = (s.placed c e { s.newRequest c r with place := .active }).closeChannel e r := congrArg (State.closeChannel · e r) (State.placed_setRequest ..)

theorem State.placed_route_attachUnit : (s.placed c e (s.newRequest c r)).route e (s.newRequest c r) .unitAttach
    = (s.placed c e { s.newRequest c r with place := .active }).attachUnit e r := congrArg (State.attachUnit · e r) (State.placed_setRequest ..)

theorem State.placed_route_detachUnit : (s.placed c e (s.newRequest c r)).route e (s.newRequest c r) .unitDetach
    = (s.placed c e { s.newRequest c r with place := .active }).detachUnit e r := congrArg (State.detachUnit · e r) (State.placed_setRequest ..)

theorem State.placed_route_discardUnit : (s.placed c e (s.newRequest c r)).route e (s.newRequest c r) .unitDiscard
    = (s.placed c e { s.newRequest c r with place := .active }).discardUnit e r := congrArg (State.discardUnit · e r) (State.placed_setRequest ..)

theorem State.placed_route_setParameters : (s.placed c e (s.newRequest c r)).route e (s.newRequest c r) .setParameters
    = (s.placed c e { s.newRequest c r with place := .active }).setParameters e r := congrArg (State.setParameters · e r) (State.placed_setRequest ..)

theorem State.placed_route_queryChannel : (s.placed c e (s.newRequest c r)).route e (s.newRequest c r) .queryChannel
    = (s.placed c e { s.newRequest c r with place := .active }).queryChannel e r := congrArg (State.queryChannel · e r) (State.placed_setRequest ..)

theorem State.placed_route_queryUnit : (s.placed c e (s.newRequest c r)).route e (s.newRequest c r) .queryUnit
    = (s.placed c e { s.newRequest c r with place := .active }).queryUnit e r := congrArg (State.queryUnit · e r) (State.placed_setRequest ..)

theorem State.placed_route_queryLine : (s.placed c e (s.newRequest c r)).route e (s.newRequest c r) .queryLine
    = (s.placed c e { s.newRequest c r with place := .active }).queryLine e r := congrArg (State.queryLine · e r) (State.placed_setRequest ..)

end

/-! ### Snapshots (R185 to R188) -/

theorem State.holdSnapshot_placed (q : Request) (bs : List Byte) :
    (s.placed c e q).holdSnapshot e bs = s.placed c e { q with snapshot := some bs } := State.placed_updRequest ..

theorem State.placed_opened (q : Request) (d : Nat) : ((s.placed c e q).channel d).opened = (s.channel d).opened := by
  rw [State.placed_channel]
  split
  · next h => rw [h]; rfl
  · rfl

/-- A request of an administration kind that completes when it is routed. -/
theorem State.Takes.answers_active (h : s.Takes c e) (r : Record) (x : Completion) :
    (s.placed c e { s.newRequest c r with place := .active }).complete e x = s.answered c e r x :=
  (h.completes x rfl rfl (by simp) rfl).trans rfl

/-- The step that takes a record which passes validation and sets nothing more in motion than its routing. -/
theorem State.Takes.step (h : s.Takes c e) {i : Instr} {r : Record} {k : Kind} {t : State} (hi : exec i s = .next (s.fetchReturns r))
    (hv : s.validate c r = none) (hk : r.kindOf = some k)
    (hroute : (s.placed c e (s.newRequest c r)).route e (s.newRequest c r) k = t) (ht : t.agenda = []) : exec i s = .next t := by
  rw [hi, h.routed hv hk, hroute, State.finish_nil _ ht]

theorem State.setAgenda_self {t : State} (h : t.agenda = []) : t.setAgenda [] = t := by
  rw [← h]; rfl

/-- The step that takes a record whose routing sets in motion one piece of work that comes to nothing. -/
theorem State.Takes.step_idle (h : s.Takes c e) {i : Instr} {r : Record} {k : Kind} {t : State} {w : Work}
    (hi : exec i s = .next (s.fetchReturns r)) (hv : s.validate c r = none) (hk : r.kindOf = some k)
    (hroute : (s.placed c e (s.newRequest c r)).route e (s.newRequest c r) k = t.setAgenda [w])
    (hrun : runWork w t = t) (ht : t.agenda = []) : exec i s = .next t := by
  have hsame : (t.setAgenda [w]).setAgenda [] = t := State.setAgenda_self ht
  rw [hi, h.routed hv hk, hroute, State.finish_one _ w rfl (by rw [hsame, hrun]; exact ht), hsame, hrun]

/-- The step that takes a record which its routing answers. -/
theorem State.Takes.step_answered (h : s.Takes c e) {i : Instr} {r : Record} {k : Kind} {x : Completion}
    (hi : exec i s = .next (s.fetchReturns r)) (hv : s.validate c r = none) (hk : r.kindOf = some k)
    (hroute : (s.placed c e (s.newRequest c r)).route e (s.newRequest c r) k = s.answered c e r x) : exec i s = .next (s.answered c e r x) :=
  h.step hi hv hk hroute h.settled

end Sys2Proof.Machine

namespace Sys2Proof.Proofs

open Sys2Proof Sys2Proof.Machine

/-- Settles O17: the taking completes the request, and nothing is left to run. -/
theorem failedCheckCompletesAtOnce : Obligations.FailedCheckCompletesAtOnce := by
  intro s c e bs status h hv
  have hstep : exec (.fetchEnd (some bs)) s = .next (s.fetchReturns (Record.parse bs)) := rfl
  rw [hstep, h.fetchReturns, State.takeRecord_refused (s := s.setFetch none) hv, h.complete_eq]
  exact congrArg _ (State.finish_nil _ h.settled)

/-- Settles O15: the checks of `validate` for the two data kinds. -/
theorem dataKindChecksInOrder : Obligations.DataKindChecksInOrder := by
  intro s c tag hold unit surface track sector buffer first
  have hflags : flagByte [hold] &&& ~~~(1 : Byte) = 0 := by cases hold <;> rfl
  have hread : (readRecord tag hold unit surface track sector buffer).withoutDefined .read = {} := by
    simp only [readRecord, Record.withoutDefined, Kind.flagMask, hflags]
  have hwrite : (writeRecord tag hold unit surface track sector buffer).withoutDefined .write = {} := by
    simp only [writeRecord, Record.withoutDefined, Kind.flagMask, hflags]
  have hchecks (k : Kind) (hk : k = .read ∨ k = .write) {r : Record} (hkind : r.kindOf = some k) (hdef : r.withoutDefined k = {})
      (hunit : r.unit = unit.toNat) (hkey : r.key = ⟨unit.toNat, surface.toNat, track.toNat, sector.toNat⟩) (hbuffer : r.buffer = buffer) :
      s.validate c r = first := by
    have hranges : r.rangesOk k = decide (unit.toNat ≤ 3) := by rcases hk with rfl | rfl <;> simp [Record.rangesOk, hunit]
    have haddress : r.addressesOk k = addressFits buffer 1024 := by rcases hk with rfl | rfl <;> simp [Record.addressesOk, hbuffer]
    have hwithin : r.withinGeometry k = fun g => decide (track.toNat < g.tracks ∧ surface.toNat < g.surfaces ∧ sector.toNat < g.sectors) := by
      funext g
      rcases hk with rfl | rfl <;> simp [Record.withinGeometry, Geometry.holds, hkey]
    have hkinds : k.acceptedOn c = decide (c ≠ 0) ∧ k.heldByQuiesce = true ∧ k.namesUnit = true := by
      rcases hk with rfl | rfl <;> simp [Kind.acceptedOn, Kind.isAdmin, Kind.heldByQuiesce, Kind.namesUnit]
    obtain ⟨haccept, hquiesce, hnames⟩ := hkinds
    simp only [State.validate_of_defined hkind hdef, haccept, hranges, haddress, hquiesce, State.unitChecks, hnames, hunit, hwithin, first,
      addressFits_iff, decide_eq_true_eq, not_not, not_le, and_true, if_true, ne_eq]
  exact ⟨hchecks .read (.inl rfl) rfl hread rfl rfl rfl, hchecks .write (.inr rfl) rfl hwrite rfl rfl rfl⟩

/-- Settles O16: no check but those of the fields and the addresses applies to an administration kind on channel 0. -/
theorem administrationFieldRanges : Obligations.AdministrationFieldRanges := by
  intro s tag sizes
  have hrange (k : Kind) {r : Record} (p : Prop) [Decidable p] (hk : r.kindOf = some k) (hdef : r.withoutDefined k = {}) (hadmin : k.isAdmin = true)
      (haddress : r.addressesOk k = true) (hp : r.rangesOk k = true ↔ p) : s.validate 0 r = if p then none else some .badRecord := by
    rw [State.validate_admin hk hdef hadmin]
    by_cases h : p
    · simp [hp.2 h, haddress, h]
    · simp [mt hp.1 h, h]
  have hquery (k : Kind) {r : Record} (p : Prop) [Decidable p] {buffer : Addr} (hk : r.kindOf = some k) (hdef : r.withoutDefined k = {})
      (hadmin : k.isAdmin = true) (haddress : r.addressesOk k = addressFits buffer 64) (hp : r.rangesOk k = true ↔ p) :
      s.validate 0 r = if p then (if buffer.toNat % 64 ≠ 0 ∨ 2 ^ 64 < buffer.toNat + 64 then some Status.badAddress else none)
        else some .badRecord := by
    rw [State.validate_admin hk hdef hadmin, haddress]
    simp only [addressFits_iff, not_not]
    by_cases h : p
    · simp [hp.2 h, h]
    · simp [mt hp.1 h, h]
  refine ⟨fun intr ch sqBase cqBase sqSize cqSize limit quota revoke => ?_, fun ch => ?_, fun u tracks surfaces sectors retries => ?_,
    fun u => ⟨?_, ?_⟩, fun recallMs setWaitMs high low => ?_, fun n surface sector track buffer => ⟨?_, ?_, ?_⟩⟩
  · have hflags : flagByte [false, false, intr] &&& ~~~(4 : Byte) = 0 := by cases intr <;> rfl
    have hdef : (channelOpenRecord tag intr ch sqBase cqBase sqSize cqSize limit quota revoke).withoutDefined .channelOpen = {} := by
      simp only [channelOpenRecord, Record.withoutDefined, Kind.flagMask, hflags]
    have hranges : (channelOpenRecord tag intr ch sqBase cqBase sqSize cqSize limit quota revoke).rangesOk .channelOpen = true
        ↔ 1 ≤ ch.toNat ∧ ch.toNat ≤ 15 ∧ sqSize.toNat ∈ sizes ∧ cqSize.toNat ∈ sizes ∧ 1 ≤ limit.toNat ∧ limit.toNat ≤ 64 ∧ quota.toNat ≤ 64
          ∧ revoke.toNat ≤ 15 := by
      have hcqSize : (channelOpenRecord tag intr ch sqBase cqBase sqSize cqSize limit quota revoke).w34 = cqSize.toNat := word_of_bytes cqSize
      rw [Record.rangesOk, hcqSize]
      simp only [Bool.and_eq_true, ringSizeOk_iff, decide_eq_true_iff, and_assoc]
      rfl
    have haddress : (channelOpenRecord tag intr ch sqBase cqBase sqSize cqSize limit quota revoke).addressesOk .channelOpen = true
        ↔ ¬ (sqBase.toNat % 64 ≠ 0 ∨ 2 ^ 64 < sqBase.toNat + sqSize.toNat * 64 ∨ cqBase.toNat % 64 ≠ 0
          ∨ 2 ^ 64 < cqBase.toNat + cqSize.toNat * 32) := by
      have hcqSize : (channelOpenRecord tag intr ch sqBase cqBase sqSize cqSize limit quota revoke).w34 = cqSize.toNat := word_of_bytes cqSize
      rw [Record.addressesOk, hcqSize, Bool.and_eq_true, addressFits_iff, addressFits_iff, ← not_or, or_assoc]
      rfl
    rw [State.validate_admin rfl hdef rfl]
    simp only [hranges, haddress, not_not]
  · exact hrange .channelClose _ rfl (by simp [channelCloseRecord, Record.withoutDefined, Kind.flagMask]) rfl rfl decide_eq_true_iff
  · refine hrange .unitAttach _ rfl (by simp [unitAttachRecord, Record.withoutDefined, Kind.flagMask]) rfl rfl ?_
    rw [Record.rangesOk, unitAttachRecord, Bool.and_eq_true, Bool.and_eq_true, Bool.and_eq_true, Bool.and_eq_true, decide_eq_true_iff, decide_eq_true_iff, decide_eq_true_iff, decide_eq_true_iff, decide_eq_true_iff]
    simp only [Record.unit]
    omega
  · exact hrange .unitDetach _ rfl (by simp [unitDetachRecord, Record.withoutDefined, Kind.flagMask]) rfl rfl decide_eq_true_iff
  · exact hrange .unitDiscard _ rfl (by simp [unitDiscardRecord, Record.withoutDefined, Kind.flagMask]) rfl rfl decide_eq_true_iff
  · refine hrange .setParameters _ rfl (by simp [setParametersRecord, Record.withoutDefined, Kind.flagMask]) rfl rfl ?_
    rw [Record.rangesOk, setParametersRecord_params]
    exact decide_eq_true_iff
  · exact hquery .queryChannel _ rfl (by simp [queryChannelRecord, Record.withoutDefined, Kind.flagMask]) rfl rfl decide_eq_true_iff
  · exact hquery .queryUnit _ rfl (by simp [queryUnitRecord, Record.withoutDefined, Kind.flagMask]) rfl rfl decide_eq_true_iff
  · exact hquery .queryLine _ rfl (by simp [queryLineRecord, Record.withoutDefined, Kind.flagMask]) rfl rfl decide_eq_true_iff

/-- Settles O34: the parameters first, then the comparison of the dirty count with the new marks, then the completion. -/
theorem parametersTakeForce : Obligations.ParametersTakeForce := by
  intro s e tag recallMs setWaitMs high low record h hv
  have hparams : record.params = ⟨recallMs.toNat, setWaitMs.toNat, high.toNat, low.toNat⟩ := setParametersRecord_params ..
  have hdef : record.withoutDefined .setParameters = {} := by simp [record, setParametersRecord, Record.withoutDefined, Kind.flagMask]
  have hok : record.params.ok = true := State.rangesOk_of_validate (k := .setParameters) rfl hdef hv
  obtain ⟨-, -, -, -, -, -, hlow⟩ := of_decide_eq_true (hparams ▸ hok)
  have hlow : low.toNat < high.toNat := hlow
  have hpressure (t : State) : (t.setParams (some record.params)).comparePressure = { t with
      params := some ⟨recallMs.toNat, setWaitMs.toNat, high.toNat, low.toNat⟩
      pressure := if high.toNat ≤ t.dirtyCount then true else if t.dirtyCount ≤ low.toNat then false else t.pressure } := by
    rw [hparams, State.comparePressure_eq rfl]
    have hvalue : (if t.pressure then decide (low.toNat < t.dirtyCount) else decide (high.toNat ≤ t.dirtyCount))
        = if high.toNat ≤ t.dirtyCount then true else if t.dirtyCount ≤ low.toNat then false else t.pressure := by
      cases t.pressure
      · simp
      · by_cases hhigh : high.toNat ≤ t.dirtyCount
        · simp [hhigh, hlow.trans_le hhigh]
        · by_cases hl : t.dirtyCount ≤ low.toNat
          · simp [hhigh, hl, Nat.not_lt.2 hl]
          · simp [hhigh, hl, Nat.not_le.1 hl]
    exact congrArg (State.setPressure _) hvalue
  refine h.step rfl hv rfl ?_ h.settled
  rw [State.placed_route_setParameters]
  refine (congrArg (State.complete · e _) (hpressure _)).trans ?_
  exact h.completes (q := { s.newRequest 0 record with place := .active }) _ rfl rfl (by simp) rfl

/-- Settles O27. -/
theorem surveyJoinsItsUnitsQueue : Obligations.SurveyJoinsItsUnitsQueue := by
  intro s c e tag unit surface track buffer record x h hv
  have hdiscarding : x.discarding = false := (State.unit_of_validate (k := .survey) rfl rfl hv).2
  refine ⟨fun hx => h.step_answered rfl hv rfl ?_, fun hx hop => ?_⟩
  · rw [← h.answers]
    exact (if_neg (Bool.eq_false_iff.1 hdiscarding)).trans (if_pos hx)
  · refine h.step_idle rfl hv rfl (w := .select unit.toNat) ?_ (State.select_of_op ?_) h.settled
    · refine (if_neg (Bool.eq_false_iff.1 hdiscarding)).trans ((if_neg (not_not.2 hx)).trans ?_)
      refine (congrArg (State.later · [.select unit.toNat]) (State.updRequest_like (s := s) (c := c) (q := s.newRequest c record) (by rfl) _)).trans ?_
      exact congrArg (State.setAgenda _) (congrArg (· ++ _) h.settled)
    · exact (congrArg (fun y : UnitRec => y.op.isSome) ((SMap.get_set ..).trans (if_pos rfl))).trans hop

/-- Settles O31. -/
theorem unitAttachesWhenDetached : Obligations.UnitAttachesWhenDetached := by
  intro s e tag unit tracks surfaces sectors retries record x h hv
  refine ⟨fun hx => h.step_answered rfl hv rfl ?_, fun hx => h.step rfl hv rfl ?_ h.settled⟩
  all_goals rw [State.placed_route_attachUnit]
  · rw [← h.answers_active]
    exact if_neg hx
  · refine (if_pos hx).trans ?_
    exact h.completes (q := { s.newRequest 0 record with place := .active }) _ rfl rfl (by simp) rfl

/-- Settles O35: the snapshot is noted on the ACTIVE request. -/
theorem queriesTakeTheirSnapshots : Obligations.QueriesTakeTheirSnapshots := by
  intro s e tag n surface sector track buffer chRecord unRecord lnRecord within h
  refine ⟨fun hv hx => ?_, fun hv hx => ?_, fun hv hx => ?_, fun hv hx => ?_, fun hv hx hw => ?_, fun hv hx hw => ?_, fun hv hx => ?_⟩
  · exact h.step rfl hv rfl ((State.placed_route_queryChannel _).trans
      ((if_pos ((State.placed_opened ..).trans hx)).trans (State.holdSnapshot_placed ..))) h.settled
  · refine h.step_answered rfl hv rfl ?_
    rw [State.placed_route_queryChannel, ← h.answers_active]
    exact if_neg (Bool.eq_false_iff.1 ((State.placed_opened ..).trans hx))
  · exact h.step rfl hv rfl ((State.placed_route_queryUnit _).trans
      ((if_neg hx).trans (congrArg State.countSample (State.holdSnapshot_placed ..)))) h.settled
  · refine h.step_answered rfl hv rfl ?_
    rw [State.placed_route_queryUnit, ← h.answers_active]
    exact if_pos hx
  · exact h.step rfl hv rfl ((State.placed_route_queryLine _).trans
      ((if_neg hx).trans ((if_neg (not_not.2 hw)).trans (State.holdSnapshot_placed ..)))) h.settled
  · refine h.step_answered rfl hv rfl ?_
    rw [State.placed_route_queryLine, ← h.answers_active]
    exact (if_neg hx).trans (if_pos hw)
  · refine h.step_answered rfl hv rfl ?_
    rw [State.placed_route_queryLine, ← h.answers_active]
    exact if_pos hx

end Sys2Proof.Proofs
end

section
/-! PROOF. The ends of host transfers (R59 to R61, R135, R136, R185) and of record writes (R164 to R170). -/

namespace Sys2Proof.Machine

variable {s : State} {e : Nat} {r : Request}

/-! ### Transfers in flight -/

/-- Outside FAILED the transfer of an entry is in flight by what the entry's request says. -/
theorem State.outgoing_running (hp : s.part ≠ .failed) (hr : s.request e = some r) {p : Request → Bool} (h : p r = true) :
    s.outgoing e p = some r := by
  rw [State.outgoing, if_neg (fun hf => hp hf.1), hr, Option.filter_some, if_pos h]

/-- What follows from the end of an entry's writes is its request's completion, and nothing else. -/
theorem State.Completes.afterWrites (h : s.Completes e r) (hp : s.part ≠ .failed) (x : Completion) (out : List Output) :
    ({ s with outbox := out } : State).afterWrites e (fun t => t.complete e x) = { s.completed e r x with outbox := out } := by
  have hrun : ({ s with outbox := out } : State).afterWrites e (fun t => t.complete e x) = (State.complete { s with outbox := out } e x).finish :=
    State.afterWrites_running hp
  rw [hrun, h.complete_like (t := { s with outbox := out }) x rfl rfl]
  exact State.finish_nil _ h.settled

/-! ### Snapshot writes and entry writes -/

theorem exec_snapshotWriteEnd {bs : List Byte} (hp : s.part ≠ .failed) (h : s.Completes e r) (ha : r.place = .active) (hs : r.snapshot = some bs)
    (error : Option Nat) : exec (.snapshotWriteEnd e error) s = .next ((s.emitWrite r.record.buffer.toNat bs error).afterWrites e
      (fun t => t.complete e (snapshotCompletion error))) := by
  have hflight : s.snapshotInFlight e = some (r, bs) := by
    rw [State.snapshotInFlight, State.outgoing_running hp h.held (by simp [ha]), Option.bind_some, hs, Option.map_some]
  show execSnapshotWriteEnd e error s = _
  rw [execSnapshotWriteEnd, hflight]

theorem exec_surveyEntryWriteEnd {result : SurveyResult} (hp : s.part ≠ .failed) (h : s.Completes e r) (ha : r.place = .active)
    (hk : r.kind = some .survey) (hs : r.survey = some result) (error : Option Nat) :
    exec (.surveyEntryWriteEnd e error) s = .next ((s.emitWrite r.record.buffer.toNat result.bytes error).afterWrites e
      (fun t => t.complete e (surveyCompletion result error))) := by
  have hflight : s.surveyInFlight e = some (r, result) := by
    rw [State.surveyInFlight, State.outgoing_running hp h.held (by simp [Request.activeAs, ha, hk]), Option.bind_some, hs, Option.map_some]
  show execSurveyEntryWriteEnd e error s = _
  rw [execSurveyEntryWriteEnd, hflight]

theorem SurveyResult.bytes_ne_nil {result : SurveyResult} (h : result.entries ≠ []) : result.bytes ≠ [] := by
  obtain ⟨entry, rest, hentries⟩ := List.exists_cons_of_ne_nil h
  rw [SurveyResult.bytes, hentries, List.flatMap_cons]
  exact List.append_ne_nil_of_left_ne_nil (List.cons_ne_nil _ _) _

end Sys2Proof.Machine

namespace Sys2Proof.Proofs

open Sys2Proof Sys2Proof.Machine

/-- Settles O37: the bytes put out, then the completion. -/
theorem snapshotAndEntryWritesEnd : Obligations.SnapshotAndEntryWritesEnd := by
  intro s e n r bs result hp h ha hn
  refine ⟨fun hs hbs => ⟨?_, ?_, ?_⟩, fun hk hs hentries => ⟨?_, ?_, ?_⟩⟩
  · rw [exec_snapshotWriteEnd hp h ha hs, State.emitWrite_all hbs]
    exact congrArg _ (h.afterWrites hp _ _)
  · rw [exec_snapshotWriteEnd hp h ha hs, State.emitWrite_some hbs hn]
    exact congrArg _ (h.afterWrites hp _ _)
  · rw [exec_snapshotWriteEnd hp h ha hs, State.emitWrite_zero]
    exact congrArg _ (h.afterWrites hp _ _)
  · rw [exec_surveyEntryWriteEnd hp h ha hk hs, State.emitWrite_all (SurveyResult.bytes_ne_nil hentries)]
    exact congrArg _ (h.afterWrites hp _ _)
  · rw [exec_surveyEntryWriteEnd hp h ha hk hs, State.emitWrite_some (SurveyResult.bytes_ne_nil hentries) hn]
    exact congrArg _ (h.afterWrites hp _ _)
  · rw [exec_surveyEntryWriteEnd hp h ha hk hs, State.emitWrite_zero]
    exact congrArg _ (h.afterWrites hp _ _)

/-- Settles O38: which record is next decides the write. -/
theorem recordWriteStartsAtTheTail : Obligations.RecordWriteStartsAtTheTail := by
  intro s c x started hp hstate hwriting hpost
  have hmay : (s.channel c).mayWrite = true := by
    have htakes : x.state.takesHead = true := by rcases hstate with h | h | h <;> rw [h] <;> rfl
    simp [Channel.mayWrite, x, htakes, hwriting, hpost]
  have hstep : exec (.recordWriteStart c) s = _ := if_pos ⟨hp, hmay⟩
  have hmargin : x.hasMargin = true ↔ x.reserved < x.cqSize - 1 - (x.cqTail + x.cqSize - x.cqHead) % x.cqSize := decide_eq_true_iff
  refine ⟨fun e rest r y hq hr hy => ?_, fun n rest hq hb hm => ?_, fun hq hm => ?_⟩
  · rw [hstep]
    simp only [x] at hq
    simp only [hq, State.startCompletion, hr, hy]
    rfl
  · rw [hstep]
    simp only [x] at hq hb
    simp only [hq, hb]
    exact if_pos (hmargin.2 hm)
  · rw [hstep]
    simp only [x] at hq
    simp only [hq]
    split
    · contradiction
    · exact if_neg (mt hmargin.1 (Nat.not_lt.2 hm))
    · rfl

end Sys2Proof.Proofs
end

section
/-! PROOF. The ends of read transfers (R30, R59 to R61) and of record writes (R154, R165 to R170). -/

namespace Sys2Proof.Machine

variable {s t : State} {c e k n slot : Nat} {r : Request}

/-! ### Updates as record updates -/

theorem State.touch_eq (s : State) (k : Nat) : s.touch k = { s with
    recency := SMap.set [0, 1, 2, 3] s.recency (k / 4) (k % 4 :: (s.order (k / 4)).filter (· != k % 4)) } := rfl

theorem State.takeRef_eq (s : State) (slot : Nat) : s.takeRef slot = { s with refs := SMap.set 0 s.refs slot (s.refCount slot + 1) } := rfl

theorem State.emit_eq (s : State) (o : Output) : s.emit o = { s with outbox := o :: s.outbox } := rfl

theorem State.soon_eq (s : State) (w : List Work) : s.soon w = { s with agenda := w ++ s.agenda } := rfl

theorem State.later_eq (s : State) (w : List Work) : s.later w = { s with agenda := s.agenda ++ w } := rfl

/-! ### A table's entry changed, where the entry is known -/

theorem State.updChannel_eq {x : Channel} (h : s.channel c = x) (f : Channel → Channel) :
    s.updChannel c f = { s with channels := SMap.set {} s.channels c (f x) } := by rw [updChannel, h]; rfl

theorem State.updUnit_eq {u : Nat} {x : UnitRec} (h : s.unit u = x) (f : UnitRec → UnitRec) :
    s.updUnit u f = { s with units := SMap.set {} s.units u (f x) } := by rw [updUnit, h]; rfl

theorem State.updLine_eq {x : Line} (h : s.line k = x) (f : Line → Line) :
    s.updLine k f = { s with lines := SMap.set {} s.lines k (f x) } := by rw [updLine, h]; rfl

theorem State.updRequest_eq (h : s.request e = some r) (f : Request → Request) :
    s.updRequest e f = { s with table := SMap.set none s.table e (some (f r)) } := by rw [updRequest, h]; rfl

/-- R152, R154: a request completes on a channel whose context is known, which queues it, and for which no BARRIER waits. -/
theorem State.complete_eq {y : Channel} (x : Completion) (hr : s.request e = some r) (hd : r.place ≠ .done) (hy : s.channel r.channel = y)
    (hp : y.postError = false) (hf : y.fetchHold = none) :
    s.complete e x = { s with
      table := SMap.set none s.table e (some (r.ended x))
      channels := SMap.set {} s.channels r.channel { y with postQueue := y.postQueue ++ [e] } } := by
  have hy' : (s.setRequest e (some (r.ended x))).channel r.channel = y := hy
  rw [complete_plain x hr hd (by rw [hy]; exact hp) (by rw [hy]; exact hf), updChannel_eq hy']
  rfl

/-! ### Running an agenda out (log 3) -/

/-- The agenda of `s` runs out within `n` pieces of work, and leaves `t`. -/
def State.RunsTo (n : Nat) (s t : State) : Prop := settle n s = t ∧ t.agenda = []

theorem State.RunsTo.nil (h : s.agenda = []) : RunsTo 0 s s := ⟨rfl, h⟩

/-- The piece at the head of the agenda runs, then the rest. -/
theorem State.RunsTo.cons {w : Work} {ws : List Work} (h : RunsTo n (runWork w (s.setAgenda ws)) t) : RunsTo (n + 1) (s.setAgenda (w :: ws)) t :=
  ⟨(settle_cons n _ w ws rfl).trans h.1, h.2⟩

/-- A piece of work that comes to nothing. -/
theorem State.RunsTo.idle {w : Work} {ws : List Work} (hw : runWork w (s.setAgenda ws) = s.setAgenda ws) (h : RunsTo n (s.setAgenda ws) t) :
    RunsTo (n + 1) (s.setAgenda (w :: ws)) t := .cons (by rw [hw]; exact h)

theorem State.RunsTo.done (h : s.agenda = []) : RunsTo 0 (s.setAgenda []) s := by
  rw [setAgenda_self h]; exact .nil h

/-- The state in which an agenda runs out is that in which the step ends. -/
theorem State.RunsTo.finish (h : RunsTo n s t) (hn : n.ble 100 = true) : s.finish = t := by
  obtain ⟨hrun, hagenda⟩ := h
  rw [finish_eq n s ((Nat.le_of_ble_eq_true hn).trans (by decide)) (hrun ▸ hagenda), hrun]

/-- A request completes, and the rest of the agenda runs. -/
theorem State.RunsTo.complete {x : Completion} {ws : List Work} {u : State} (h : s.Completes e r) (hu : RunsTo n ((s.completed e r x).setAgenda ws) u) :
    RunsTo (n + 1) (s.setAgenda (.complete e x :: ws)) u := by
  refine .cons ?_
  have hdone : (s.setAgenda ws).complete e x = (s.completed e r x).setAgenda ws := h.complete_like (t := s.setAgenda ws) x rfl rfl
  show RunsTo n ((s.setAgenda ws).complete e x) u
  rw [hdone]
  exact hu

/-- A request completes, and no request of its line's set waits. -/
theorem State.Completes.finish_complete (h : t.Completes e r) (hw : t.waiters (k / 4) = []) (x : Completion) :
    (t.setAgenda [.complete e x, .evictCheck k]).finish = t.completed e r x := by
  refine RunsTo.finish (n := 2) (RunsTo.complete h ?_) rfl
  exact RunsTo.idle (w := Work.evictCheck k) (State.evictCheck_nil (t := (t.completed e r x).setAgenda []) hw) (RunsTo.done h.settled)

/-! ### Deciding a READ's hold (R30) -/

/-- R30: what refuses a READ's hold on line `k`. -/
def State.RefusesHold (s : State) (r : Request) (k slot : Nat) : Prop :=
  (s.channel r.channel).state ≠ .open ∨ (s.unit r.key.unit).discarding = true ∨ (s.line k).state = .free ∨ (s.line k).key ≠ some r.key
    ∨ (r.channel ∉ (s.line k).holders ∧ ((s.line k).writer ≠ none ∨ (s.line k).currentSlot ≠ some slot
        ∨ (s.channel r.channel).holdQuota ≤ (s.channel r.channel).holdCount))

theorem Channel.quotaHold_eq (x : Channel) : x.quotaHold = if x.holdQuota ≤ x.holdCount then .refused else .granted := rfl

theorem State.readHold_of_refuses (hd : r.delivered = some slot) (h : s.RefusesHold r k slot) : s.readHold r k = .refused := by
  unfold readHold
  dsimp only
  split
  · rfl
  · split
    · rfl
    · split
      · rfl
      · next hopen hkept hline =>
        rcases h with h | h | h | h | ⟨hnot, h⟩
        · exact absurd h hopen
        · exact absurd h hkept
        · exact absurd (.inl h) hline
        · exact absurd (.inr h) hline
        · rw [if_neg (by simpa using hnot), hd]
          split
          · rfl
          · next hslot =>
            rw [Channel.quotaHold_eq]
            rcases h with h | h | h
            · exact absurd (.inl (Option.isSome_iff_ne_none.2 h)) hslot
            · exact absurd (.inr h) hslot
            · rw [if_pos h]

theorem State.readHold_of_not_refuses (hd : r.delivered = some slot) (h : ¬ s.RefusesHold r k slot) :
    s.readHold r k = if r.channel ∈ (s.line k).holders then .confirmed else .granted := by
  simp only [RefusesHold, not_or, not_and, Decidable.not_not] at h
  obtain ⟨hopen, hkept, hfree, hkey, hlast⟩ := h
  unfold readHold
  dsimp only
  rw [if_neg (by simp [hopen]), if_neg hkept, if_neg (by simp [hfree, hkey])]
  simp only [List.contains_iff_mem]
  split
  · rfl
  · next hnot =>
    obtain ⟨hwriter, hslot, hquota⟩ := hlast hnot
    rw [if_neg (by simp [hwriter, hslot, hd]), Channel.quotaHold_eq, if_neg hquota]

/-! ### Read transfers (R59 to R61) -/

theorem State.readInFlight_eq (hout : s.part = .failed → s.endedInFailed = []) (hr : s.request e = some r) (ha : r.place = .active)
    (hk : r.kind = some .read) (hl : r.line = some k) (hd : r.delivered = some slot) : s.readInFlight e = some (r, k, slot) := by
  have hgoing : s.outgoing e (fun r => r.activeAs .read) = some r := by
    have hon : ¬ (s.part = .failed ∧ s.endedInFailed.contains e) := fun h => by simp [hout h.1] at h
    rw [State.outgoing, if_neg hon, hr, Option.filter_some, if_pos (by simp [Request.activeAs, ha, hk])]
  rw [State.readInFlight, hgoing, Option.bind_some, hl, hd]

/-- R60: what a read transfer's completion comes to, by the hold that is decided. -/
theorem State.readComplete_eq (ha : t.agenda = []) (hs : t.slotWait = []) (h1 : (t.unit r.key.unit).detach = none)
    (h2 : (t.unit r.key.unit).discard = none) {hold : Hold} (hh : (if r.record.hold then t.readHold r k else .refused) = hold) :
    t.readComplete e r k slot = ((t.applyHold r.channel k hold).setRef slot (t.refCount slot - 1)).setAgenda
      [.complete e { status := .success, flags := r.holdFlags hold r.successFlags }, .evictCheck k] := by
  have hsoon : (t.applyHold r.channel k hold).soon [.complete e { status := .success, flags := r.holdFlags hold r.successFlags }, .evictCheck k]
      = (t.applyHold r.channel k hold).setAgenda
        [.complete e { status := .success, flags := r.holdFlags hold r.successFlags }, .evictCheck k] := by
    have hagenda : (t.applyHold r.channel k hold).agenda = [] := by cases hold <;> exact ha
    simp only [soon, hagenda, List.append_nil]; rfl
  have hwait : (t.applyHold r.channel k hold).slotWait = [] := by cases hold <;> exact hs
  have hunit : (t.applyHold r.channel k hold).unit r.key.unit = t.unit r.key.unit := by cases hold <;> rfl
  have hdetach : ((t.applyHold r.channel k hold).unit r.key.unit).detach = none := by rw [hunit]; exact h1
  have hdiscard : ((t.applyHold r.channel k hold).unit r.key.unit).discard = none := by rw [hunit]; exact h2
  unfold readComplete
  dsimp only
  rw [hh, hsoon, dropRef_nil (by exact hwait), noteTransferEnd_nil (by exact hdetach) (by exact hdiscard)]
  cases hold <;> rfl

/-- R61: what a read transfer's error comes to. -/
theorem State.readError_eq (ha : t.agenda = []) (hs : t.slotWait = []) (h1 : (t.unit r.key.unit).detach = none)
    (h2 : (t.unit r.key.unit).discard = none) :
    t.readError e r k slot = (t.setRef slot (t.refCount slot - 1)).setAgenda [.complete e { status := .hostTransferError }, .evictCheck k] := by
  have hsoon (w : List Work) : t.soon w = t.setAgenda w := by simp only [soon, ha, List.append_nil]; rfl
  have hdrop (w : List Work) : (t.setAgenda w).dropRef slot = (t.setAgenda w).setRef slot (t.refCount slot - 1) :=
    dropRef_nil (t := t.setAgenda w) hs
  have hnote (w : List Work) (n : Nat) : ((t.setAgenda w).setRef slot n).noteTransferEnd e r.key.unit = (t.setAgenda w).setRef slot n :=
    noteTransferEnd_nil (t := (t.setAgenda w).setRef slot n) h1 h2
  unfold readError
  dsimp only
  rw [hsoon, hdrop, hnote]
  rfl

/-- A request that completes does so whatever is done to the slots' references and to what is put out. -/
theorem State.Completes.after (h : s.Completes e r) (ht : t.table = s.table) (hc : t.channels = s.channels) (ha : t.agenda = s.agenda) :
    t.Completes e r :=
  ⟨by rw [State.request, ht]; exact h.held, h.undone, by rw [State.channel, hc]; exact h.posts, by rw [State.channel, hc]; exact h.clear,
    ha.trans h.settled⟩

/-- The request of a channel that joins a line's holder set completes. -/
theorem State.Completes.granted (h : s.Completes e r) : (s.applyHold r.channel k .granted).Completes e r := by
  refine ⟨h.held, h.undone, ?_, ?_, h.settled⟩
  · simpa [applyHold] using h.posts
  · simpa [applyHold] using h.clear

end Sys2Proof.Machine

namespace Sys2Proof.Proofs

open Sys2Proof Sys2Proof.Machine

/-- Settles O40: the bytes put out, then the hold by its tests in order, the reference dropped and the completion. -/
theorem readTransferEnds : Obligations.ReadTransferEnds := by
  intro s e k slot r h hplace hkind hline hdel hsw hw hdetach hdiscard x ln refused data flags done
  let t := s.emit (.hostWrite r.record.buffer.toNat data)
  have hflight (hout : s.part = .failed → s.endedInFailed = []) := State.readInFlight_eq hout h.held hplace hkind hline hdel
  have hcomplete (hout : s.part = .failed → s.endedInFailed = []) :
      exec (.readTransferComplete e) s = .next (t.afterWrites e (fun t => t.readComplete e r k slot)) := by
    show execReadTransferComplete e s = _
    rw [execReadTransferComplete, hflight hout]
    dsimp only
    rw [State.deliver_all]
    rfl
  have herror (hout : s.part = .failed → s.endedInFailed = []) (n : Nat) (hn : 0 < n) :
      exec (.readTransferError e n) s = .next
        ((s.emit (.hostWrite r.record.buffer.toNat (Memory.readBytes s.store (slot * 1024) (min n 1024)))).afterWrites e
          (fun t => t.readError e r k slot)) := by
    show execReadTransferError e n s = _
    rw [execReadTransferError, hflight hout]
    dsimp only
    rw [State.deliver_some hn]
  refine ⟨fun hp hended => ⟨?_, fun n hn => ?_⟩, fun hp => ?_⟩
  · rw [hcomplete fun _ => hended, State.afterWrites_failed (t := t) hp, State.endInFailed]
    show Host.Outcome.next (t.setEndedInFailed (joinSet e s.endedInFailed)) = _
    rw [hended]; rfl
  · rw [herror (fun _ => hended) n hn, State.afterWrites_failed (t := s.emit _) hp, State.endInFailed]
    show Host.Outcome.next (State.setEndedInFailed _ (joinSet e s.endedInFailed)) = _
    rw [hended]; rfl
  · have hout : s.part = .failed → s.endedInFailed = [] := fun hf => absurd hf hp
    have hends {hold : Hold} (hh : (if r.record.hold then s.readHold r k else .refused) = hold) :
        exec (.readTransferComplete e) s = .next (((t.applyHold r.channel k hold).setRef slot (s.refCount slot - 1)).completed e r
          { status := .success, flags := r.holdFlags hold r.successFlags }) := by
      have hcompletes : (t.applyHold r.channel k hold).Completes e r := by
        have ht : t.Completes e r := h.after rfl rfl rfl
        cases hold with
        | refused => exact ht
        | confirmed => exact ht
        | granted => exact ht.granted
      have hdone : ((t.applyHold r.channel k hold).setRef slot (s.refCount slot - 1)).Completes e r := hcompletes.after rfl rfl rfl
      have hfin := hdone.finish_complete (k := k) (by cases hold <;> exact hw)
        { status := .success, flags := r.holdFlags hold r.successFlags }
      rw [hcomplete hout, State.afterWrites_running (t := t) hp, State.readComplete_eq (t := t) h.settled hsw hdetach hdiscard hh]
      exact congrArg _ hfin
    have hrefuses : s.RefusesHold r k slot ↔ refused := Iff.rfl
    have hflags : r.successFlags = flags := rfl
    refine ⟨fun hhold => ?_, fun hhold href => ?_, fun hhold href hin => ?_, fun hhold href hnot => ?_, fun n hn => ?_⟩
    · rw [hends (hold := .refused) (by rw [hhold]; rfl), Request.holdFlags, hhold]
      rfl
    · rw [hends (hold := .refused) (by rw [hhold]; exact State.readHold_of_refuses hdel href), Request.holdFlags, hhold]
      rfl
    · rw [hends (hold := .confirmed) (by rw [hhold]; exact (State.readHold_of_not_refuses hdel href).trans (if_pos hin)), Request.holdFlags, hhold]
      rfl
    · rw [hends (hold := .granted) (by rw [hhold]; exact (State.readHold_of_not_refuses hdel href).trans (if_neg hnot)), Request.holdFlags, hhold]
      have hchannel : (((t.applyHold r.channel k .granted).setRef slot (s.refCount slot - 1)).channel r.channel)
          = { x with holdCount := x.holdCount + 1 } := by
        show (t.applyHold r.channel k .granted).channel r.channel = _
        rw [State.applyHold, State.updChannel_channel, if_pos rfl]
        rfl
      have hchannels : ((t.applyHold r.channel k .granted).setRef slot (s.refCount slot - 1)).channels
          = SMap.set {} s.channels r.channel { x with holdCount := x.holdCount + 1 } := rfl
      rw [State.completed, hchannel, hchannels, SMap.set_set]
      rfl
    · have hcompletes : ((s.emit (.hostWrite r.record.buffer.toNat (Memory.readBytes s.store (slot * 1024) (min n 1024)))).setRef slot
          (s.refCount slot - 1)).Completes e r := h.after rfl rfl rfl
      rw [herror hout n hn, State.afterWrites_running (t := s.emit _) hp, State.readError_eq (t := s.emit _) h.settled hsw hdetach hdiscard]
      exact congrArg _ (hcompletes.finish_complete (k := k) hw { status := .hostTransferError })

end Sys2Proof.Proofs
end

section
/-! PROOF. The end of a WRITE's host transfer with an error (R24, R66), and what a line record's replacement does where WB follows nothing but the
dirty count (R11, R79, R80). -/

namespace Sys2Proof.Machine

variable {s t : State} {c e k n slot : Nat} {r : Request}

/-! ### A line record replaced (R11) -/

/-- R80: pressure alone changes. -/
theorem State.comparePressure_frame (s : State) : ∃ b, s.comparePressure = s.setPressure b := by
  cases hp : s.params with
  | none => exact ⟨s.pressure, by rw [comparePressure, hp]; rfl⟩
  | some p => exact ⟨_, comparePressure_eq hp⟩

/-- R79: of the dirty count and of pressure alone. -/
theorem State.countDirty_frame (s : State) (old new : Line) : ∃ d b, s.countDirty old new = (s.setDirtyCount d).setPressure b := by
  unfold countDirty
  split
  · obtain ⟨b, hb⟩ := comparePressure_frame (s.setDirtyCount (s.dirtyCount + 1))
    exact ⟨_, b, hb⟩
  · obtain ⟨b, hb⟩ := comparePressure_frame (s.setDirtyCount (s.dirtyCount - 1))
    exact ⟨_, b, hb⟩
  · exact ⟨s.dirtyCount, s.pressure, rfl⟩
  · exact ⟨s.dirtyCount, s.pressure, rfl⟩

/-- R194: only in QUIESCING is the quiesce condition tested. -/
theorem State.noteQuiesce_of_ne (h : t.part ≠ .quiescing) : t.noteQuiesce = t := if_neg h

/-- A line that neither is nor becomes DIRTY or STRANDED, no quiesce condition being held back by it: WB follows the dirty count alone. -/
theorem State.putLine_plain {new : Line} (ho : (s.line k).state ≠ .dirty ∧ (s.line k).state ≠ .stranded)
    (hn : new.state ≠ .dirty ∧ new.state ≠ .stranded)
    (hq : s.part ≠ .quiescing ∨ (s.line k).state.holdsQuiesce = false ∨ new.state.holdsQuiesce = true) :
    s.putLine k new = (s.setLine k new).countDirty (s.line k) new := by
  have hleave : (s.setLine k new).leaveFlushList k (s.line k) new = s.setLine k new := if_neg fun h => ho.1 h.1
  have hjoin : (s.setLine k new).joinFlushList k (s.line k) new = s.setLine k new := if_neg fun h => hn.1 h.2
  have hstranded : (s.setLine k new).countStranded (s.line k) new = s.setLine k new := by
    rw [countStranded, if_neg fun h => ho.2 h.1, if_neg fun h => hn.2 h.2]
  obtain ⟨d, b, hcount⟩ := (s.setLine k new).countDirty_frame (s.line k) new
  unfold putLine
  dsimp only
  rw [hleave, hjoin, hstranded]
  split
  · next h =>
    rcases hq with hq | hq | hq
    · exact noteQuiesce_of_ne (by rw [hcount]; exact hq)
    · rw [hq] at h; exact absurd h.1 (by decide)
    · exact absurd hq h.2
  · rfl

/-! ### The end of a write phase without a swap (R24) -/

/-- R24: the write phase of a line ends for which no request waits. -/
theorem State.endWritePhase_nil (hl : (s.line k).waitList = []) (hw : s.waiters (k / 4) = []) :
    s.endWritePhase k = s.updLine k (fun x => { x with writer := none }) := by
  have hline : ((s.updLine k (fun x => { x with writer := none })).line k).waitList = [] := by
    rw [State.updLine_line, if_pos rfl]; exact hl
  have hserve : (s.updLine k (fun x => { x with writer := none })).noteServe k = s.updLine k (fun x => { x with writer := none }) := by
    rw [noteServe, hline]; rfl
  have hwait : (s.updLine k (fun x => { x with writer := none })).waiters (setOfLine k) = [] := hw
  rw [endWritePhase, hserve, noteEvictable, hwait]
  rfl

/-- R19: no request waits for the set. -/
theorem State.reattempt_nil {set : Nat} (h : s.waiters set = []) : s.reattempt set = s := by rw [reattempt, h]

/-! ### WRITEs -/

theorem State.writeInFlight_eq (hp : s.part ≠ .failed) (hr : s.request e = some r) (ha : r.place = .active) (hk : r.kind = some .write)
    (hl : r.line = some k) (hs : r.staging = some slot) : s.writeInFlight e = some (r, k, slot) := by
  rw [State.writeInFlight, if_neg hp, hr, Option.filter_some, if_pos (by simp [Request.activeAs, ha, hk]), Option.bind_some, hl, hs]

theorem exec_writeTransferError (hp : s.part ≠ .failed) (h : s.Completes e r) (ha : r.place = .active) (hk : r.kind = some .write)
    (hl : r.line = some k) (hs : r.staging = some slot) (placed : List Byte) :
    exec (.writeTransferError e placed) s = .next (s.writeError e r k slot placed).finish := by
  show execWriteTransferError e placed s = _
  rw [execWriteTransferError, State.writeInFlight_eq hp h.held ha hk hl hs]

/-- R66: on a line that was not LOADING. -/
theorem State.writeError_staged {placed : List Byte} (ha : s.agenda = []) (hw : s.slotWait = []) (hu : (s.unit r.key.unit).unwaited)
    (hl : (s.line k).state ≠ .loading) :
    s.writeError e r k slot placed = ((s.setStore (Memory.writeBytes s.store (slot * 1024) (placed.take 1024))).setRef slot
      (s.refCount slot - 1)).setAgenda [.complete e { status := .hostTransferError }, .endWritePhase k] := by
  let t := s.setStore (Memory.writeBytes s.store (slot * Config.slotBytes) (placed.take Config.slotBytes))
  have hsoon : t.soon [.complete e { status := .hostTransferError }, .endWritePhase k]
      = t.setAgenda [.complete e { status := .hostTransferError }, .endWritePhase k] := by
    have hagenda : t.agenda = [] := ha
    simp only [soon, hagenda, List.append_nil]; rfl
  unfold writeError
  dsimp only
  rw [if_neg hl]
  show ((t.soon _).dropRef slot).noteTransferEnd e r.key.unit = _
  rw [hsoon, dropRef_nil (t := t.setAgenda _) hw]
  exact noteTransferEnd_nil hu.1 hu.2

/-- R10, R79: a LOADING line freed, no request waiting for its slot. -/
theorem State.freeLine_loading (hq : s.part ≠ .quiescing) (hw : s.slotWait = []) (hl : (s.line k).state = .loading)
    (hflush : (s.line k).flushSource = none) (hslot : (s.line k).currentSlot = some slot) :
    ∃ b, s.freeLine k = (((s.setLine k {}).setDirtyCount (s.dirtyCount - 1)).setPressure b).setRef slot (s.refCount slot - 1) := by
  obtain ⟨b, hb⟩ := ((s.setLine k {}).setDirtyCount (s.dirtyCount - 1)).comparePressure_frame
  have hold : (s.line k).state ≠ .dirty ∧ (s.line k).state ≠ .stranded := by rw [hl]; decide
  have hput : s.putLine k {} = ((s.setLine k {}).setDirtyCount (s.dirtyCount - 1)).setPressure b := by
    rw [putLine_plain (new := {}) hold (by decide) (.inl hq), countDirty, hl]
    exact hb
  refine ⟨b, ?_⟩
  unfold freeLine
  dsimp only
  rw [hput, hflush, hslot, dropSlot, dropSlot]
  exact dropRef_nil hw

/-- R66: on a LOADING line, which goes to FREE. -/
theorem State.writeError_loading {placed : List Byte} (hq : s.part ≠ .quiescing) (ha : s.agenda = []) (hw : s.slotWait = [])
    (hu : (s.unit r.key.unit).unwaited) (hl : (s.line k).state = .loading) (hlist : (s.line k).waitList = [])
    (hflush : (s.line k).flushSource = none) (hslot : (s.line k).currentSlot = some slot) (href : s.refCount slot = 2) :
    ∃ b, s.writeError e r k slot placed = ((((((s.setStore (Memory.writeBytes s.store (slot * 1024) (placed.take 1024))).setRef slot 1).setLine k
      {}).setDirtyCount (s.dirtyCount - 1)).setPressure b).setRef slot 0).setAgenda
        [.complete e { status := .hostTransferError }, .reattempt (setOfLine k)] := by
  let work : List Work := [.complete e { status := .hostTransferError }, .reattempt (setOfLine k)]
  have hdrop (t : State) (ha : t.agenda = []) (hw : t.slotWait = []) (href : t.refCount slot = 2) :
      (t.soon work).dropRef slot = (t.setRef slot 1).setAgenda work := by
    rw [dropRef_nil (t := t.soon work) hw]
    have hcount : (t.soon work).refCount slot - 1 = 1 := congrArg (· - 1) href
    rw [hcount, soon, ha]
    rfl
  have hfree (t : State) (hq : t.part ≠ .quiescing) (hw : t.slotWait = []) (hl : (t.line k).state = .loading)
      (hflush : (t.line k).flushSource = none) (hslot : (t.line k).currentSlot = some slot) :
      ∃ b, ((t.setRef slot 1).setAgenda work).freeLine k
        = (((((t.setRef slot 1).setLine k {}).setDirtyCount (t.dirtyCount - 1)).setPressure b).setRef slot 0).setAgenda work := by
    obtain ⟨b, hb⟩ := freeLine_loading (s := (t.setRef slot 1).setAgenda work) hq hw hl hflush hslot
    have hcount : ((t.setRef slot 1).setAgenda work).refCount slot = 1 := (t.setRef_refCount slot 1 slot).trans (if_pos rfl)
    rw [hcount] at hb
    exact ⟨b, hb⟩
  obtain ⟨b, hb⟩ := hfree (s.setStore (Memory.writeBytes s.store (slot * 1024) (placed.take 1024))) hq hw hl hflush hslot
  refine ⟨b, ?_⟩
  unfold writeError
  dsimp only
  rw [if_pos hl, hlist]
  show ((((s.setStore (Memory.writeBytes s.store (slot * 1024) (placed.take 1024))).soon work).dropRef slot).freeLine k).noteTransferEnd
    e r.key.unit = _
  rw [hdrop (s.setStore (Memory.writeBytes s.store (slot * 1024) (placed.take 1024))) ha hw href, hb]
  exact noteTransferEnd_nil (by simpa using hu.1) (by simpa using hu.2)

end Sys2Proof.Machine

namespace Sys2Proof.Proofs

open Sys2Proof Sys2Proof.Machine

/-- Settles O42: the two arms of R66, each with the completion and the end of the write phase or of the line. -/
theorem writeTransferErrorLeavesTheLine : Obligations.WriteTransferErrorLeavesTheLine := by
  intro s e k slot r placed hp hq h hplace hkind hline hstaging hsw hw hlist hunit store
  rw [exec_writeTransferError hp h hplace hkind hline hstaging]
  refine ⟨fun hl => ?_, fun hl hflush hslot href => ?_⟩
  · rw [State.writeError_staged h.settled hsw hunit hl]
    let t := (s.setStore store).setRef slot (s.refCount slot - 1)
    have ht : t.Completes e r := h.after rfl rfl rfl
    have hend : runWork (.endWritePhase k) ((t.completed e r { status := .hostTransferError }).setAgenda [])
        = (t.completed e r { status := .hostTransferError }).updLine k (fun x => { x with writer := none }) := by
      rw [State.setAgenda_self (t := t.completed e r _) h.settled]
      exact State.endWritePhase_nil hlist hw
    exact congrArg _ (State.RunsTo.finish (.complete ht (.cons (by rw [hend]; exact .nil h.settled))) rfl)
  · obtain ⟨b, heq⟩ := State.writeError_loading (e := e) (r := r) (placed := placed) hq h.settled hsw hunit hl hlist hflush hslot href
    rw [heq]
    let u := (((((s.setStore store).setRef slot 1).setLine k {}).setDirtyCount (s.dirtyCount - 1)).setPressure b).setRef slot 0
    have hu : u.Completes e r := h.after (by simp [u]) (by simp [u]) (by simp [u])
    have hwaiters : ((u.completed e r { status := .hostTransferError }).setAgenda []).waiters (setOfLine k) = [] := by
      show u.waiters (k / 4) = []
      simpa [u] using hw
    have hrun : State.RunsTo 2 (u.setAgenda [.complete e { status := .hostTransferError }, .reattempt (setOfLine k)])
        (u.completed e r { status := .hostTransferError }) :=
      .complete hu (.idle (State.reattempt_nil hwaiters) (.done hu.settled))
    refine ⟨u.completed e r { status := .hostTransferError }, congrArg Host.Outcome.next (hrun.finish rfl), ?_⟩
    have hline (j : Nat) : u.line j = if j = k then {} else s.line j := by simp [u]
    have hcount (j : Nat) : u.refCount j = if j = slot then 0 else s.refCount j := by
      by_cases hj : j = slot <;> simp [u, hj]
    have htable : u.table = s.table := by simp [u]
    have hchannels : u.channels = s.channels := by simp [u]
    have hchannel (d : Nat) : u.channel d = s.channel d := by simp [u]
    refine ⟨by simp [u, State.completed], (hline k).trans (if_pos rfl), fun j hj => (hline j).trans (if_neg hj), (hcount slot).trans (if_pos rfl),
      fun j hj => (hcount j).trans (if_neg hj), by simp [u, State.completed], ?_, ?_, by simp [u, State.completed], by simp [u, State.completed],
      by simp [u, State.completed], by simp [u, State.completed]⟩
    · rw [State.completed, htable]; rfl
    · rw [State.completed, hchannels, hchannel]; rfl

end Sys2Proof.Proofs
end

section
/-! PROOF. The ends of record writes (R154, R165, R168 to R170). -/

namespace Sys2Proof.Machine

variable {s t : State} {c e : Nat} {r : Request}

/-- R157: only a CLOSING or FENCING channel may have drained. -/
theorem State.noteDrain_of_open (h : (t.channel c).state = .open) : t.noteDrain c = t := by rw [noteDrain, h]

/-- R154, R165: an entry freed on an OPEN channel, with the quiesce condition not tested. -/
theorem State.freeEntry_eq (hr : s.request e = some r) (ho : (s.channel r.channel).state = .open) (hp : s.part ≠ .quiescing) :
    s.freeEntry e = (s.setRequest e none).updChannel r.channel (fun x => { x with inFlight := x.inFlight - 1 }) := by
  let t := (s.setRequest e none).updChannel r.channel (fun x => { x with inFlight := x.inFlight - 1 })
  have hdrain : t.noteDrain r.channel = t := noteDrain_of_open (by simp [t, ho])
  have hquiesce : t.noteQuiesce = t := noteQuiesce_of_ne (by simpa [t] using hp)
  unfold freeEntry
  rw [hr]
  show (match r.kind with
    | some k => if k.heldByQuiesce then (t.noteDrain r.channel).noteQuiesce else t.noteDrain r.channel
    | none => t.noteDrain r.channel) = t
  rw [hdrain, hquiesce]
  cases r.kind with
  | none => rfl
  | some k => exact ite_self _

/-- R154: an entry that has been freed is free. -/
theorem State.freeEntry_request (e : Nat) : (s.freeEntry e).request e = none := by
  unfold freeEntry
  split
  · next h => exact h
  · next r hr =>
    have hvacant : ((s.setRequest e none).updChannel r.channel (fun x => { x with inFlight := x.inFlight - 1 })).request e = none := by simp
    have hdrain := (State.noteDrain_tally (c := r.channel)).free hvacant
    dsimp only
    split
    · split
      · exact State.noteQuiesce_tally.free hdrain
      · exact hdrain
    · exact hdrain

theorem exec_recordWriteEnd {w : RecordWrite} (hp : s.part ≠ .failed) (hw : (s.channel c).writing = some w) (error : Bool) :
    exec (.recordWriteEnd c error) s = .next (if error then s.recordFailed c w else s.recordPosted c w).finish := by
  show execRecordWriteEnd c error s = _
  rw [execRecordWriteEnd, hw]
  exact if_neg hp

/-- R165, R168: a record posted, before its entry is freed. -/
def State.posted (s : State) (c : Nat) (w : RecordWrite) : State :=
  { s with
    channels := SMap.set {} s.channels c { s.channel c with writing := none, posted := ((s.channel c).posted + 1) % (s.channel c).cqSize }
    eventSet := if (s.channel c).interrupt then joinSet c s.eventSet else s.eventSet
    outbox := .hostWrite w.address w.bytes :: s.outbox }

theorem State.recordPosted_eq (w : RecordWrite) : s.recordPosted c w = ((s.posted c w).freeWritten w.entry).noteDrain c := by
  unfold recordPosted posted
  cases (s.channel c).interrupt <;> rfl

@[simp] theorem State.posted_channel (w : RecordWrite) (d : Nat) : (s.posted c w).channel d
    = if d = c then { s.channel c with writing := none, posted := ((s.channel c).posted + 1) % (s.channel c).cqSize } else s.channel d :=
  SMap.get_set ..

end Sys2Proof.Machine

namespace Sys2Proof.Proofs

open Sys2Proof Sys2Proof.Machine

/-- Settles O39: the record posted or discarded, its entry freed, and on an error the failure or the fence. -/
theorem recordWriteEndPostsOrFences : Obligations.RecordWriteEndPostsOrFences := by
  intro s c w x posted hset hp hopen hw
  have hstep (error : Bool) := exec_recordWriteEnd (s := s) (c := c) (by rw [hp]; decide) hw error
  have hpart : s.part ≠ .failed := by rw [hp]; decide
  have hquiesce : s.part ≠ .quiescing := by rw [hp]; decide
  have hpostedOpen : ((s.posted c w).channel c).state = .open := by simpa using hopen
  let cleared := s.updChannel c (fun x => { x with writing := none })
  have hclearedOpen : (cleared.channel c).state = .open := by simpa [cleared] using hopen
  refine ⟨fun hnotice => ?_, fun e r he hr hc => ?_, fun hc hnotice => ?_, fun e r hc he hr h0 => ?_, fun hc => ?_⟩
  · rw [hstep, if_neg (by decide), State.recordPosted_eq, hnotice]
    show Host.Outcome.next ((s.posted c w).noteDrain c).finish = _
    rw [State.noteDrain_of_open hpostedOpen]
    exact congrArg _ (State.finish_nil _ (by exact hset))
  · subst hc
    have hfree : (s.posted r.channel w).freeEntry e = ((s.posted r.channel w).setRequest e none).updChannel r.channel
        (fun x => { x with inFlight := x.inFlight - 1 }) := State.freeEntry_eq hr hpostedOpen hquiesce
    have hstill : ((((s.posted r.channel w).setRequest e none).updChannel r.channel
        (fun x => { x with inFlight := x.inFlight - 1 })).channel r.channel).state = .open := by simpa using hopen
    rw [hstep, if_neg (by decide), State.recordPosted_eq, he]
    show Host.Outcome.next (((s.posted r.channel w).freeEntry e).noteDrain r.channel).finish = _
    rw [hfree, State.noteDrain_of_open hstill]
    refine congrArg _ ((State.finish_nil _ (by exact hset)).trans ?_)
    have hx : ((s.posted r.channel w).setRequest e none).channel r.channel = posted := by simp [posted, x]
    rw [State.updChannel_eq hx]
    simp only [State.posted, State.setRequest_eq, SMap.set_set]
    rfl
  · subst hc
    rw [hstep, if_pos rfl, State.recordFailed, if_pos rfl, hnotice]
    show Host.Outcome.next ((cleared.fail .adminPostError)).finish = _
    rw [State.fail_eq (s := cleared) hpart]
    exact congrArg _ (State.finish_nil _ hset)
  · subst hc
    have hfree : cleared.freeEntry e = (cleared.setRequest e none).updChannel 0 (fun x => { x with inFlight := x.inFlight - 1 }) := by
      have := State.freeEntry_eq (s := cleared) (e := e) (r := r) hr (by rw [h0]; exact hclearedOpen) hquiesce
      rwa [h0] at this
    rw [hstep, if_pos rfl, State.recordFailed, if_pos rfl, he]
    show Host.Outcome.next ((cleared.freeEntry e).fail .adminPostError).finish = _
    rw [hfree, State.fail_eq (by simpa [cleared] using hpart), State.finish_nil _ (by exact hset)]
    have hx : (cleared.setRequest e none).channel 0 = { x with writing := none } := by simp [cleared, x]
    rw [State.updChannel_eq hx]
    simp only [cleared, State.updChannel, State.setChannel_eq, State.setRequest_eq, SMap.set_set]
  · obtain ⟨pend, hfence⟩ := State.fence_within_fencing (s := cleared) (cause := .completionPostError) hc (.inl hclearedOpen)
    have hstep' : exec (.recordWriteEnd c true) s
        = .next ((((cleared.fence c .completionPostError).freeWritten w.entry).noteDrain c).finish) := by
      rw [hstep, if_pos rfl, State.recordFailed, if_neg hc]
    have hend := (((hfence.trans (State.freeWritten_within (entry := w.entry))).trans (State.noteDrain_within (c := c))).trans
      State.finish_within).channel c
    rw [State.updChannel_channel, if_pos rfl] at hend
    obtain ⟨hstate, hcause⟩ := hend.of_fencing rfl
    have hx : cleared.channel c = { x with writing := none } := by simp [cleared, x]
    rw [hx] at hend
    refine ⟨_, hstep', hend.writing, hend.cqTail, fun e he => ?_, hend.posted, hcause, hstate⟩
    rw [he]
    exact State.finish_tally.free (State.noteDrain_tally.free (State.freeEntry_request e))

end Sys2Proof.Proofs
end

section
/-! PROOF. READs and WRITEs at the directory: hits (R23, R24, R59), and misses that claim a FREE way (R5, R6, R17). -/

namespace Sys2Proof.Machine

variable {s t : State} {c e k n slot : Nat} {r : Request}

/-! ### The lookup (R53, R54) -/

theorem State.toDirectory_hit (hr : t.request e = some r) (hl : t.lookup r.key = some k) : t.toDirectory e none = t.arrive e k := by
  rw [toDirectory, hr]
  dsimp only
  rw [hl]
  rfl

theorem State.toDirectory_miss (hr : t.request e = some r) (hl : t.lookup r.key = none) (hand : Option Nat) :
    t.toDirectory e hand = t.allocate e hand r := by
  rw [toDirectory, hr]
  dsimp only
  rw [hl]

/-! ### Arrival at a line whose data is valid (R23) -/

/-- R23: a READ or WRITE for which nothing on the line makes it wait. -/
theorem State.arrive_read (hr : t.request e = some r) (hk : r.kind = some .read) (hs : (t.line k).state.loadsData = false)
    (hl : (t.line k).waitList = []) : t.arrive e k = t.startRead e k := by
  simp [arrive, hr, hk, hs, hl]

theorem State.arrive_write (hr : t.request e = some r) (hk : r.kind = some .write) (hs : (t.line k).state.loadsData = false)
    (hl : (t.line k).waitList = []) (hw : (t.line k).writer = none) : t.arrive e k = t.becomeWriter e k := by
  simp [arrive, hr, hk, hs, hl, hw]

theorem LineState.loadsData_eq_false {x : LineState} (hf : x ≠ .filling) (hl : x ≠ .loading) : x.loadsData = false := by
  cases x <;> first | rfl | contradiction

/-- R59: what the start of a read transfer changes. -/
theorem State.startRead_eq (hr : t.request e = some r) (hs : (t.line k).currentSlot = some slot) :
    t.startRead e k = { t with
      refs := SMap.set 0 t.refs slot (t.refCount slot + 1)
      table := SMap.set none t.table e (some { r with
        place := .active, line := some k, delivered := some slot, captured := some (t.line k).mark })
      recency := SMap.set [0, 1, 2, 3] t.recency (k / 4) (k % 4 :: (t.order (k / 4)).filter (· != k % 4)) } := by
  rw [startRead, hr, hs]
  rfl

/-- R63, R64: what the start of a WRITE's host transfer changes. -/
theorem State.startWriteTransfer_eq (hr : t.request e = some r) :
    t.startWriteTransfer e slot = { t with
      table := SMap.set none t.table e (some { r with place := .active, staging := some slot })
      outbox := .hostRead r.record.buffer.toNat 1024 :: t.outbox } := by
  rw [startWriteTransfer, hr]
  rfl

/-- R12, R14: the slot taken is one of the free pool. -/
theorem State.refCount_of_freeSlot (h : t.freeSlot = some slot) : t.refCount slot = 0 := by
  obtain ⟨-, -, hfree⟩ := of_firstFrom_eq_some h
  exact beq_iff_eq.1 hfree

/-- R24, R63: a writer that may proceed takes a slot of the free pool. -/
theorem State.proceed_eq (hr : t.request e = some r) (hs : t.freeSlot = some slot) :
    t.proceed e = { t with
      refs := SMap.set 0 t.refs slot 1
      table := SMap.set none t.table e (some { r with place := .active, staging := some slot })
      outbox := .hostRead r.record.buffer.toNat 1024 :: t.outbox } := by
  have hr' : (t.takeRef slot).request e = some r := hr
  rw [proceed, hs]
  show (t.takeRef slot).startWriteTransfer e slot = _
  rw [startWriteTransfer_eq hr', takeRef, refCount_of_freeSlot hs]
  rfl

/-- R24, R37: a WRITE becomes the writer of a line that no other channel holds, and starts its host transfer. -/
theorem State.becomeWriter_eq (hr : t.request e = some r) (hh : ∀ d ∈ (t.line k).holders, d = r.channel) (hs : t.freeSlot = some slot) :
    t.becomeWriter e k = { t with
      lines := SMap.set {} t.lines k { t.line k with writer := some e }
      refs := SMap.set 0 t.refs slot 1
      table := SMap.set none t.table e (some { r with line := some k, place := .active, staging := some slot })
      outbox := .hostRead r.record.buffer.toNat 1024 :: t.outbox } := by
  let u := (t.updLine k (fun x => { x with writer := some e })).updRequest e (fun r => { r with line := some k })
  have hru : u.request e = some { r with line := some k } := by simp [u, hr]
  have hset : u.recallSet k r.channel = [] := by
    have hline : (u.line k).holders = (t.line k).holders := by simp [u]
    rw [recallSet, hline, leaveList, List.filter_eq_nil_iff]
    exact fun d hd => by simp [hh d hd]
  have hslot : u.freeSlot = some slot := hs
  have htake : u.takeWriter e k = u.proceed e := by
    rw [takeWriter, hru]
    dsimp only
    rw [hset]
    rfl
  show u.takeWriter e k = _
  rw [htake, proceed_eq hru hslot]
  simp only [u, updRequest_eq (s := t.updLine k _) hr, updLine_eq rfl, SMap.set_set]

/-! ### Allocation that claims a FREE way (R17) -/

/-- An unlisted set has no waiters. -/
theorem State.waiters_of_unlisted {set : Nat} (h : ∀ p ∈ t.setWait, p.1 ≠ set) : t.waiters set = [] := by
  unfold waiters
  revert h
  generalize t.setWait = m
  intro h
  induction m with
  | nil => rfl
  | cons p m ih =>
    rw [SMap.get, if_neg (Ne.symm (h p List.mem_cons_self))]
    exact ih fun q hq => h q (List.mem_cons_of_mem _ hq)

/-- R20: no request of the set waits. -/
theorem State.moveSameKey_nil {set : Nat} (h : ∀ p ∈ t.setWait, p.1 ≠ set) (key : Key) : t.moveSameKey set k key = t := by
  have hnone : t.waiters set = [] := waiters_of_unlisted h
  have hsame : SMap.set [] t.setWait set [] = t.setWait := by
    rw [SMap.set, if_pos rfl, SMap.erase, List.filter_eq_self]
    exact fun p hp => by simp [h p hp]
  unfold moveSameKey
  dsimp only
  rw [hnone]
  show t.setWaiters set [] = t
  rw [setWaiters_eq, hsame]

/-- R17: a FREE way and a slot are claimed. -/
theorem State.allocate_claim (hu : t.needsUnit r = false) (hk : t.leastRecent (t.setOfKey r.key) (fun j => (t.line j).state == .free) = some k)
    (hs : t.freeSlot = some slot) : t.allocate e none r = t.claim e k slot r := by
  unfold allocate
  dsimp only
  rw [if_neg (by simp [hu]), hk, hs]
  rfl

theorem State.claim_read (h : r.kind = some .read) : t.claim e k slot r = t.claimFill e k slot r := if_pos h

theorem State.claim_write (h : r.kind = some .write) : t.claim e k slot r = t.claimLoad e k slot r := if_neg (by rw [h]; decide)

/-- R53: only a READ needs its unit READY. -/
theorem State.needsUnit_write (h : r.kind = some .write) : t.needsUnit r = false := by rw [needsUnit, h]; rfl

theorem State.needsUnit_read (h : r.kind = some .read) : t.needsUnit r = ((t.unit r.key.unit).state != .ready) := by rw [needsUnit, h]; rfl

/-- R5, R17: a READ's new line, in a set for which no request waits. -/
theorem State.claimFill_eq (hr : t.request e = some r) (hl : t.line k = {}) (hw : ∀ p ∈ t.setWait, p.1 ≠ k / 4) :
    t.claimFill e k slot r = { t with
      lines := SMap.set {} t.lines k { state := .filling, key := some r.key, currentSlot := some slot, waitList := [e] }
      refs := SMap.set 0 t.refs slot 1
      table := SMap.set none t.table e (some { r with place := .parked .lineWait, line := some k, miss := true, deadline := none })
      recency := SMap.set [0, 1, 2, 3] t.recency (k / 4) (k % 4 :: (t.order (k / 4)).filter (· != k % 4))
      units := SMap.set {} t.units r.key.unit { t.unit r.key.unit with fillQueue := (t.unit r.key.unit).fillQueue ++ [k] }
      agenda := t.agenda ++ [Work.select r.key.unit] } := by
  let x : Line := { state := .filling, key := some r.key, currentSlot := some slot, waitList := [e] }
  have hold : (t.line k).state = .free := by rw [hl]
  have hput : t.putLine k x = t.setLine k x := by
    rw [putLine_plain (new := x) (by rw [hold]; decide) ⟨nofun, nofun⟩ (.inr (.inl (by rw [hold]; rfl))), countDirty, hold]
    rfl
  unfold claimFill
  dsimp only
  rw [hput, moveSameKey_nil (by simpa [setOfLine, Config.ways] using hw)]
  simp only [x, setLine_eq, setRef_eq, setRequest_eq, touch_eq, updUnit, setUnit_eq, later_eq, State.unit, State.order]

/-- R6, R17, R79: a WRITE's new line, in a set for which no request waits. -/
theorem State.claimLoad_eq {p : Params} (hr : t.request e = some r) (hl : t.line k = {}) (hw : ∀ p ∈ t.setWait, p.1 ≠ k / 4)
    (hp : t.params = some p) :
    t.claimLoad e k slot r = { t with
      lines := SMap.set {} t.lines k { state := .loading, key := some r.key, currentSlot := some slot, writer := some e }
      refs := SMap.set 0 t.refs slot 2
      table := SMap.set none t.table e (some { r with
        place := .active, line := some k, miss := true, deadline := none, staging := some slot })
      recency := SMap.set [0, 1, 2, 3] t.recency (k / 4) (k % 4 :: (t.order (k / 4)).filter (· != k % 4))
      dirtyCount := t.dirtyCount + 1
      pressure := if t.pressure then decide (p.lowMark < t.dirtyCount + 1) else decide (p.highMark ≤ t.dirtyCount + 1)
      outbox := .hostRead r.record.buffer.toNat 1024 :: t.outbox } := by
  let x : Line := { state := .loading, key := some r.key, currentSlot := some slot, writer := some e }
  let u := (t.setLine k x).setDirtyCount (t.dirtyCount + 1)
  have hold : (t.line k).state = .free := by rw [hl]
  have hput : t.putLine k x
      = u.setPressure (if t.pressure then decide (p.lowMark < t.dirtyCount + 1) else decide (p.highMark ≤ t.dirtyCount + 1)) := by
    rw [putLine_plain (new := x) (by rw [hold]; decide) ⟨nofun, nofun⟩ (.inr (.inl (by rw [hold]; rfl))), countDirty, hold]
    exact comparePressure_eq (s := u) hp
  let started : Request := { r with line := some k, miss := true, deadline := none }
  unfold claimLoad
  dsimp only
  rw [hput, startWriteTransfer_eq (r := started) (by simp [started]), moveSameKey_nil (by simpa [setOfLine, Config.ways, u] using hw)]
  simp only [x, u, setLine_eq, setRef_eq, setDirtyCount_eq, setPressure_eq, setRequest_eq, touch_eq, State.order, SMap.set_set]
  rfl

end Sys2Proof.Machine

namespace Sys2Proof.Proofs

open Sys2Proof Sys2Proof.Machine

/-- Settles O18: a hit on valid data with nothing waiting starts the read transfer. -/
theorem readHitStartsItsTransfer : Obligations.ReadHitStartsItsTransfer := by
  intro s c e k slot tag hold unit surface track sector buffer record h hv hlook hfilling hloading hlist hslot
  have hr : (s.placed c e (s.newRequest c record)).request e = some (s.newRequest c record) := by simp
  refine h.step rfl hv rfl ?_ h.settled
  show (s.placed c e (s.newRequest c record)).toDirectory e none = _
  rw [State.toDirectory_hit hr hlook, State.arrive_read hr rfl (LineState.loadsData_eq_false hfilling hloading) hlist,
    State.startRead_eq hr hslot]
  simp only [State.placed, SMap.set_set]
  rfl

/-- Settles O19: a unit that is not READY answers; otherwise the FREE way is claimed, and the unit's sequencer is at work. -/
theorem readMissClaimsAWay : Obligations.ReadMissClaimsAWay := by
  intro s c e k slot tag hold unit surface track sector buffer record set h hv hlook
  have hr : (s.placed c e (s.newRequest c record)).request e = some (s.newRequest c record) := by simp
  have hroute : (s.placed c e (s.newRequest c record)).route e (s.newRequest c record) .read
      = (s.placed c e (s.newRequest c record)).allocate e none (s.newRequest c record) := State.toDirectory_miss hr hlook none
  have hkind : (s.newRequest c record).kind = some .read := rfl
  refine ⟨fun hready => h.step_answered rfl hv rfl ?_, fun hready hop hway hline hslot hwait hset => ?_⟩
  · have hneeds : (s.placed c e (s.newRequest c record)).needsUnit (s.newRequest c record) = true := by
      rw [State.needsUnit_read hkind]
      exact bne_iff_ne.2 hready
    rw [hroute, State.allocate, if_pos hneeds, h.answers]
    rfl
  · have hneeds : (s.placed c e (s.newRequest c record)).needsUnit (s.newRequest c record) = false := by
      rw [State.needsUnit_read hkind]
      exact bne_eq_false_iff_eq.2 hready
    have hclaim : (s.placed c e (s.newRequest c record)).allocate e none (s.newRequest c record)
        = (s.placed c e (s.newRequest c record)).claimFill e k slot (s.newRequest c record) :=
      (State.allocate_claim hneeds hway hslot).trans (State.claim_read hkind)
    refine h.step_idle (w := .select unit.toNat) rfl hv rfl ?_ (State.select_of_op ?_) h.settled
    · rw [hroute, hclaim, State.claimFill_eq hr hline (by simpa [hset] using hwait)]
      simp only [State.placed, SMap.set_set, hset]
      rw [h.settled]
      rfl
    · refine (congrArg (fun x : UnitRec => x.op.isSome = true) (SMap.get_set ..)).mpr ?_
      rw [if_pos rfl]
      exact hop

/-- Settles O20: a hit on a line that no other channel holds. -/
theorem writeHitBecomesWriter : Obligations.WriteHitBecomesWriter := by
  intro s c e k slot tag hold unit surface track sector buffer record h hv hlook hfilling hloading hlist hwriter hholders hslot
  have hr : (s.placed c e (s.newRequest c record)).request e = some (s.newRequest c record) := by simp
  refine h.step rfl hv rfl ?_ h.settled
  show (s.placed c e (s.newRequest c record)).toDirectory e none = _
  rw [State.toDirectory_hit hr hlook, State.arrive_write hr rfl (LineState.loadsData_eq_false hfilling hloading) hlist hwriter,
    State.becomeWriter_eq hr hholders hslot]
  simp only [State.placed, SMap.set_set]
  rfl

/-- Settles O22: the FREE way is claimed. -/
theorem writeMissLoads : Obligations.WriteMissLoads := by
  intro s c e k slot p tag hold unit surface track sector buffer record set h hv hlook hway hline hslot hwait hset hp
  have hr : (s.placed c e (s.newRequest c record)).request e = some (s.newRequest c record) := by simp
  refine h.step rfl hv rfl ?_ h.settled
  show (s.placed c e (s.newRequest c record)).toDirectory e none = _
  have hkind : (s.newRequest c record).kind = some .write := rfl
  have hclaim : (s.placed c e (s.newRequest c record)).allocate e none (s.newRequest c record)
      = (s.placed c e (s.newRequest c record)).claimLoad e k slot (s.newRequest c record) :=
    (State.allocate_claim (t := s.placed c e (s.newRequest c record)) (State.needsUnit_write hkind) hway hslot).trans (State.claim_write hkind)
  rw [State.toDirectory_miss hr hlook, hclaim, State.claimLoad_eq hr hline (by simpa [hset] using hwait) hp]
  simp only [State.placed, SMap.set_set, hset]
  rfl

end Sys2Proof.Proofs
end

section
/-! PROOF. Misses without a FREE way and slot: eviction, the slot wait list and the set wait lists (R16 to R18, R22). -/

namespace Sys2Proof.Machine

variable {s t : State} {c e k n slot : Nat} {r : Request}

/-! ### Allocation without a FREE way and slot (R17) -/

/-- R16: the conditions of an evictable line in one term. -/
theorem State.evictable_eq (t : State) : t.evictable = fun j => (t.line j).state == .clean && (t.line j).holders.isEmpty
    && (t.line j).waitList.isEmpty && (t.line j).episode.isNone && (t.line j).writer.isNone
    && (t.line j).currentSlot.any (fun slot => t.refCount slot == 1) := by
  funext j
  unfold evictable
  dsimp only
  cases (t.line j).currentSlot <;> rfl

theorem State.freeSlot_eq_none (h : ∀ slot, slot < 4224 → t.refCount slot ≠ 0) : t.freeSlot = none := by
  cases hs : t.freeSlot with
  | none => rfl
  | some slot =>
    obtain ⟨-, hlt, -⟩ := of_firstFrom_eq_some hs
    exact absurd (refCount_of_freeSlot hs) (h slot (by simpa [Config.slots] using hlt))

theorem State.leastRecent_spec {set : Nat} {p : Nat → Bool} (h : t.leastRecent set p = some k) : p k = true := List.find?_some h

/-- R10: an evicted line's record; nothing but the directory follows it. -/
theorem State.putLine_evicted (h : t.evictable k = true) : t.putLine k {} = t.setLine k {} := by
  have hclean : (t.line k).state = .clean := by
    rw [evictable_eq] at h
    simp only [Bool.and_eq_true, beq_iff_eq] at h
    obtain ⟨⟨⟨⟨⟨hclean, -⟩, -⟩, -⟩, -⟩, -⟩ := h
    exact hclean
  rw [putLine_plain (new := {}) (by rw [hclean]; decide) ⟨nofun, nofun⟩ (.inr (.inl (by rw [hclean]; rfl))), countDirty, hclean]
  rfl

/-- R17: with no FREE way and slot to be taken together, allocation goes on with the evictable ways. -/
theorem State.allocate_blocked (hu : t.needsUnit r = false)
    (hnone : t.leastRecent (t.setOfKey r.key) (fun j => (t.line j).state == .free) = none ∨ t.freeSlot = none) :
    t.allocate e none r = match t.leastRecent (t.setOfKey r.key) t.evictable with
      | some k => match (t.line k).currentSlot with
        | some slot => (t.putLine k {}).claim e k slot r
        | none => t
      | none => if (t.leastRecent (t.setOfKey r.key) (fun j => (t.line j).state == .free)).isSome
        then (t.setSlotWait (t.slotWait ++ [e])).park e .slotWait else t.joinSetWait e r := by
  unfold allocate
  dsimp only
  rw [if_neg (by simp [hu])]
  rcases hnone with h | h
  · rw [h]
    rfl
  · rw [h]
    cases t.leastRecent (t.setOfKey r.key) (fun j => (t.line j).state == .free) <;> rfl

/-- R17: the least recent evictable way is evicted, and claimed with its line's slot. -/
theorem State.allocate_evict (hu : t.needsUnit r = false)
    (hnone : t.leastRecent (t.setOfKey r.key) (fun j => (t.line j).state == .free) = none ∨ t.freeSlot = none)
    (hk : t.leastRecent (t.setOfKey r.key) t.evictable = some k) (hs : (t.line k).currentSlot = some slot) :
    t.allocate e none r = (t.setLine k {}).claim e k slot r := by
  rw [allocate_blocked hu hnone, hk]
  dsimp only
  rw [hs, putLine_evicted (leastRecent_spec hk)]

/-- R22: a set with a FREE way and no slot to go with it. -/
theorem State.allocate_slotWait (hu : t.needsUnit r = false) (hr : t.request e = some r)
    (hfree : t.leastRecent (t.setOfKey r.key) (fun j => (t.line j).state == .free) ≠ none) (hslot : t.freeSlot = none)
    (hk : t.leastRecent (t.setOfKey r.key) t.evictable = none) :
    t.allocate e none r = { t with
      slotWait := t.slotWait ++ [e], table := SMap.set none t.table e (some { r with place := .parked .slotWait }) } := by
  rw [allocate_blocked hu (.inr hslot), hk, if_pos (Option.isSome_iff_ne_none.2 hfree), park,
    updRequest_eq (s := t.setSlotWait (t.slotWait ++ [e])) hr]
  rfl

/-- R18: a set with neither a FREE nor an evictable way. -/
theorem State.allocate_setWait {p : Params} (hu : t.needsUnit r = false) (hp : t.params = some p) (hj : r.joined = none)
    (hfree : t.leastRecent (t.setOfKey r.key) (fun j => (t.line j).state == .free) = none)
    (hk : t.leastRecent (t.setOfKey r.key) t.evictable = none) :
    t.allocate e none r = { t with
      setWait := SMap.set [] t.setWait (t.setOfKey r.key) (t.waiters (t.setOfKey r.key) ++ [e])
      table := SMap.set none t.table e (some { r with
        place := .parked .setWait, deadline := some (t.now + p.setWaitTimeout), joined := some t.joins })
      joins := t.joins + 1 } := by
  rw [allocate_blocked hu (.inl hfree), hk, hfree]
  show t.joinSetWait e r = _
  have htimeout : (t.params.map Params.setWaitTimeout).getD 0 = p.setWaitTimeout := by rw [hp]; rfl
  unfold joinSetWait
  dsimp only
  rw [hj, htimeout]
  rfl

end Sys2Proof.Machine

namespace Sys2Proof.Proofs

open Sys2Proof Sys2Proof.Machine

/-- Settles O23: the three steps of allocation past the FREE way. -/
theorem missEvictsOrWaits : Obligations.MissEvictsOrWaits := by
  intro s c e p tag hold unit surface track sector buffer reads writes x key set noSlot freeWay evictable h hlook hp hready hop i record hi hv
  let t := s.placed c e (s.newRequest c record)
  let r := s.newRequest c record
  have hr : t.request e = some r := by simp [t, r]
  have hkinds : (i = reads ∧ record.kindOf = some .read ∨ i = writes ∧ record.kindOf = some .write)
      ∧ exec i s = .next (s.fetchReturns record) ∧ r.key = key ∧ record.buffer = buffer := by
    rcases hi with ⟨rfl, rfl⟩ | ⟨rfl, rfl⟩
    · exact ⟨.inl ⟨rfl, rfl⟩, rfl, rfl, rfl⟩
    · exact ⟨.inr ⟨rfl, rfl⟩, rfl, rfl, rfl⟩
  obtain ⟨hkind, hexec, hkey, hbuffer⟩ := hkinds
  have hneeds : t.needsUnit r = false := by
    rcases hkind with ⟨-, hkind⟩ | ⟨-, hkind⟩
    · rw [State.needsUnit_read (r := r) hkind, hkey]
      exact bne_eq_false_iff_eq.2 hready
    · exact State.needsUnit_write hkind
  have hmiss : t.toDirectory e none = t.allocate e none r := State.toDirectory_miss hr (by rw [hkey]; exact hlook) none
  have hset : t.setOfKey r.key = set := by rw [hkey]; rfl
  have hev : t.leastRecent (t.setOfKey r.key) t.evictable = evictable := by rw [hset, State.evictable_eq]; rfl
  have hfree : t.leastRecent (t.setOfKey r.key) (fun j => (t.line j).state == .free) = freeWay := by rw [hset]; rfl
  have hnoSlot : noSlot → t.freeSlot = none := State.freeSlot_eq_none
  have hstep {u : State} (hu : t.allocate e none r = u) (ha : u.agenda = []) : exec i s = .next u := by
    rcases hkind with ⟨-, hkind⟩ | ⟨-, hkind⟩
    · exact h.step hexec hv hkind (hmiss.trans hu) ha
    · exact h.step hexec hv hkind (hmiss.trans hu) ha
  refine ⟨?_, fun hway hno hk => ?_, fun hway hk => ?_⟩
  · intro k slot hnone hk hkset hslot hwait recency
    have hevict : t.allocate e none r = (t.setLine k {}).claim e k slot r :=
      State.allocate_evict hneeds (hnone.imp hfree.trans hnoSlot) (hev.trans hk) hslot
    have hline : (t.setLine k {}).line k = {} := by simp
    have hr' : (t.setLine k {}).request e = some r := hr
    have hwait' : ∀ q ∈ (t.setLine k {}).setWait, q.1 ≠ k / 4 := by rw [hkset]; exact hwait
    refine ⟨fun hread => ?_, fun hwrite => ?_⟩
    · have hkind : record.kindOf = some .read := by
        rcases hkind with ⟨-, hkind⟩ | ⟨hi, -⟩
        · exact hkind
        · exact absurd (hread.symm.trans hi) nofun
      refine h.step_idle (w := .select unit.toNat) hexec hv hkind ?_ (State.select_of_op ?_) h.settled
      · rw [State.route]
        show t.toDirectory e none = _
        rw [hmiss, hevict, State.claim_read (r := r) hkind, State.claimFill_eq hr' hline hwait']
        simp only [t, State.placed, State.setLine_eq, SMap.set_set, hkset, hkey]
        rw [h.settled]
        rfl
      · refine (congrArg (fun x : UnitRec => x.op.isSome = true) (SMap.get_set ..)).mpr ?_
        rw [if_pos rfl]
        exact hop
    · have hkind : record.kindOf = some .write := by
        rcases hkind with ⟨hi, -⟩ | ⟨-, hkind⟩
        · exact absurd (hwrite.symm.trans hi) nofun
        · exact hkind
      refine hstep (hevict.trans ?_) h.settled
      have hbuffer : r.record.buffer = buffer := hbuffer
      rw [State.claim_write (r := r) hkind, State.claimLoad_eq hr' hline hwait' hp, hbuffer]
      simp only [t, State.placed, State.setLine_eq, SMap.set_set, hkset, hkey]
      rfl
  · rw [hstep (State.allocate_slotWait hneeds hr (by rw [hfree]; exact hway) (hnoSlot hno) (hev.trans hk)) h.settled]
    simp only [t, State.placed, SMap.set_set]
    rfl
  · rw [hstep (State.allocate_setWait hneeds hp rfl (hfree.trans hway) (hev.trans hk)) h.settled, hset]
    simp only [t, State.placed, SMap.set_set]
    rfl

end Sys2Proof.Proofs
end

section
/-! PROOF. RELEASE, with and without an episode (R32 to R35). -/

namespace Sys2Proof.Machine

variable {s t : State} {c e k n slot : Nat} {r : Request}

/-! ### Tables known as an update -/

theorem State.request_of_table {t : State} {m : SMap (Option Request)} {e : Nat} {x : Option Request} (h : t.table = SMap.set none m e x) (j : Nat) :
    t.request j = if j = e then x else SMap.get none m j := by rw [request, h, SMap.get_set]

theorem State.channel_of_channels {t : State} {m : SMap Channel} {c : Nat} {x : Channel} (h : t.channels = SMap.set {} m c x) (j : Nat) :
    t.channel j = if j = c then x else SMap.get {} m j := by rw [channel, h, SMap.get_set]

theorem State.line_of_lines {t : State} {m : SMap Line} {k : Nat} {x : Line} (h : t.lines = SMap.set {} m k x) (j : Nat) :
    t.line j = if j = k then x else SMap.get {} m j := by rw [line, h, SMap.get_set]

theorem State.unit_of_units {t : State} {m : SMap UnitRec} {u : Nat} {x : UnitRec} (h : t.units = SMap.set {} m u x) (j : Nat) :
    t.unit j = if j = u then x else SMap.get {} m j := by rw [unit, h, SMap.get_set]

/-! ### Completing the request just taken -/

@[simp] theorem State.newRequest_channel (s : State) (rec : Record) : (s.newRequest c rec).channel = c := rfl

/-- A request just taken completes: its channel queues it and no BARRIER waits for it. -/
theorem State.Takes.completes_placed (h : s.Takes c e) (rec : Record) : (s.placed c e (s.newRequest c rec)).Completes e (s.newRequest c rec) := by
  refine ⟨by simp, nofun, ?_, ?_, h.settled⟩
  · simpa [Channel.taken] using h.posts
  · simpa [Channel.taken] using h.clear

theorem State.Takes.placed_channel_self (_ : s.Takes c e) {q : Request} : (s.placed c e q).channel c = (s.channel c).taken :=
  (s.placed_channel q c).trans (if_pos rfl)

/-! ### Dropping a hold (R32) -/

/-- R32, step 2: the pending set of the line's open episode and nothing of the wait lists. -/
theorem State.leavePending_lists {o : Option Nat} :
    (t.leavePending c o).episodeWait = t.episodeWait ∧ (t.leavePending c o).setWait = t.setWait := by
  unfold leavePending
  split
  · exact ⟨rfl, rfl⟩
  · split
    · exact ⟨rfl, rfl⟩
    · split <;> exact ⟨rfl, rfl⟩

/-- R32: no writer of the line waits for an episode record, and no request waits for the set. -/
theorem State.dropHold_quiet (hw : (s.line k).writer = none ∨ s.episodeWait = []) (hset : s.waiters (k / 4) = []) :
    s.dropHold c k = ((s.updLine k (fun x => { x with holders := leaveList c x.holders })).updChannel c
      (fun x => { x with holdCount := x.holdCount - 1 })).leavePending c (s.line k).episode := by
  let t := ((s.updLine k (fun x => { x with holders := leaveList c x.holders })).updChannel c
      (fun x => { x with holdCount := x.holdCount - 1 })).leavePending c (s.line k).episode
  obtain ⟨hepisodes, hsets⟩ := leavePending_lists (t := (s.updLine k (fun x => { x with holders := leaveList c x.holders })).updChannel c
      (fun x => { x with holdCount := x.holdCount - 1 })) (c := c) (o := (s.line k).episode)
  have hwriter : (match (s.line k).writer with
      | some w => if t.episodeWait.contains w then t.later [.episodeWaitCheck k] else t
      | none => t) = t := by
    rcases hw with hw | hw
    · rw [hw]
    · rw [show t.episodeWait = s.episodeWait from hepisodes, hw]
      cases (s.line k).writer <;> rfl
  have hwaiters : t.waiters (setOfLine k) = [] := by
    rw [waiters, show t.setWait = s.setWait from hsets]
    exact hset
  unfold dropHold
  dsimp only
  show State.noteEvictable (match (s.line k).writer with
      | some w => if t.episodeWait.contains w then t.later [.episodeWaitCheck k] else t
      | none => t) k = t
  rw [hwriter, noteEvictable, hwaiters]
  rfl

/-- R32: a hold dropped on a line without open episode. -/
theorem State.dropHold_eq (he : (s.line k).episode = none) (hw : (s.line k).writer = none ∨ s.episodeWait = []) (hset : s.waiters (k / 4) = []) :
    s.dropHold c k = { s with
      lines := SMap.set {} s.lines k { s.line k with holders := (s.line k).holders.filter (· != c) }
      channels := SMap.set {} s.channels c { s.channel c with holdCount := (s.channel c).holdCount - 1 } } := by
  rw [dropHold_quiet hw hset, he]
  rfl

/-- R32: a hold dropped of a channel that is pending in the line's open episode. -/
theorem State.dropHold_pending {ep : Episode} (hline : (s.line k).episode = some n) (he : s.episode n = some ep) (hc : c ∈ ep.waiting)
    (hw : s.episodeWait = []) (hset : s.waiters (k / 4) = []) :
    s.dropHold c k = { s with
      lines := SMap.set {} s.lines k { s.line k with holders := (s.line k).holders.filter (· != c) }
      channels := SMap.set {} s.channels c { s.channel c with holdCount := (s.channel c).holdCount - 1 }
      episodes := SMap.set none s.episodes n (some { ep with waiting := ep.waiting.filter (· != c) })
      agenda := s.agenda ++ [Work.episodeCheck n] } := by
  let t := (s.updLine k (fun x => { x with holders := leaveList c x.holders })).updChannel c (fun x => { x with holdCount := x.holdCount - 1 })
  have het : t.episode n = some ep := he
  rw [dropHold_quiet (.inr hw) hset, hline]
  show t.leavePending c (some n) = _
  rw [leavePending, het]
  dsimp only
  rw [if_pos (List.contains_iff_mem.2 hc)]
  simp only [t, State.later_eq, State.setEpisode_eq, State.updChannel, State.updLine, State.setChannel_eq, State.setLine_eq]
  rfl

/-- R40: an episode with a channel still pending stays open. -/
theorem State.episodeCheck_waiting {ep : Episode} (he : s.episode n = some ep) (hw : ep.waiting ≠ []) : s.episodeCheck n = s := by
  have hempty : ep.waiting.isEmpty = false := by simpa using hw
  rw [episodeCheck, he]
  dsimp only
  rw [hempty]
  rfl

end Sys2Proof.Machine

namespace Sys2Proof.Proofs

open Sys2Proof Sys2Proof.Machine

/-- Settles O25: the tests of R33 and R34, and the hold dropped before the completion. -/
theorem releaseDropsTheHold : Obligations.ReleaseDropsTheHold := by
  refine ⟨?_, ?_⟩
  · intro s c e k tag unit surface track sector record h hv
    let t := s.placed c e (s.newRequest c record)
    have hroute : t.route e (s.newRequest c record) .release = t.releaseKey e c record.key := by
      show t.takeRelease e c record = _
      exact if_neg (by simp [record, releaseRecord, Record.episodeValid, flagByte])
    have hlooks : t.lookup record.key = s.lookup record.key := rfl
    refine ⟨fun hlook => h.step_answered rfl hv rfl ?_, fun hlook hnot => h.step_answered rfl hv rfl ?_,
      fun hlook hin hep hwriter hset => h.step rfl hv rfl ?_ h.settled⟩
    · rw [hroute, State.releaseKey, hlooks, hlook]
      exact h.answers record _
    · rw [hroute, State.releaseKey, hlooks, hlook]
      exact (if_neg (by simpa [t] using hnot)).trans (h.answers record _)
    · rw [hroute, State.releaseKey, hlooks, hlook]
      refine (if_pos (by simpa [t] using hin)).trans ?_
      rw [State.dropHold_eq (s := t) hep (.inl hwriter) hset, h.placed_channel_self]
      refine (State.complete_eq (r := s.newRequest c record)
        (y := { (s.channel c).taken with holdCount := (s.channel c).holdCount - 1 }) _ ?_ nofun ?_ h.posts h.clear).trans ?_
      · exact (s.placed_request (c := c) _ e).trans (if_pos rfl)
      · exact (State.channel_of_channels rfl c).trans (if_pos rfl)
      simp only [t, State.placed, State.answered, State.newRequest_channel, SMap.set_set]
      rfl
  · intro s c e n number tag unit surface track sector record h hv hn
    let t := s.placed c e (s.newRequest c record)
    have hroute : t.route e (s.newRequest c record) .release = t.releaseEpisode e c n record.key := by
      show t.takeRelease e c record = _
      rw [← hn]
      exact if_pos (by simp [record, releaseRecord, Record.episodeValid, flagByte])
    refine ⟨fun hnot => h.step_answered rfl hv rfl ?_, fun ep hep hkey hin hothers hline hwait hset => ?_⟩
    · rw [hroute]
      have hep : t.episode n = s.episode n := rfl
      unfold State.releaseEpisode
      rw [hep]
      split
      · next ep hep =>
        refine (if_neg fun hboth => ?_).trans (h.answers record _)
        rcases hnot ep hep with hne | hne
        · exact hne hboth.1
        · exact hne (List.contains_iff_mem.1 hboth.2)
      · exact h.answers record _
    · have hchannel : t.channel c = (s.channel c).taken := h.placed_channel_self
      have hopen : t.releaseEpisode e c n record.key = (t.dropHold c ep.line).complete e { status := .success } := by
        have hep' : t.episode n = some ep := hep
        rw [State.releaseEpisode, hep']
        exact if_pos ⟨hkey, List.contains_iff_mem.2 hin⟩
      have hstays : ep.waiting.filter (· != c) ≠ [] := by
        obtain ⟨d, hd, hne⟩ := hothers
        exact List.ne_nil_of_mem (List.mem_filter.2 ⟨hd, by simpa using hne⟩)
      let pending : Episode := { ep with waiting := ep.waiting.filter (· != c) }
      refine h.step_idle (w := .episodeCheck n) rfl hv rfl ?_ (State.episodeCheck_waiting (ep := pending) ?_ hstays) h.settled
      · rw [hroute, hopen, State.dropHold_pending (s := t) hline hep hin hwait hset, hchannel]
        refine (State.complete_eq (r := s.newRequest c record)
          (y := { (s.channel c).taken with holdCount := (s.channel c).holdCount - 1 }) _ ?_ nofun ?_ h.posts h.clear).trans ?_
        · exact (s.placed_request (c := c) _ e).trans (if_pos rfl)
        · exact (State.channel_of_channels rfl c).trans (if_pos rfl)
        have hagenda : t.agenda = [] := h.settled
        simp only [hagenda]
        simp only [t, State.placed, State.answered, State.newRequest_channel, SMap.set_set]
        rfl
      · show SMap.get none (SMap.set none s.episodes n (some pending)) n = some pending
        rw [SMap.get_set, if_pos rfl]

end Sys2Proof.Proofs
end

section
/-! PROOF. BARRIER (R148). -/

namespace Sys2Proof.Machine

variable {s t : State} {c e b k n slot : Nat} {r q : Request}

/-! ### The entries held -/

/-- The held entries are those at which the table is not free. -/
theorem State.mem_held (h : SMap.wf none s.table = true) {p : Nat × Request} : p ∈ s.held ↔ s.request p.1 = some p.2 := by
  rw [held, List.mem_filterMap]
  constructor
  · rintro ⟨⟨i, x⟩, hmem, hx⟩
    obtain ⟨r, rfl, rfl⟩ := Option.map_eq_some_iff.1 hx
    exact ((SMap.mem_iff none h i (some r)).1 hmem).1
  · intro hr
    exact ⟨(p.1, some p.2), (SMap.mem_iff none h p.1 (some p.2)).2 ⟨hr, nofun⟩, rfl⟩

/-- R148: whether an earlier request of a channel has not ended, by the entries. -/
theorem State.earlierOutstanding_iff (h : SMap.wf none s.table = true) {arrival : Nat} : s.earlierOutstanding c arrival = true
    ↔ ∃ i r, s.request i = some r ∧ r.channel = c ∧ r.arrival < arrival ∧ r.place ≠ .done := by
  rw [earlierOutstanding, List.any_eq_true]
  simp only [Bool.and_eq_true, beq_iff_eq, decide_eq_true_eq, bne_iff_ne]
  constructor
  · rintro ⟨p, hp, ⟨hc, ha⟩, hd⟩
    exact ⟨p.1, p.2, (mem_held h).1 hp, hc, ha, hd⟩
  · rintro ⟨i, r, hr, hc, ha, hd⟩
    exact ⟨(i, r), (mem_held h).2 hr, ⟨hc, ha⟩, hd⟩

/-! ### A request that ends while a BARRIER waits -/

/-- R148, R152: a request completes on a channel whose BARRIER is parked on its fetch hold. -/
theorem State.complete_holding {y : Channel} (x : Completion) (hr : s.request e = some r) (hd : r.place ≠ .done) (hy : s.channel r.channel = y)
    (hp : y.postError = false) (hf : y.fetchHold = some b) :
    s.complete e x = { s with
      table := SMap.set none s.table e (some (r.ended x))
      channels := SMap.set {} s.channels r.channel { y with postQueue := y.postQueue ++ [e] }
      agenda := s.agenda ++ [Work.barrierTest r.channel] } := by
  have hy' : (s.setRequest e (some (r.ended x))).channel r.channel = y := hy
  unfold complete
  rw [hr]
  dsimp only
  rw [if_neg hd, hy', if_neg (by rw [hp]; decide), updChannel_eq hy', noteDone, if_pos]
  · simp only [setRequest_eq, later_eq]
  · refine (congrArg (fun y : Channel => y.fetchHold.isSome = true) (SMap.get_set ..)).mpr ?_
    rw [if_pos rfl]
    exact Option.isSome_iff_exists.2 ⟨b, hf⟩

/-- R148: the parked BARRIER stays parked while an earlier request is outstanding. -/
theorem State.barrierTest_waits (hf : (s.channel c).fetchHold = some b) (hq : s.request b = some q)
    (h : s.earlierOutstanding c q.arrival = true) : s.barrierTest c = s := by
  rw [barrierTest, hf]
  dsimp only
  rw [hq]
  exact if_pos h

/-- R148: the parked BARRIER completes once none is. -/
theorem State.barrierTest_completes {y : Channel} (hy : s.channel c = y) (hf : y.fetchHold = some b) (hp : y.postError = false)
    (hq : s.request b = some q) (hd : q.place ≠ .done) (hc : q.channel = c) (h : s.earlierOutstanding c q.arrival = false) :
    s.barrierTest c = { s with
      table := SMap.set none s.table b (some (q.ended { status := .success }))
      channels := SMap.set {} s.channels c { y with fetchHold := none, postQueue := y.postQueue ++ [b] } } := by
  subst hc
  rw [barrierTest, hy, hf]
  dsimp only
  rw [hq]
  dsimp only
  rw [h, if_neg (by decide), updChannel_eq hy]
  refine (State.complete_eq (s := s.setChannel q.channel { y with fetchHold := none }) (r := q) (y := { y with fetchHold := none }) _ hq hd ?_ hp rfl).trans ?_
  · exact (SMap.get_set ..).trans (if_pos rfl)
  simp only [setChannel_eq, SMap.set_set]

end Sys2Proof.Machine

namespace Sys2Proof.Proofs

open Sys2Proof Sys2Proof.Machine

/-- Settles O28: the test at the taking, and the same test once the last earlier request has ended. -/
theorem barrierWaitsForEarlierRequests : Obligations.BarrierWaitsForEarlierRequests := by
  refine ⟨?_, ?_⟩
  · intro s c e tag h hfree hwf record earlier
    have hv : s.validate c record = none := by
      rw [State.validate_of_defined (k := .barrier) rfl (by simp [record, barrierRecord, Record.withoutDefined, Kind.flagMask]), if_neg,
        if_neg fun h => h rfl, if_neg fun h => h rfl, if_neg fun h => nomatch h.2]
      · rfl
      · by_cases hc : c = 0 <;> simp [Kind.acceptedOn, hc, Kind.isAdmin]
    let r := s.newRequest c record
    have hwf' : SMap.wf none (s.placed c e r).table = true := SMap.wf_set none s.table e (some r) hwf
    have hearlier : (s.placed c e r).earlierOutstanding c (s.channel c).arrivals = true ↔ earlier := by
      rw [State.earlierOutstanding_iff hwf']
      refine exists_congr fun i => exists_congr fun q => ?_
      rw [State.placed_request]
      split
      · next hi =>
        subst hi
        rw [hfree]
        exact ⟨fun ⟨hq, _, ha, _⟩ => absurd ha (by cases hq; exact lt_irrefl _), fun ⟨hq, _⟩ => nomatch hq⟩
      · rfl
    have hroute : (s.placed c e r).route e r .barrier = (s.placed c e r).takeBarrier e r := rfl
    refine ⟨fun hnone => h.step_answered rfl hv rfl ?_, fun hsome => h.step rfl hv rfl ?_ h.settled⟩
    · exact hroute.trans ((if_neg fun hout => hnone (hearlier.1 hout)).trans (h.answers record _))
    · refine hroute.trans ((if_pos (hearlier.2 hsome)).trans ?_)
      refine (congrArg (State.park · e .fetchHold) (State.updChannel_eq (c := c) h.placed_channel_self _)).trans ?_
      refine (State.updRequest_like (s := s) (c := c) (e := e) (q := r)
        (t := { s.placed c e r with channels := SMap.set {} (s.placed c e r).channels c { (s.channel c).taken with fetchHold := some e } })
        rfl _).trans ?_
      simp only [State.placed, SMap.set_set, r]
  · intro s c e b k slot r q hset hpart hwf hr hc hplace hkind hline hdel hhold hsw hw hunit hq hqc hqp hfh hpost data flags read outstanding
    subst hc
    let x : Completion := { status := .success, flags }
    let t := (s.emit (.hostWrite r.record.buffer.toNat data)).setRef slot (s.refCount slot - 1)
    have hstep : exec (.readTransferComplete e) s = .next (t.setAgenda [.complete e x, .evictCheck k]).finish := by
      show execReadTransferComplete e s = _
      rw [execReadTransferComplete, State.readInFlight_eq (fun h => absurd h hpart) hr hplace hkind hline hdel]
      dsimp only
      rw [State.deliver_all]
      refine congrArg _ ((State.afterWrites_running (t := s.emit (.hostWrite r.record.buffer.toNat data)) hpart).trans ?_)
      rw [State.readComplete_eq (t := s.emit (.hostWrite r.record.buffer.toNat data)) (hold := .refused) hset hsw hunit.1 hunit.2
        (by rw [hhold]; rfl), Request.holdFlags, hhold]
      rfl
    have hundone : r.place ≠ .done := by rw [hplace]; nofun
    have hends (ws : List Work) : (t.setAgenda ws).complete e x = read.setAgenda (ws ++ [Work.barrierTest r.channel]) :=
      State.complete_holding (s := t.setAgenda ws) x hr hundone rfl hpost hfh
    have hchannel : read.channel r.channel = { s.channel r.channel with postQueue := (s.channel r.channel).postQueue ++ [e] } :=
      (SMap.get_set ..).trans (if_pos rfl)
    have hne : b ≠ e := by
      rintro rfl
      rw [hr, Option.some.injEq] at hq
      rw [hq, hqp] at hplace
      cases hplace
    have hrequest (i : Nat) : read.request i = if i = e then some (r.ended x) else s.request i :=
      SMap.get_set none s.table e i (some (r.ended x))
    have hbarrier : read.request b = some q := by rw [hrequest, if_neg hne]; exact hq
    have hearlier : read.earlierOutstanding r.channel q.arrival = true ↔ outstanding := by
      rw [State.earlierOutstanding_iff (SMap.wf_set none s.table e (some (r.ended x)) hwf)]
      refine exists_congr fun i => exists_congr fun y => ?_
      rw [hrequest]
      split
      · next hi => exact ⟨fun ⟨hy, _, _, hd⟩ => absurd (by cases hy; rfl) hd, fun h => absurd hi h.1⟩
      · next hi => exact (and_iff_right hi).symm
    have hruns {u : State} (hu : read.barrierTest r.channel = u) (hagenda : u.agenda = []) : exec (.readTransferComplete e) s = .next u := by
      rw [hstep]
      refine congrArg _ (State.RunsTo.finish (n := 3) (.cons ?_) rfl)
      show State.RunsTo 2 ((t.setAgenda [.evictCheck k]).complete e x) u
      rw [hends]
      refine .idle (State.evictCheck_nil (t := read.setAgenda [.barrierTest r.channel]) hw) (.cons ?_)
      show State.RunsTo 0 ((read.setAgenda []).barrierTest r.channel) u
      rw [State.setAgenda_self (t := read) hset, hu]
      exact .nil hagenda
    refine ⟨fun hnone => hruns ?_ hset, fun hsome => hruns ?_ hset⟩
    · rw [State.barrierTest_completes (s := read) hchannel hfh hpost hbarrier (by rw [hqp]; nofun) hqc
        (Bool.eq_false_iff.2 fun h => hnone (hearlier.1 h))]
      simp only [read, State.completed, SMap.set_set, List.append_assoc]
      rfl
    · exact State.barrierTest_waits (by rw [hchannel]; exact hfh) hbarrier (hearlier.2 hsome)

end Sys2Proof.Proofs
end

section
/-! PROOF. ABANDON (R150) and the choice among flush candidates (R106): both take the best member of a list. -/

namespace Sys2Proof.Machine

/-! ### The best member of a list -/

section Best

variable {α : Type} {better : α → α → Bool} {l : List α} {a : α}

theorem bestBy_eq_none : bestBy better l = none ↔ l = [] := by
  cases l with
  | nil => exact ⟨fun _ => rfl, fun _ => rfl⟩
  | cons b bs =>
    refine ⟨fun h => ?_, nofun⟩
    rw [bestBy] at h
    split at h
    · cases h
    · split at h <;> cases h

/-- A preference that never takes the greater of two measures chooses a member with the least. -/
theorem bestBy_least {m : α → Int} (hm : ∀ a b, if better a b then m a ≤ m b else m b ≤ m a) (h : bestBy better l = some a) :
    a ∈ l ∧ ∀ b ∈ l, m a ≤ m b := by
  induction l generalizing a with
  | nil => cases h
  | cons x xs ih =>
    rw [bestBy] at h
    split at h
    · next hnone =>
      cases h
      rw [bestBy_eq_none.1 hnone]
      simp
    · next b hbest =>
      obtain ⟨hmem, hleast⟩ := ih hbest
      have hbx := hm b x
      split at h
      · next hbetter =>
        cases h
        rw [if_pos hbetter] at hbx
        exact ⟨List.mem_cons_of_mem _ hmem, List.forall_mem_cons.2 ⟨hbx, hleast⟩⟩
      · next hbetter =>
        cases h
        rw [if_neg hbetter] at hbx
        exact ⟨List.mem_cons_self, List.forall_mem_cons.2 ⟨le_rfl, fun y hy => hbx.trans (hleast y hy)⟩⟩

end Best

/-! ### Flush candidates (R106) -/

section Choice

variable {x : UnitRec} {l : List FlushEntry} {track h : Nat} {d : Sweep} {f : FlushEntry}

/-- R106: a candidate lies ahead of a track in a direction. -/
def FlushEntry.AheadOf (f : FlushEntry) (track : Nat) (d : Sweep) : Prop :=
  (d = .up ∧ track < f.key.track) ∨ (d = .down ∧ f.key.track < track)

/-- The distance of a candidate's track. -/
def FlushEntry.gap (f : FlushEntry) (track : Nat) : Nat := Int.natAbs ((f.key.track : Int) - track)

theorem FlushEntry.before_track (a b : FlushEntry) :
    if a.before b then (a.key.track : Int) ≤ b.key.track else (b.key.track : Int) ≤ a.key.track := by
  split <;> next h =>
    rw [before, decide_eq_true_eq] at h
    omega

/-- R106, step 3: the nearest track ahead. -/
theorem ahead_eq_some (h : ahead track d l = some f) : f ∈ l ∧ f.AheadOf track d ∧ ∀ b ∈ l, b.AheadOf track d → f.gap track ≤ b.gap track := by
  cases d with
  | up =>
    obtain ⟨hmem, hleast⟩ := bestBy_least FlushEntry.before_track h
    obtain ⟨hf, hahead⟩ := List.mem_filter.1 hmem
    have hup := of_decide_eq_true hahead
    refine ⟨hf, .inl ⟨rfl, hup⟩, fun b hb hbahead => ?_⟩
    obtain ⟨-, hbup⟩ | ⟨hd, -⟩ := hbahead
    · have := hleast b (List.mem_filter.2 ⟨hb, decide_eq_true hbup⟩)
      simp only [FlushEntry.gap]
      omega
    · cases hd
  | down =>
    obtain ⟨hmem, hleast⟩ := bestBy_least (m := fun f => -(f.key.track : Int))
      (fun a b => by split <;> next hab => rw [decide_eq_true_eq] at hab; omega) h
    obtain ⟨hf, hahead⟩ := List.mem_filter.1 hmem
    have hdown := of_decide_eq_true hahead
    refine ⟨hf, .inr ⟨rfl, hdown⟩, fun b hb hbahead => ?_⟩
    obtain ⟨hd, -⟩ | ⟨-, hbdown⟩ := hbahead
    · cases hd
    · have := hleast b (List.mem_filter.2 ⟨hb, decide_eq_true hbdown⟩)
      simp only [FlushEntry.gap]
      omega

theorem ahead_eq_none : ahead track d l = none ↔ ∀ f ∈ l, ¬ f.AheadOf track d := by
  cases d with
  | up => exact bestBy_eq_none.trans (List.filter_eq_nil_iff.trans (by simp [FlushEntry.AheadOf]))
  | down => exact bestBy_eq_none.trans (List.filter_eq_nil_iff.trans (by simp [FlushEntry.AheadOf]))

/-- A track that is not the believed one lies ahead of it in one direction or in the other. -/
theorem FlushEntry.aheadOf_reverse (hne : f.key.track ≠ track) (hnot : ¬ f.AheadOf track d) : f.AheadOf track d.reverse := by
  cases d with
  | up =>
    have : ¬ track < f.key.track := fun h => hnot (.inl ⟨rfl, h⟩)
    exact .inr ⟨rfl, by omega⟩
  | down =>
    have : ¬ f.key.track < track := fun h => hnot (.inr ⟨rfl, h⟩)
    exact .inl ⟨rfl, by omega⟩

/-- R106, step 2: the preference on the believed track goes by the rotational distance. -/
theorem onTrackBetter_distance (sectors h : Nat) (a b : FlushEntry) : if onTrackBetter sectors (some h) a b
    then rotationalDistance sectors h a.key.sector ≤ rotationalDistance sectors h b.key.sector
    else rotationalDistance sectors h b.key.sector ≤ rotationalDistance sectors h a.key.sector := by
  split <;> next hab =>
    rw [onTrackBetter, decide_eq_true_eq] at hab
    omega

/-- R106: the choice with the believed track known. -/
theorem chooseFlush_known (hx : x.believed = some track) : chooseFlush x l =
    match bestBy (onTrackBetter ((x.geometry.map Geometry.sectors).getD 0) x.lastHeader) (l.filter (fun f => f.key.track == track)) with
    | some f => some (f, x.sweep)
    | none =>
      match ahead track x.sweep l with
      | some f => some (f, x.sweep)
      | none => (ahead track x.sweep.reverse l).map (fun f => (f, x.sweep.reverse)) := by
  rw [chooseFlush, hx] <;> rfl

theorem onTrack_eq_none {b : FlushEntry → FlushEntry → Bool} :
    bestBy b (l.filter (fun f => f.key.track == track)) = none ↔ ∀ f ∈ l, f.key.track ≠ track :=
  bestBy_eq_none.trans (List.filter_eq_nil_iff.trans (by simp))

end Choice

/-! ### ABANDON (R150) -/

section Abandon

variable {s t : State} {c e i : Nat} {r : Request} {tag : BitVec 16}

theorem State.abandonTarget_eq_none (hwf : SMap.wf none s.table = true)
    (h : ∀ j q, j ≠ e → s.request j = some q → q.channel = c → q.record.tag ≠ tag) : s.abandonTarget e c tag = none := by
  refine bestBy_eq_none.2 (List.filter_eq_nil_iff.2 fun p hp => ?_)
  simp only [Bool.and_eq_true, bne_iff_ne, beq_iff_eq, not_and]
  exact fun ⟨hne, hc⟩ => h p.1 p.2 hne ((mem_held hwf).1 hp) hc

/-- R150: the earliest other request of the channel with the tag. -/
theorem State.abandonTarget_eq_some (hwf : SMap.wf none s.table = true) (hi : s.request i = some r) (hne : i ≠ e) (hc : r.channel = c)
    (htag : r.record.tag = tag)
    (h : ∀ j q, j ≠ e → s.request j = some q → q.channel = c → q.record.tag = tag → j ≠ i → r.arrival < q.arrival) :
    s.abandonTarget e c tag = some (i, r) := by
  have hmem : (i, r) ∈ s.held.filter (fun p => p.1 != e && p.2.channel == c && p.2.record.tag == tag) :=
    List.mem_filter.2 ⟨(mem_held hwf).2 hi, by simp [hne, hc, htag]⟩
  cases hbest : s.abandonTarget e c tag with
  | none => rw [bestBy_eq_none.1 hbest] at hmem; cases hmem
  | some p =>
    obtain ⟨hp, hleast⟩ := bestBy_least (m := fun p => (p.2.arrival : Int)) (fun a b => by split <;> next hab => simp at hab; omega) hbest
    obtain ⟨hheld, hlike⟩ := List.mem_filter.1 hp
    simp only [Bool.and_eq_true, bne_iff_ne, beq_iff_eq] at hlike
    obtain ⟨⟨hpe, hpc⟩, hptag⟩ := hlike
    have hreq := (mem_held hwf).1 hheld
    by_cases hpi : p.1 = i
    · rw [hpi, hi] at hreq
      exact congrArg some (Prod.ext hpi (Option.some.inj hreq).symm)
    · have := h p.1 p.2 hpe hreq hpc hptag hpi
      have hle : (p.2.arrival : Int) ≤ r.arrival := hleast (i, r) hmem
      omega

/-- R149: a departure from a set wait list, a survey queue or a barrier list changes that list alone. -/
theorem State.depart_listed (h : r.place = .parked .setWait ∨ r.place = .parked .surveyQueue ∨ r.place = .parked .barrierList) :
    ∃ sets units, t.depart e r = { t with setWait := sets, units }
      ∧ (r.place = .parked .setWait → e ∉ (t.depart e r).waiters (t.setOfKey r.key))
      ∧ (r.place = .parked .surveyQueue → e ∉ ((t.depart e r).unit r.record.unit).surveyQueue)
      ∧ (r.place = .parked .barrierList → ∀ b ∈ ((t.depart e r).unit r.record.unit).barriers, b.entry ≠ e) := by
  rcases h with hp | hp | hp <;> simp only [depart, hp]
  · refine ⟨_, t.units, rfl, fun _ => ?_, nofun, nofun⟩
    simp [leaveList]
  · refine ⟨t.setWait, _, rfl, nofun, fun _ => ?_, nofun⟩
    simp [leaveList]
  · refine ⟨t.setWait, _, rfl, nofun, nofun, fun _ => ?_⟩
    simp

end Abandon

end Sys2Proof.Machine

namespace Sys2Proof.Proofs

open Sys2Proof Sys2Proof.Machine

/-- Settles O53: the members of least distance, from the preference of each step. -/
theorem flushChoiceFollowsTheHead : Obligations.FlushChoiceFollowsTheHead := by
  intro x l track h g hb hh hg distance aheadOf gap
  have hsectors : (x.geometry.map Geometry.sectors).getD 0 = g.sectors := by rw [hg]; rfl
  have hchoose := chooseFlush_known (l := l) hb
  have hahead (f : FlushEntry) : aheadOf f ↔ f.AheadOf track x.sweep := Iff.rfl
  refine ⟨fun hl => ?_, fun hon => ?_, fun hoff hsome => ?_, fun hoff hnone hl => ?_⟩
  · rw [hchoose, onTrack_eq_none.2 (by simp [hl])]
    dsimp only
    rw [ahead_eq_none.2 (by simp [hl])]
    dsimp only
    rw [ahead_eq_none.2 (by simp [hl])]
    rfl
  · rw [hsectors, hh] at hchoose
    cases hbest : bestBy (onTrackBetter g.sectors (some h)) (l.filter (fun f => f.key.track == track)) with
    | none =>
      obtain ⟨f, hf, hft⟩ := hon
      exact absurd hft (onTrack_eq_none.1 hbest f hf)
    | some f =>
      rw [hbest] at hchoose
      obtain ⟨hmem, hleast⟩ := bestBy_least (m := fun f => rotationalDistance g.sectors h f.key.sector) (onTrackBetter_distance g.sectors h) hbest
      obtain ⟨hf, hft⟩ := List.mem_filter.1 hmem
      exact ⟨f, hf, hchoose, beq_iff_eq.1 hft, fun b hb hbt => hleast b (List.mem_filter.2 ⟨hb, beq_iff_eq.2 hbt⟩)⟩
  · rw [onTrack_eq_none.2 hoff] at hchoose
    cases hbest : ahead track x.sweep l with
    | none =>
      obtain ⟨f, hf, hfa⟩ := hsome
      exact absurd hfa (ahead_eq_none.1 hbest f hf)
    | some f =>
      rw [hbest] at hchoose
      obtain ⟨hf, hfa, hleast⟩ := ahead_eq_some hbest
      exact ⟨f, hf, hchoose, hfa, hleast⟩
  · rw [onTrack_eq_none.2 hoff, ahead_eq_none.2 hnone] at hchoose
    have hbehind (b : FlushEntry) (hb : b ∈ l) : b.AheadOf track x.sweep.reverse := FlushEntry.aheadOf_reverse (hoff b hb) (hnone b hb)
    cases hbest : ahead track x.sweep.reverse l with
    | none =>
      obtain ⟨f, hf⟩ := List.exists_mem_of_ne_nil l hl
      exact absurd (hbehind f hf) (ahead_eq_none.1 hbest f hf)
    | some f =>
      rw [hbest] at hchoose
      obtain ⟨hf, -, hleast⟩ := ahead_eq_some hbest
      exact ⟨f, hf, hchoose, fun b hb => hleast b hb (hbehind b hb)⟩

/-- Settles O29: the earliest entry with the tag decides; one that is parked leaves its list and is handed over before the ABANDON. -/
theorem abandonAnswersForItsTarget : Obligations.AbandonAnswersForItsTarget := by
  intro s c e tag target h hc hfree hwf record
  have hv : s.validate c record = none := by
    rw [State.validate_of_defined (k := .abandon) rfl (by simp [record, abandonRecord, Record.withoutDefined, Kind.flagMask]), if_neg,
      if_neg fun h => h rfl, if_neg fun h => h rfl, if_neg fun h => nomatch h.2]
    · rfl
    · simp [Kind.acceptedOn, hc, Kind.isAdmin]
  let q := s.newRequest c record
  let p := s.placed c e q
  have hwf' : SMap.wf none p.table = true := SMap.wf_set none s.table e (some q) hwf
  have hrequest {j : Nat} (hj : j ≠ e) : p.request j = s.request j := (s.placed_request q j).trans (if_neg hj)
  have hroute : p.route e q .abandon = p.takeAbandon e c record := rfl
  refine ⟨fun hnone => h.step_answered rfl hv rfl ?_, fun i r hi hrc htag _ hleast => ?_⟩
  · have htarget : p.abandonTarget e c record.target = none := State.abandonTarget_eq_none hwf' fun j y hj hy => hnone j y (hrequest hj ▸ hy)
    rw [hroute, State.takeAbandon, htarget]
    exact h.answers record _
  · have hie : i ≠ e := by rintro rfl; rw [hfree] at hi; cases hi
    have htarget : p.abandonTarget e c target = some (i, r) :=
      State.abandonTarget_eq_some hwf' ((hrequest hie).trans hi) hie hrc htag fun j y hj hy => hleast j y (hrequest hj ▸ hy)
    have htake : p.takeAbandon e c record = if r.isParked then (p.endParked i .abandoned).complete e { status := .success }
        else p.complete e { status := .tooLate } := by
      rw [State.takeAbandon, show record.target = target from rfl, htarget]
    refine ⟨fun hr => h.step_answered rfl hv rfl ?_, fun hr => ?_⟩
    · rw [hroute, htake, if_neg (by rcases hr with hr | hr <;> simp [Request.isParked, hr])]
      exact h.answers record _
    · have hparked : r.isParked = true := by rcases hr with hr | hr | hr <;> simp [Request.isParked, hr]
      obtain ⟨sets, units, hdepart, hset, hsurvey, hbarrier⟩ := State.depart_listed (t := p) (e := i) hr
      let x : Completion := { status := .abandoned, epoch := s.barrierEpoch i r }
      have hend : p.endParked i .abandoned = ({ p with setWait := sets, units } : State).complete i x := by
        rw [State.endParked, hrequest hie, hi]
        dsimp only
        rw [if_pos hparked, hdepart]
        rfl
      let u : State := { p with setWait := sets, units }
      let v : State := { u with
        table := SMap.set none p.table i (some (r.ended x))
        channels := SMap.set {} s.channels c { (s.channel c).taken with postQueue := (s.channel c).postQueue ++ [i] } }
      let w : State := { v with
        table := SMap.set none v.table e (some (q.ended { status := .success }))
        channels := SMap.set {} s.channels c { (s.channel c).taken with postQueue := (s.channel c).postQueue ++ [i, e] } }
      have hfirst : u.complete i x = v := by
        rw [State.complete_eq (s := u) (r := r) (y := (s.channel c).taken) x ((hrequest hie).trans hi)
          (by rcases hr with hr | hr | hr <;> simp [hr]) (by rw [hrc]; exact h.placed_channel_self (q := q)) h.posts h.clear, hrc]
        simp only [u, v, p, State.placed, SMap.set_set]
        rfl
      have hsecond : v.complete e { status := .success } = w := by
        have hve : v.request e = some q := by
          rw [State.request_of_table (t := v) (m := p.table) (e := i) (x := some (r.ended x)) rfl e, if_neg (Ne.symm hie)]
          exact (s.placed_request (c := c) q e).trans (if_pos rfl)
        rw [State.complete_eq (s := v) (r := q) (y := { (s.channel c).taken with postQueue := (s.channel c).postQueue ++ [i] }) _ hve nofun
          ((State.channel_of_channels (t := v) rfl c).trans (if_pos rfl)) h.posts h.clear]
        simp only [v, w, q, State.newRequest_channel, SMap.set_set, List.append_assoc]
        rfl
      have hstep : exec (.abandon tag target) s = .next w := by
        refine h.step rfl hv rfl ?_ h.settled
        rw [hroute, htake, if_pos hparked, hend, hfirst, hsecond]
      have hlists : w.setWait = sets ∧ w.units = units := ⟨rfl, rfl⟩
      rw [hdepart] at hset hsurvey hbarrier
      refine ⟨w, hstep, ?_, ?_, ?_, hset, hsurvey, hbarrier, rfl, rfl, rfl, rfl, rfl⟩
      · exact (State.request_of_table (t := w) (m := v.table) (e := e) (x := some (q.ended { status := .success })) rfl i).trans ((if_neg hie).trans ((State.request_of_table (t := v) (m := p.table) (x := some (r.ended x)) rfl i).trans (if_pos rfl)))
      · exact (State.request_of_table (t := w) rfl e).trans (if_pos rfl)
      · exact (State.channel_of_channels (t := w) rfl c).trans (if_pos rfl)

end Sys2Proof.Proofs
end

section
/-! PROOF. FLUSH (R78, R89). -/

namespace Sys2Proof.Machine

variable {s t : State} {c e k u : Nat} {r q : Request} {ln : Line}

/-! ### Epochs within reach of the counter (R78) -/

/-- R78, R81: an epoch brought within reach of the next epoch is at most the present one just as it was. -/
theorem epochAtMost_adjustEpoch (d x : Epoch) : epochAtMost (adjustEpoch (x + 1) d) x = epochAtMost d x := by
  unfold adjustEpoch
  split
  · next hfar =>
    have hback : x - (x + 1 - BitVec.ofInt 32 epochReach) = BitVec.ofNat 32 (2 ^ 30 - 1) := by
      rw [show BitVec.ofInt 32 epochReach = BitVec.ofNat 32 (2 ^ 30) from by decide]
      bv_omega
    have hpast : 0 ≤ (x - d).toInt := by
      have hone : x + 1 - d = (x - d) + 1 := by bv_omega
      rw [hone, epochReach] at hfar
      rw [BitVec.toInt_eq_toNat_cond] at hfar ⊢
      rw [BitVec.toNat_add, show (1 : BitVec 32).toNat = 1 from rfl] at hfar
      have := (x - d).isLt
      omega
    rw [epochAtMost, epochAtMost, hback, decide_eq_true hpast]
    decide
  · rfl

@[simp] theorem Line.adjustEpochs_key (ln : Line) (u : Nat) (c : Epoch) : (ln.adjustEpochs u c).key = ln.key := by
  unfold adjustEpochs
  split
  · split <;> rfl
  · rfl

@[simp] theorem Line.adjustEpochs_state (ln : Line) (u : Nat) (c : Epoch) : (ln.adjustEpochs u c).state = ln.state := by
  unfold adjustEpochs
  split
  · split <;> rfl
  · rfl

/-- R78: the epochs of a line of the unit in a state of the dirty group. -/
theorem Line.adjustEpochs_of (h : ln.key.any (·.unit == u) = true)
    (hs : ln.state = .dirty ∨ ln.state = .flushing ∨ ln.state = .reflush ∨ ln.state = .stranded) (c : Epoch) :
    ln.adjustEpochs u c = { ln with dirtyEpoch := ln.dirtyEpoch.map (adjustEpoch c), sourceEpoch := ln.sourceEpoch.map (adjustEpoch c) } := by
  rw [adjustEpochs, if_pos h]
  rcases hs with hs | hs | hs | hs <;> rw [hs]

/-- R78: the same of a line without a flush-source epoch. -/
theorem Line.adjustEpochs_dirty (h : ln.key.any (·.unit == u) = true)
    (hs : ln.state = .dirty ∨ ln.state = .flushing ∨ ln.state = .reflush ∨ ln.state = .stranded) (hsource : ln.sourceEpoch = none) (c : Epoch) :
    ln.adjustEpochs u c = { ln with dirtyEpoch := ln.dirtyEpoch.map (adjustEpoch c) } := by
  rw [Line.adjustEpochs_of h hs]
  obtain ⟨⟩ := ln
  subst hsource
  rfl

/-- R81, R89: an adjusted line is covered by the epoch just taken as it was. -/
theorem Line.coveredBy_adjustEpochs (x : Epoch) : (ln.adjustEpochs u (x + 1)).coveredBy x = ln.coveredBy x := by
  have hmap : (ln.dirtyEpoch.map (adjustEpoch (x + 1))).any (fun d => epochAtMost d x) = ln.dirtyEpoch.any (fun d => epochAtMost d x) := by
    cases ln.dirtyEpoch with
    | none => rfl
    | some d => exact epochAtMost_adjustEpoch d x
  unfold adjustEpochs coveredBy
  split
  · split
    · exact hmap
    · exact hmap
    · exact hmap
    · exact hmap
    all_goals rfl
  · rfl

/-- A table whose values are mapped reads as the mapped value, if the default value is kept. -/
theorem SMap.get_map {α : Type} {d : α} {f : α → α} (hd : f d = d) (m : SMap α) (k : Nat) :
    SMap.get d (m.map (fun p => (p.1, f p.2))) k = f (SMap.get d m k) := by
  induction m with
  | nil => exact hd.symm
  | cons p m ih =>
    show (if k = p.1 then f p.2 else SMap.get d (m.map (fun p => (p.1, f p.2))) k) = f (if k = p.1 then p.2 else SMap.get d m k)
    split
    · rfl
    · exact ih

/-! ### Taking a FLUSH (R89) -/

/-- R78, R89: the counter advanced and every epoch of the unit kept within its reach. -/
def State.advanced (s : State) (u : Nat) : State :=
  { s with
    units := SMap.set {} s.units u { s.unit u with
      epoch := (s.unit u).epoch + 1
      barriers := (s.unit u).barriers.map (fun b => { b with epoch := adjustEpoch ((s.unit u).epoch + 1) b.epoch }) }
    lines := s.lines.map (fun p => (p.1, p.2.adjustEpochs u ((s.unit u).epoch + 1))) }

theorem State.adjustEpochs_next (s : State) (u : Nat) : (s.updUnit u (fun x => { x with epoch := x.epoch + 1 })).adjustEpochs u = s.advanced u := by
  let t := s.updUnit u (fun x => { x with epoch := x.epoch + 1 })
  have hunit : t.unit u = { s.unit u with epoch := (s.unit u).epoch + 1 } := (State.unit_of_units (t := t) rfl u).trans (if_pos rfl)
  show t.adjustEpochs u = _
  rw [adjustEpochs, hunit]
  dsimp only
  rw [updUnit_eq hunit]
  simp only [t, updUnit, setUnit_eq, SMap.set_set]
  rfl

theorem State.takeFlush_eq (s : State) (e u : Nat) : s.takeFlush e u = if (s.advanced u).barrierWaits u (s.unit u).epoch
    then ((s.advanced u).updUnit u (fun x => { x with barriers := x.barriers ++ [⟨e, (s.unit u).epoch⟩] })).park e .barrierList
    else (s.advanced u).complete e ((s.advanced u).flushCompletion u (s.unit u).epoch) := by
  rw [takeFlush, adjustEpochs_next]

theorem State.advanced_unit : (s.advanced u).unit u = { s.unit u with
    epoch := (s.unit u).epoch + 1
    barriers := (s.unit u).barriers.map (fun b => { b with epoch := adjustEpoch ((s.unit u).epoch + 1) b.epoch }) } :=
  (State.unit_of_units (t := s.advanced u) rfl u).trans (if_pos rfl)

theorem State.advanced_line (k : Nat) : (s.advanced u).line k = (s.line k).adjustEpochs u ((s.unit u).epoch + 1) :=
  SMap.get_map (f := fun ln => Line.adjustEpochs ln u ((s.unit u).epoch + 1)) rfl s.lines k

/-- R89, step 3: what makes the FLUSH just taken wait. -/
theorem State.advanced_barrierWaits : (s.advanced u).barrierWaits u (s.unit u).epoch
    = s.lines.any (fun p => (p.2.adjustEpochs u ((s.unit u).epoch + 1)).delays u (s.unit u).epoch) := List.any_map

/-- R89, R92: the lines that an INCOMPLETE FLUSH counts. -/
theorem State.advanced_strandedUnder : (s.advanced u).strandedUnder u (s.unit u).epoch = s.strandedUnder u (s.unit u).epoch := by
  have hkept (p : Nat × Line) : ((p.2.adjustEpochs u ((s.unit u).epoch + 1)).state == .stranded
      && (p.2.adjustEpochs u ((s.unit u).epoch + 1)).key.any (·.unit == u)
      && (p.2.adjustEpochs u ((s.unit u).epoch + 1)).coveredBy (s.unit u).epoch)
      = (p.2.state == .stranded && p.2.key.any (·.unit == u) && p.2.coveredBy (s.unit u).epoch) := by
    rw [Line.adjustEpochs_state, Line.adjustEpochs_key, Line.coveredBy_adjustEpochs]
  have hfilter : (s.advanced u).lines.filter (fun p => p.2.state == .stranded && p.2.key.any (·.unit == u) && p.2.coveredBy (s.unit u).epoch)
      = (s.lines.filter (fun p => p.2.state == .stranded && p.2.key.any (·.unit == u) && p.2.coveredBy (s.unit u).epoch)).map
        (fun p => (p.1, p.2.adjustEpochs u ((s.unit u).epoch + 1))) := by
    rw [advanced, List.filter_map]
    exact congrArg _ (List.filter_congr fun p _ => hkept p)
  rw [strandedUnder, hfilter, List.length_map]
  rfl

end Sys2Proof.Machine

namespace Sys2Proof.Proofs

open Sys2Proof Sys2Proof.Machine

/-- Settles O26: the FLUSH on the unit with the counter advanced and its epochs within reach. -/
theorem flushCompletesOrParks : Obligations.FlushCompletesOrParks := by
  have hepoch (a b : Epoch) : epochAtMost a b = decide (EpochAtMost a b) := rfl
  have hroute (s : State) (c e : Nat) (record : Record) : (s.placed c e (s.newRequest c record)).route e (s.newRequest c record) .flush
      = (s.placed c e (s.newRequest c record)).takeFlush e record.unit := rfl
  have hcompletes {s : State} {c e : Nat} (h : s.Takes c e) (record : Record) (u : Nat) (x : Completion) :=
    h.completes (t := (s.placed c e (s.newRequest c record)).advanced u) (q := s.newRequest c record) x rfl rfl nofun rfl
  have hparks (s : State) (c e : Nat) (record : Record) (u : Nat) (f : UnitRec → UnitRec) :=
    State.updRequest_like (s := s) (c := c) (e := e) (q := s.newRequest c record)
      (t := ((s.placed c e (s.newRequest c record)).advanced u).updUnit u f) rfl (fun r => { r with place := .parked .barrierList })
  refine ⟨?_, ?_, ?_⟩
  · intro s c e tag unit record x counted h hv hclean
    let p := s.placed c e (s.newRequest c record)
    let y : Completion := { status := if counted = 0 then .success else .incomplete, count := counted, epoch := x.epoch }
    have hwaits : (p.advanced unit.toNat).barrierWaits unit.toNat (p.unit unit.toNat).epoch = false := by
      rw [State.advanced_barrierWaits, List.any_eq_false]
      intro q hq
      rw [Line.delays, Line.adjustEpochs_key, Line.adjustEpochs_state]
      cases hkey : q.2.key with
      | none => simp
      | some key =>
        by_cases hu : key.unit = unit.toNat
        · obtain ⟨hd, hf, hr⟩ := hclean q hq key hkey hu
          cases hst : q.2.state with
          | dirty => exact absurd hst hd
          | flushing => exact absurd hst hf
          | reflush => exact absurd hst hr
          | free | filling | loading | clean | stranded => simp
        · simp [hu]
    have hcount : (p.advanced unit.toNat).flushCompletion unit.toNat (p.unit unit.toNat).epoch = y := by
      rw [State.flushCompletion, State.advanced_strandedUnder]
      rfl
    have hstep := h.step (i := .flush tag unit) rfl hv rfl ((hroute ..).trans ((State.takeFlush_eq ..).trans ((if_neg (Bool.eq_false_iff.1 hwaits)).trans
      ((congrArg _ hcount).trans (hcompletes h record unit.toNat y))))) h.settled
    refine ⟨_, hstep, ?_, ?_, rfl, rfl⟩
    · exact (State.request_of_table rfl e).trans (if_pos rfl)
    · exact congrArg UnitRec.epoch (State.advanced_unit (s := p) (u := unit.toNat))
  · intro s c e k ln d tag unit record x h hv hmem hstate hkey hd hle
    let p := s.placed c e (s.newRequest c record)
    obtain ⟨key, hkey, hu⟩ := hkey
    have hwaits : (p.advanced unit.toNat).barrierWaits unit.toNat (p.unit unit.toNat).epoch = true := by
      rw [State.advanced_barrierWaits, List.any_eq_true]
      refine ⟨(k, ln), hmem, ?_⟩
      have hcovered : ln.coveredBy (p.unit unit.toNat).epoch = true := by
        rw [Line.coveredBy, hd]
        exact decide_eq_true hle
      rw [Line.delays, Line.adjustEpochs_key, Line.adjustEpochs_state, hkey, hstate]
      dsimp only
      rw [Line.coveredBy_adjustEpochs, hcovered]
      simp [hu]
    let y : UnitRec := { (p.advanced unit.toNat).unit unit.toNat with
      barriers := ((p.advanced unit.toNat).unit unit.toNat).barriers ++ [⟨e, x.epoch⟩] }
    let t : State := { p.advanced unit.toNat with
      table := SMap.set none s.table e (some { s.newRequest c record with place := .parked .barrierList })
      units := SMap.set {} (p.advanced unit.toNat).units unit.toNat y }
    have hstep := h.step (i := .flush tag unit) rfl hv rfl ((hroute ..).trans ((State.takeFlush_eq ..).trans ((if_pos hwaits).trans
      (hparks s c e record unit.toNat _)))) h.settled
    refine ⟨t, hstep, ?_, ?_, ?_, ?_, rfl, rfl⟩
    · exact (State.request_of_table (t := t) rfl e).trans (if_pos rfl)
    all_goals rw [show t.unit unit.toNat = y from (State.unit_of_units (t := t) rfl unit.toNat).trans (if_pos rfl)]
    · exact congrArg UnitRec.epoch State.advanced_unit
    · simp only [y, State.advanced_unit, List.map_append, List.map_map]
      rfl
    · exact List.getLast?_concat
  · intro s c e k d key tag unit counter h hv hkey hu hstate hd hsource
    let record := flushRecord tag unit
    let p := s.placed c e (s.newRequest c record)
    have hline : (p.advanced unit.toNat).line k
        = { s.line k with dirtyEpoch := some (if 2 ^ 30 < (counter - d).toInt then counter - BitVec.ofNat 32 (2 ^ 30) else d) } := by
      rw [State.advanced_line]
      refine (Line.adjustEpochs_dirty (by show (s.line k).key.any _ = true; rw [hkey]; simpa using hu) ?_ hsource _).trans ?_
      · rcases hstate with h | h | h
        · exact .inl h
        · exact .inr (.inl h)
        · exact .inr (.inr (.inr h))
      · show { s.line k with dirtyEpoch := (s.line k).dirtyEpoch.map (adjustEpoch counter) } = _
        rw [hd]
        rfl
    cases hwaits : (p.advanced unit.toNat).barrierWaits unit.toNat (p.unit unit.toNat).epoch with
    | true =>
      exact ⟨_, h.step (i := .flush tag unit) rfl hv rfl ((hroute ..).trans ((State.takeFlush_eq ..).trans ((if_pos hwaits).trans
        (hparks s c e record unit.toNat _)))) h.settled, hline⟩
    | false =>
      exact ⟨_, h.step (i := .flush tag unit) rfl hv rfl ((hroute ..).trans ((State.takeFlush_eq ..).trans ((if_neg (Bool.eq_false_iff.1 hwaits)).trans
        (hcompletes h record unit.toNat _)))) h.settled, hline⟩

end Sys2Proof.Proofs
end

section
/-! PROOF. CHANNEL_OPEN and CHANNEL_CLOSE (R176, R177). -/

namespace Sys2Proof.Machine

variable {s t : State} {c d e : Nat} {r q : Request}

/-! ### Members of a table after an update -/

theorem SMap.mem_insert {α : Type} {k : Nat} {v : α} {m : SMap α} {p : Nat × α} (h : p ∈ SMap.insert k v m) : p = (k, v) ∨ p ∈ m := by
  induction m with
  | nil => exact .inl (List.mem_singleton.1 h)
  | cons b m ih =>
    rw [SMap.insert] at h
    split at h
    · exact List.mem_cons.1 h
    · rcases List.mem_cons.1 h with h | h
      · exact .inr (h ▸ List.mem_cons_self)
      · exact (ih h).imp_right (List.mem_cons_of_mem _)

theorem SMap.mem_set {α : Type} [DecidableEq α] {dflt : α} {k : Nat} {v : α} {m : SMap α} {p : Nat × α} (h : p ∈ SMap.set dflt m k v) :
    p = (k, v) ∨ p ∈ m := by
  rw [SMap.set] at h
  split at h
  · exact .inr (List.mem_of_mem_filter h)
  · exact (SMap.mem_insert h).imp_right List.mem_of_mem_filter

/-- The entries held after a record has been taken. -/
theorem State.mem_held_placed {p : Nat × Request} (h : p ∈ (s.placed c e q).held) : p = (e, q) ∨ p ∈ s.held := by
  rw [held, List.mem_filterMap] at h
  obtain ⟨⟨i, x⟩, hmem, hx⟩ := h
  rcases SMap.mem_set (dflt := none) (k := e) (v := some q) (m := s.table) hmem with heq | hmem
  · cases heq
    exact .inl (Option.some.inj hx).symm
  · exact .inr (List.mem_filterMap.2 ⟨(i, x), hmem, hx⟩)

/-- R149: with no such request PARKED nothing is ended. -/
theorem State.endAllParked_none {p : Request → Bool} {status : Status} (h : ∀ x ∈ t.held, p x.2 = true → x.2.isParked = false) :
    t.endAllParked p status = t := by
  have hnone : t.held.filter (fun x => x.2.isParked && p x.2) = [] := by
    refine List.filter_eq_nil_iff.2 fun x hx => ?_
    rw [Bool.and_eq_true]
    exact fun ⟨hparked, hp⟩ => by rw [h x hx hp] at hparked; cases hparked
  rw [endAllParked, parkedWhere, hnone]
  rfl

/-- R46: a channel that holds no line has no hold to drop. -/
theorem State.dropAllHolds_none (h : ∀ p ∈ t.lines, c ∉ p.2.holders) : t.dropAllHolds c = t := by
  have hnone : t.lines.filter (fun p => p.2.holders.contains c) = [] :=
    List.filter_eq_nil_iff.2 fun p hp => by simpa using h p hp
  rw [dropAllHolds, hnone]
  rfl

/-! ### Another channel changed beside the completion -/

/-- A request just taken completes on its channel, another channel having changed. -/
theorem State.Takes.complete_beside (h : s.Takes c e) {y : Channel} (x : Completion) (ht : t.table = (s.placed c e q).table)
    (hc : t.channels = SMap.set {} (s.placed c e q).channels d y) (hd : c ≠ d) (hq : q.place ≠ .done) (hch : q.channel = c) :
    t.complete e x = { t with
      table := SMap.set none s.table e (some (q.ended x))
      channels := SMap.set {} t.channels c { (s.channel c).taken with postQueue := (s.channel c).postQueue ++ [e] } } := by
  subst hch
  have hreq : t.request e = some q := by rw [request, ht]; exact (s.placed_request q e).trans (if_pos rfl)
  have hchan : t.channel q.channel = (s.channel q.channel).taken :=
    (channel_of_channels hc _).trans ((if_neg hd).trans ((s.placed_channel q _).trans (if_pos rfl)))
  rw [State.complete_eq x hreq hq hchan h.posts h.clear, ht]
  simp only [placed, SMap.set_set]
  rfl

/-- The channels after that completion. -/
theorem State.Takes.channel_beside {y : Channel} {rec : Record} {x : Completion} (_ : s.Takes c e)
    (hu : t.channels = SMap.set {} (SMap.set {} (s.placed c e q).channels d y) c
      { (s.channel c).taken with postQueue := (s.channel c).postQueue ++ [e] }) (hd : c ≠ d) :
    t.channel d = y ∧ ∀ j, j ≠ d → t.channel j = (s.answered c e rec x).channel j := by
  have hanswered := channel_of_channels (t := s.answered c e rec x) rfl
  refine ⟨?_, fun j hj => ?_⟩
  · rw [channel_of_channels hu, if_neg hd.symm, SMap.get_set, if_pos rfl]
  · rw [channel_of_channels hu, hanswered, SMap.get_set, if_neg hj]
    split
    · rfl
    · next hjc => exact (s.placed_channel q j).trans (if_neg hjc)

/-! ### CHANNEL_OPEN and CHANNEL_CLOSE -/

theorem Record.channel_of_ranges {rec : Record} (h : rec.rangesOk .channelOpen = true ∨ rec.rangesOk .channelClose = true) : 0 ≠ rec.channel := by
  have hpos : 1 ≤ rec.channel := by
    rcases h with h | h
    · simp only [Record.rangesOk, Bool.and_eq_true, decide_eq_true_eq] at h
      exact h.1.1.1.1.1.1
    · exact (of_decide_eq_true h).1
  omega

theorem channelOpenRecord_interrupt (tag : BitVec 16) (intr : Bool) (ch : Byte) (sqBase cqBase : Addr) (sqSize cqSize : BitVec 16)
    (limit quota revoke : Byte) : (channelOpenRecord tag intr ch sqBase cqBase sqSize cqSize limit quota revoke).interrupt = intr := by
  cases intr <;> simp [Record.interrupt, channelOpenRecord, flagByte]

/-- R157: a channel with requests in flight has not drained. -/
theorem State.drainCheck_inFlight (h : (t.channel c).inFlight ≠ 0) : t.drainCheck c = t := if_neg fun hdrained => h hdrained.1

/-- R172: CHANNEL_CLOSE of an OPEN channel that holds no line and has no request PARKED. -/
theorem State.closeChannel_open {x : Channel} {rec : Record} (ha : t.agenda = []) (hx : t.channel rec.channel = x) (ho : x.state = .open)
    (hl : ∀ p ∈ t.lines, rec.channel ∉ p.2.holders) (hp : ∀ p ∈ t.held, p.2.channel = rec.channel → p.2.isParked = false) :
    t.closeChannel e rec = (t.setChannel rec.channel { x with state := .closing, closeEntry := some e, backlog := [] }).setAgenda
      [.drainCheck rec.channel] := by
  let u := t.setChannel rec.channel { x with state := .closing, closeEntry := some e }
  let v := t.setChannel rec.channel { x with state := .closing, closeEntry := some e, backlog := [] }
  have hu : u.channel rec.channel = { x with state := .closing, closeEntry := some e } := by simp [u]
  have hv : v.channel rec.channel = { x with state := .closing, closeEntry := some e, backlog := [] } := by simp [v]
  have hstop : u.stopService rec.channel .channelClosing = v := by
    have hbacklog : u.updChannel rec.channel (fun x => { x with backlog := [] }) = v := by
      rw [updChannel_eq hu]
      simp only [u, v, setChannel_eq, SMap.set_set]
    rw [stopService, dropAllHolds_none (t := u) hl]
    rw [hbacklog]
    exact endAllParked_none fun y hy hc => hp y hy (beq_iff_eq.1 hc)
  have hdrain : v.noteDrain rec.channel = v.setAgenda [.drainCheck rec.channel] := by
    rw [noteDrain, hv]
    show v.setAgenda (t.agenda ++ [Work.drainCheck rec.channel]) = _
    rw [ha]
    rfl
  unfold closeChannel
  dsimp only
  rw [hx, ho]
  dsimp only
  rw [updChannel_eq hx]
  exact (congrArg (noteDrain · rec.channel) hstop).trans hdrain

end Sys2Proof.Machine

namespace Sys2Proof.Proofs

open Sys2Proof Sys2Proof.Machine

/-- Settles O30: by the state of the channel, beside channel 0 on which the request completes. -/
theorem channelsOpenAndClose : Obligations.ChannelsOpenAndClose := by
  refine ⟨?_, ?_⟩
  · intro s e tag intr ch sqBase cqBase sqSize cqSize limit quota revoke record i h hv
    have hflags : flagByte [false, false, intr] &&& ~~~Kind.channelOpen.flagMask = 0 := by cases intr <;> rfl
    have hdef : record.withoutDefined .channelOpen = {} := by simp only [record, channelOpenRecord, Record.withoutDefined, hflags]
    have hne : 0 ≠ ch.toNat := Record.channel_of_ranges (.inl (State.rangesOk_of_validate (k := .channelOpen) rfl hdef hv))
    let q : Request := { s.newRequest 0 record with place := .active }
    let p := s.placed 0 e q
    have hstate : (p.channel ch.toNat).state = (s.channel ch.toNat).state := congrArg _ ((s.placed_channel q _).trans (if_neg hne.symm))
    refine ⟨fun hx => h.step_answered (i := i) rfl hv rfl ?_, fun hx => ?_⟩
    · rw [State.placed_route_openChannel, ← h.answers_active]
      exact if_neg (hstate ▸ hx)
    · let y : Channel := { state := .open, rings := some ⟨sqBase, sqSize.toNat, cqBase, cqSize.toNat⟩, limit := some limit.toNat, interrupt := intr,
                           holdQuota := quota.toNat, revokeLimit := revoke.toNat, opened := true }
      have hopened : openedChannel ⟨record.buffer, record.p32.toNat, record.cqBase, record.w34⟩ record.p36.toNat record.interrupt record.p37.toNat
          record.p38.toNat = y := by
        have hsize : record.w34 = cqSize.toNat := word_of_bytes cqSize
        have hintr : record.interrupt = intr := channelOpenRecord_interrupt ..
        rw [openedChannel, hsize, hintr]
        rfl
      let t : State := { p with channels := SMap.set {} p.channels ch.toNat y }
      let u : State := { s with
        fetch := none
        table := SMap.set none s.table e (some (q.ended { status := .success }))
        channels := SMap.set {} t.channels 0 { (s.channel 0).taken with postQueue := (s.channel 0).postQueue ++ [e] } }
      have hends : t.complete e { status := .success } = u := h.complete_beside (y := y) { status := .success } rfl rfl hne nofun rfl
      have hstep := h.step (i := i) rfl hv rfl (((State.placed_route_openChannel record).trans (if_pos (hstate.trans hx))).trans
        ((congrArg (fun y => (p.setChannel ch.toNat y).complete e _) hopened).trans
          hends)) h.settled
      obtain ⟨hch, hothers⟩ := h.channel_beside (rec := record) (x := { status := .success }) (q := q) (y := y) (t := u) rfl hne
      exact ⟨u, hstep, hch, hothers, rfl⟩
  · intro s e tag ch record x h hv
    have hdef : record.withoutDefined .channelClose = {} := by simp [record, channelCloseRecord, Record.withoutDefined, Kind.flagMask]
    have hne : 0 ≠ ch.toNat := Record.channel_of_ranges (.inr (State.rangesOk_of_validate (k := .channelClose) rfl hdef hv))
    let q : Request := { s.newRequest 0 record with place := .active }
    let p := s.placed 0 e q
    have hx : p.channel ch.toNat = x := (s.placed_channel q _).trans (if_neg hne.symm)
    have hroute := State.placed_route_closeChannel (s := s) (c := 0) (e := e) record
    refine ⟨fun hstate => h.step_answered (i := .channelClose tag ch) rfl hv rfl ?_, fun hstate => ?_, fun hstate hin hholds hparked => ?_⟩
    · have hclose : p.closeChannel e record = p.complete e { status := .channelState } := by
        unfold State.closeChannel
        dsimp only
        rw [show p.channel record.channel = x from hx]
        rcases hstate with hs | hs | hs <;> rw [hs]
      rw [hroute, ← h.answers_active]
      exact hclose
    · let y : Channel := { x with state := .closed }
      let t : State := { p with channels := SMap.set {} p.channels ch.toNat y, eventSet := s.eventSet.filter (· != ch.toNat) }
      have hclose : p.closeChannel e record = t.complete e { status := .success } := by
        unfold State.closeChannel
        dsimp only
        rw [show p.channel record.channel = x from hx, hstate]
        dsimp only
        rw [State.updChannel_eq (c := record.channel) hx]
        rfl
      let u : State := { s with
        fetch := none
        eventSet := s.eventSet.filter (· != ch.toNat)
        table := SMap.set none s.table e (some (q.ended { status := .success }))
        channels := SMap.set {} t.channels 0 { (s.channel 0).taken with postQueue := (s.channel 0).postQueue ++ [e] } }
      have hends : t.complete e { status := .success } = u := h.complete_beside (y := y) { status := .success } rfl rfl hne nofun rfl
      have hstep := h.step (i := .channelClose tag ch) rfl hv rfl (hroute.trans (hclose.trans hends)) h.settled
      obtain ⟨hch, hothers⟩ := h.channel_beside (rec := record) (x := { status := .success }) (q := q) (y := y) (t := u) rfl hne
      exact ⟨u, hstep, hch, rfl, hothers, rfl⟩
    · let y : Channel := { x with state := .closing, closeEntry := some e, backlog := [] }
      let t : State := { p with channels := SMap.set {} p.channels ch.toNat y }
      have hty : t.channel ch.toNat = y := (State.channel_of_channels (t := t) rfl _).trans (if_pos rfl)
      have hheld (a : Nat × Request) (ha : a ∈ p.held) (hc : a.2.channel = ch.toNat) : a.2.isParked = false := by
        rcases State.mem_held_placed ha with rfl | ha
        · rfl
        · exact hparked a ha hc
      have hclose : p.closeChannel e record = t.setAgenda [.drainCheck ch.toNat] := State.closeChannel_open h.settled hx hstate hholds hheld
      have hstep := h.step_idle (i := .channelClose tag ch) (w := .drainCheck ch.toNat) rfl hv rfl (hroute.trans hclose)
        (State.drainCheck_inFlight (t := t) (by rw [hty]; exact hin)) h.settled
      refine ⟨t, hstep, hty, fun d hd => ?_, rfl⟩
      exact (State.channel_of_channels (t := t) (m := p.channels) (x := y) rfl d).trans (if_neg hd)

end Sys2Proof.Proofs
end

section
/-! PROOF. The set-wait deadline (R21) and the recall deadline, which revokes holds and closes the episode (R40, R43). -/

namespace Sys2Proof.Machine

variable {s t : State} {c d e k n slot : Nat} {r : Request} {ep : Episode}

theorem State.episode_of_episodes {m : SMap (Option Episode)} {x : Option Episode} (h : t.episodes = SMap.set none m n x) (j : Nat) :
    t.episode j = if j = n then x else SMap.get none m j := by rw [episode, h, SMap.get_set]

theorem State.refCount_of_refs {m : SMap Nat} {x : Nat} (h : t.refs = SMap.set 0 m k x) (j : Nat) :
    t.refCount j = if j = k then x else SMap.get 0 m j := by rw [refCount, h, SMap.get_set]

/-- An operation applied with nothing on the agenda. -/
theorem State.inOrder_settled (h : s.agenda = []) (f : State → State) : s.inOrder f = f s := by
  rw [inOrder, setAgenda_self h, h]
  rfl

/-! ### Notices with room (R166) -/

/-- R166: a notice joins the backlog of an OPEN channel with room. -/
theorem State.queueNotice_room {y : Channel} (hp : s.part ≠ .failed) (hy : s.channel c = y) (ho : y.state = .open)
    (hroom : y.backlog.length < backlogLimit c) (m : Notice) :
    s.queueNotice c m = { s with channels := SMap.set {} s.channels c { y with backlog := y.backlog ++ [m] } } := by
  subst hy
  rw [queueNotice, if_neg (by simp [hp, ho]), if_pos hroom]
  rfl

theorem backlogLimit_data (h : c ≠ 0) : backlogLimit c = 48 := if_neg h

/-! ### Revocation (R43) -/

/-- R43: a pending channel without a revoke limit and with room in its backlog is revoked. -/
theorem State.revoke_eq {x : Episode} (hp : s.part ≠ .failed) (hd : c ≠ 0) (ho : (s.channel c).state = .open) (hroom : (s.channel c).backlog.length < 48)
    (hlimit : (s.channel c).revokeLimit = 0) (hline : (s.line ep.line).episode = some n) (he : s.episode n = some x) (hc : c ∈ x.waiting)
    (hw : s.episodeWait = []) (hset : s.waiters (ep.line / 4) = []) :
    s.revoke n ep c = { s with
      lines := SMap.set {} s.lines ep.line { s.line ep.line with holders := (s.line ep.line).holders.filter (· != c) }
      channels := SMap.set {} s.channels c { s.channel c with
        holdCount := (s.channel c).holdCount - 1
        backlog := (s.channel c).backlog ++ [Notice.revoked ep.key n]
        revokeCount := min 255 ((s.channel c).revokeCount + 1) }
      episodes := SMap.set none s.episodes n (some { x with waiting := x.waiting.filter (· != c) })
      agenda := s.agenda ++ [Work.episodeCheck n] } := by
  let y : Channel := { s.channel c with holdCount := (s.channel c).holdCount - 1 }
  let z : Channel := { y with backlog := y.backlog ++ [Notice.revoked ep.key n] }
  let t : State := { s with
      lines := SMap.set {} s.lines ep.line { s.line ep.line with holders := (s.line ep.line).holders.filter (· != c) }
      channels := SMap.set {} s.channels c y
      episodes := SMap.set none s.episodes n (some { x with waiting := x.waiting.filter (· != c) })
      agenda := s.agenda ++ [Work.episodeCheck n] }
  let u : State := { t with channels := SMap.set {} t.channels c z }
  have hdrop : s.dropHold c ep.line = t := dropHold_pending hline he hc hw hset
  have hty : t.channel c = y := (channel_of_channels (t := t) rfl c).trans (if_pos rfl)
  have hnotice : t.queueNotice c (.revoked ep.key n) = u :=
    queueNotice_room (s := t) hp hty ho (by rw [backlogLimit_data hd]; exact hroom) _
  have huz : u.channel c = z := (channel_of_channels (t := u) rfl c).trans (if_pos rfl)
  unfold revoke
  dsimp only
  rw [hdrop, hnotice, huz, if_neg (by simp [z, y, hlimit]), updChannel_eq huz]
  simp only [u, t, SMap.set_set]
  rfl

/-- R40: an episode without pending channels closes: its record is freed, its one recalled channel loses the RECALLs that are not posted, and
its writer takes a slot. -/
theorem State.episodeCheck_closes (he : s.episode n = some ep) (hempty : ep.waiting = []) (hrecalled : ep.recalled = [c]) (hw : s.episodeWait = [])
    (hr : s.request ep.writer = some r) (hs : s.freeSlot = some slot) : s.episodeCheck n = { s with
      episodes := SMap.set none s.episodes n none
      lines := SMap.set {} s.lines ep.line { s.line ep.line with episode := none }
      channels := SMap.set {} s.channels c { s.channel c with backlog := (s.channel c).backlog.filter (fun m => !m.isRecallOf n) }
      refs := SMap.set 0 s.refs slot 1
      table := SMap.set none s.table ep.writer (some { r with place := .active, staging := some slot })
      outbox := .hostRead r.record.buffer.toNat 1024 :: s.outbox } := by
  let t : State := { s with
      episodes := SMap.set none s.episodes n none
      lines := SMap.set {} s.lines ep.line { s.line ep.line with episode := none }
      channels := SMap.set {} s.channels c { s.channel c with backlog := (s.channel c).backlog.filter (fun m => !m.isRecallOf n) } }
  have hfree : s.freeEpisode n = t := by
    rw [freeEpisode, he]
    dsimp only
    rw [hrecalled]
    refine (if_pos (by exact List.isEmpty_iff.2 hw)).trans ?_
    rfl
  have hcheck : s.episodeCheck n = t.proceed ep.writer := by
    rw [episodeCheck, he]
    dsimp only
    rw [if_pos (List.isEmpty_iff.2 hempty), closeEpisode, he]
    dsimp only
    rw [hfree]
  rw [hcheck, proceed_eq (t := t) hr hs]

end Sys2Proof.Machine

namespace Sys2Proof.Proofs

open Sys2Proof Sys2Proof.Machine

/-- Settles O43: an expiry before its moment does nothing; then the departure, or the revocation with the close. -/
theorem deadlinesOfWaitsAndEpisodes : Obligations.DeadlinesOfWaitsAndEpisodes := by
  refine ⟨?_, ?_⟩
  · intro s e d r hp h hplace hd
    have hdue : s.setWaitDue e = if d ≤ s.now then some r else none := by
      rw [State.setWaitDue, if_neg hp, h.held, Option.filter_some, hplace, hd]
      simp [State.due]
    have hstep : exec (.setWaitDeadlineExpiry e) s = match s.setWaitDue e with
        | some r => .next (s.expireSetWait e r).finish
        | none => .next s := rfl
    refine ⟨fun hle => ?_, fun hlt => ?_⟩
    · let t := s.setWaiters (s.setOfKey r.key) ((s.waiters (s.setOfKey r.key)).filter (· != e))
      have hdepart : s.depart e r = t := by rw [State.depart, hplace]; rfl
      have hends : t.complete e { status := .noLine } = t.completed e r { status := .noLine } := (h.after (t := t) rfl rfl rfl).complete_eq _
      rw [hstep, hdue, if_pos hle]
      refine congrArg Host.Outcome.next ?_
      rw [State.expireSetWait, hdepart, hends]
      exact State.finish_nil _ h.settled
    · rw [hstep, hdue, if_neg (by omega)]
  · intro s n d w slot ep r hset hp hep hwaiting
    have hstep : exec (.recallDeadlineExpiry n) s = if ep.deadline ≤ s.now then .next (s.expireEpisode n).finish else .next s := by
      show (if s.episodeDue n then _ else _) = _
      rw [State.episodeDue, hep]
      simp [hp, State.due]
    refine ⟨fun hlt => hstep.trans (if_neg (by omega)), fun hle hrecalled hw hr hd hopen hroom hlimit hline hwait hwaiters hslot => ?_⟩
    subst hw
    let y : Channel := { s.channel d with
      holdCount := (s.channel d).holdCount - 1
      backlog := (s.channel d).backlog ++ [Notice.revoked ep.key n]
      revokeCount := min 255 ((s.channel d).revokeCount + 1) }
    let ln : Line := { s.line ep.line with holders := (s.line ep.line).holders.filter (· != d) }
    let t : State := { s with
      lines := SMap.set {} s.lines ep.line ln
      channels := SMap.set {} s.channels d y
      episodes := SMap.set none s.episodes n (some { ep with waiting := ep.waiting.filter (· != d) }) }
    let u : State := { t with
      episodes := SMap.set none t.episodes n none
      lines := SMap.set {} t.lines ep.line { ln with episode := none }
      channels := SMap.set {} t.channels d { y with backlog := y.backlog.filter (fun m => !m.isRecallOf n) }
      refs := SMap.set 0 s.refs slot 1
      table := SMap.set none s.table ep.writer (some { r with place := .active, staging := some slot })
      outbox := .hostRead r.record.buffer.toNat 1024 :: s.outbox }
    have hrevoke : s.expireEpisode n = t.setAgenda [.episodeCheck n] := by
      rw [State.expireEpisode, hep]
      dsimp only
      rw [hwaiting]
      show s.inOrder (State.revoke · n ep d) = _
      rw [State.inOrder_settled hset]
      refine (State.revoke_eq hp hd hopen hroom hlimit hline hep (by simp [hwaiting]) hwait hwaiters).trans ?_
      rw [show s.agenda = [] from hset]
      rfl
    have hty : t.channel d = y := (State.channel_of_channels (t := t) rfl d).trans (if_pos rfl)
    have htl : t.line ep.line = ln := (State.line_of_lines (t := t) rfl ep.line).trans (if_pos rfl)
    have hclose : t.episodeCheck n = u := by
      have hte : t.episode n = some { ep with waiting := ep.waiting.filter (· != d) } :=
        (State.episode_of_episodes (t := t) rfl n).trans (if_pos rfl)
      rw [State.episodeCheck_closes (s := t) (c := d) hte (by simp [hwaiting]) hrecalled hwait hr hslot, hty, htl]
    have hfinish : exec (.recallDeadlineExpiry n) s = .next u := by
      rw [hstep, if_pos hle, hrevoke]
      refine congrArg _ (State.RunsTo.finish (n := 1) (.cons ?_) rfl)
      show State.RunsTo 0 ((t.setAgenda []).episodeCheck n) u
      rw [State.setAgenda_self (t := t) hset, hclose]
      exact .nil hset
    refine ⟨u, hfinish, ?_, fun m hm => ?_, ?_, fun j hj => ?_, ?_, fun c hc => ?_, ?_, ?_, rfl, rfl⟩
    · exact (State.episode_of_episodes (t := u) rfl n).trans (if_pos rfl)
    · exact (State.episode_of_episodes (t := u) (m := t.episodes) (x := none) rfl m).trans ((if_neg hm).trans
        ((State.episode_of_episodes (t := t) (m := s.episodes) (x := some { ep with waiting := ep.waiting.filter (· != d) }) rfl m).trans (if_neg hm)))
    · exact (State.line_of_lines (t := u) rfl ep.line).trans (if_pos rfl)
    · exact (State.line_of_lines (t := u) (m := t.lines) rfl j).trans ((if_neg hj).trans ((State.line_of_lines (t := t) (m := s.lines) rfl j).trans (if_neg hj)))
    · exact (State.channel_of_channels (t := u) rfl d).trans (if_pos rfl)
    · exact (State.channel_of_channels (t := u) (m := t.channels) rfl c).trans
        ((if_neg hc).trans ((State.channel_of_channels (t := t) (m := s.channels) rfl c).trans (if_neg hc)))
    · exact (State.request_of_table (t := u) rfl ep.writer).trans (if_pos rfl)
    · exact (State.refCount_of_refs (t := u) rfl slot).trans (if_pos rfl)

end Sys2Proof.Proofs
end

section
/-! PROOF. The unit sequencers: changes of one unit record, the end of an operation, and the ends of fills that fail (R56 to R58, R102). -/

namespace Sys2Proof.Machine

variable {s t : State} {u e k n slot : Nat} {x y : UnitRec} {o : Operation} {r : Request} {status : Status} {mark : Mark}

/-! ### One unit record changed several times -/

@[simp] theorem State.setUnit_setUnit (s : State) (u : Nat) (y z : UnitRec) : (s.setUnit u y).setUnit u z = s.setUnit u z := by
  simp [setUnit_eq]

@[simp] theorem State.setUnit_updUnit (s : State) (u : Nat) (y : UnitRec) (f : UnitRec → UnitRec) :
    (s.setUnit u y).updUnit u f = s.setUnit u (f y) := by
  simp [updUnit]

@[simp] theorem State.setUnit_updOp (s : State) (u : Nat) (y : UnitRec) (f : Operation → Operation) :
    (s.setUnit u y).updOp u f = s.setUnit u { y with op := y.op.map f } := by
  simp [updOp]

@[simp] theorem State.setUnit_setDeadline (s : State) (u : Nat) (y : UnitRec) :
    (s.setUnit u y).setDeadline u = s.setUnit u { y with op := y.op.map (fun o => { o with deadline := s.now + 1000 }) } := by
  simp [setDeadline, Config.responseLimit]

@[simp] theorem State.setUnit_enter (s : State) (u : Nat) (y : UnitRec) (q : SeqState) :
    (s.setUnit u y).enter u q = s.setUnit u { y with seq := q, op := y.op.map (fun o => { o with deadline := s.now + 1000 }) } := by
  simp [enter]

@[simp] theorem State.setUnit_seeHeader (s : State) (u : Nat) (y : UnitRec) (h : Header) :
    (s.setUnit u y).seeHeader u h = s.setUnit u (if h.good then { y with lastHeader := some h.sector.toNat } else y) := by
  unfold seeHeader
  split <;> simp

theorem State.emit_updUnit (s : State) (out : Output) (u : Nat) (f : UnitRec → UnitRec) : (s.emit out).updUnit u f = (s.updUnit u f).emit out := rfl

theorem State.updUnit_def (s : State) (u : Nat) (f : UnitRec → UnitRec) : s.updUnit u f = s.setUnit u (f (s.unit u)) := rfl

theorem State.updOp_def (ho : (s.unit u).op = some o) (f : Operation → Operation) :
    s.updOp u f = s.setUnit u { s.unit u with op := some (f o) } := by
  rw [updOp, updUnit_def, ho]; rfl

theorem State.setDeadline_def (ho : (s.unit u).op = some o) :
    s.setDeadline u = s.setUnit u { s.unit u with op := some { o with deadline := s.now + 1000 } } := updOp_def ho _

theorem State.enter_def (ho : (s.unit u).op = some o) (q : SeqState) :
    s.enter u q = s.setUnit u { s.unit u with seq := q, op := some { o with deadline := s.now + 1000 } } := by
  rw [enter, updUnit_def, setUnit_setDeadline]
  show s.setUnit u { s.unit u with seq := q, op := (s.unit u).op.map (fun o => { o with deadline := s.now + 1000 }) } = _
  rw [ho]; rfl

/-! ### Events of the port -/

/-- R101: a sequencer of a part that is not FAILED acts on its port unless its unit is DETACHED. -/
theorem State.acts_of_ne (hp : s.part ≠ .failed) (hd : (s.unit u).state ≠ .detached) : s.acts u = true := by
  simp [acts, hp, hd]

/-- R123: outside a data field, data bytes have no place. -/
theorem State.takeData_outside (bs : List Byte) (ho : (s.unit u).op = some o) (hf : o.field = none) : s.takeData u bs = s := by
  rw [takeData, ho]
  dsimp only
  rw [hf]
  cases o.subject <;> rfl

/-- R120: what a match is. -/
theorem Header.isTarget_iff (h : Header) (o : Operation) : h.isTarget o = true
    ↔ h.track.toNat = o.track ∧ h.surface.toNat = o.surface ∧ o.sector = some h.sector.toNat ∧ h.size = 3 := by
  simp [isTarget, ownSizeCode, and_assoc]

theorem exec_header (hp : s.part ≠ .failed) (hd : (s.unit u).state ≠ .detached) (h : Header) (bs : List Byte) :
    exec (.header u h.track h.surface h.sector h.size h.check bs) s = .next ((s.takeData u bs).onHeader u h).finish :=
  if_pos (State.acts_of_ne hp hd)

theorem exec_index (hp : s.part ≠ .failed) (hd : (s.unit u).state ≠ .detached) (bs : List Byte) :
    exec (.index u bs) s = .next ((s.takeData u bs).onIndex u).finish := if_pos (State.acts_of_ne hp hd)

/-! ### Selection with nothing to select (R105) -/

theorem chooseFlush_nil (x : UnitRec) : chooseFlush x [] = none := by
  unfold chooseFlush
  split
  · rfl
  · cases x.sweep <;> rfl

theorem State.select_workless (h : (s.unit u).workless) : s.select u = s := by
  obtain ⟨hflush, hfill, hsurvey⟩ := h
  unfold select
  dsimp only
  split
  · rw [hflush, List.filter_nil, chooseFlush_nil]
    dsimp only
    rw [hfill, hsurvey]
  · rfl

/-! ### The end of an operation (R102) -/

/-- A unit record whose operation has ended with a status. -/
def UnitRec.opEnded (x : UnitRec) (status : Status) : UnitRec :=
  { x with op := none, seq := .idle, writeGate := false, verifyPending := x.verifyPending || status != .success }

/-- What an end of an operation puts out: the write gate turned off, where it is on. -/
def State.gateOutput (s : State) (u : Nat) : List Output := if (s.unit u).writeGate then .writeGateOff u :: s.outbox else s.outbox

/-- R100, R102: an operation ends on a unit for which no discard waits. -/
theorem State.endOp_eq (hp : s.part ≠ .failed) (ho : (s.unit u).op = some o) (hd : (s.unit u).discard = none) :
    s.endOp u status mark = ({ s.setUnit u ((s.unit u).opEnded status) with outbox := s.gateOutput u }).report u o status mark := by
  let t : State := { s.setUnit u ((s.unit u).opEnded status) with outbox := s.gateOutput u }
  have hclosed : (s.closeGate u).updUnit u (fun x => { x with op := none, seq := .idle, verifyPending := x.verifyPending || status != .success })
      = t := by
    cases hg : (s.unit u).writeGate with
    | true =>
      have hclose : s.closeGate u = (s.updUnit u (fun x => { x with writeGate := false })).emit (.writeGateOff u) := if_pos hg
      have hout : s.gateOutput u = .writeGateOff u :: s.outbox := if_pos hg
      rw [hclose, emit_updUnit, updUnit_def s, setUnit_updUnit]
      show _ = { s.setUnit u ((s.unit u).opEnded status) with outbox := s.gateOutput u }
      rw [hout]
      rfl
    | false =>
      have hclose : s.closeGate u = s := by rw [closeGate, hg]; rfl
      have hout : s.gateOutput u = s.outbox := by rw [gateOutput, hg]; rfl
      have hended : (s.unit u).opEnded status
          = { s.unit u with op := none, seq := .idle, verifyPending := (s.unit u).verifyPending || status != .success } := by
        rw [UnitRec.opEnded, ← hg]
      rw [hclose]
      show s.setUnit u _ = { s.setUnit u ((s.unit u).opEnded status) with outbox := s.gateOutput u }
      rw [hout, hended]
      rfl
  have hnote : (t.report u o status mark).noteDiscard u = t.report u o status mark := by
    have hunit : ((t.report u o status mark).unit u).discard = none := by
      have hsame : (t.report u o status mark).units = t.units := by
        unfold report
        split
        · rfl
        · rfl
        · split <;> rfl
      rw [State.unit, hsame]
      show (t.unit u).discard = none
      rw [unit_of_units (t := t) rfl u, if_pos rfl]
      exact hd
    rw [noteDiscard, hunit]
    rfl
  rw [endOp, ho]
  dsimp only
  rw [hclosed, if_neg hp, hnote]

/-! ### A fill that fails (R56 to R58) -/

/-- The references after a slot, if there is one, has lost one. -/
def refsWithout (refs : SMap Nat) : Option Nat → SMap Nat
  | none => refs
  | some slot => SMap.set 0 refs slot (SMap.get 0 refs slot - 1)

/-- R14: a reference dropped while no request waits for a slot. -/
theorem State.dropSlot_eq (h : t.slotWait = []) (slot : Option Nat) : t.dropSlot slot = { t with refs := refsWithout t.refs slot } := by
  cases slot with
  | none => rfl
  | some slot => exact dropRef_nil h

/-- R10: the references after a line has been freed. -/
def State.refsFreed (s : State) (k : Nat) : SMap Nat := refsWithout (refsWithout s.refs (s.line k).flushSource) (s.line k).currentSlot

/-- R10: a FILLING line freed. -/
theorem State.freeLine_filling (hw : s.slotWait = []) (hl : (s.line k).state = .filling) :
    s.freeLine k = { s with lines := SMap.set {} s.lines k {}, refs := s.refsFreed k } := by
  have hput : s.putLine k {} = s.setLine k {} := by
    rw [putLine_plain (by rw [hl]; decide) (by decide) (.inr (.inl (by rw [hl]; rfl))), countDirty, hl]
    rfl
  unfold freeLine
  dsimp only
  rw [hput, dropSlot_eq (t := s.setLine k {}) hw, dropSlot_eq (by exact hw)]
  rfl

/-- R56: LD takes the outcome of a failed fill that nothing waits for. -/
theorem State.fillOutcome_none (hl : (s.line k).state = .filling) (hlist : (s.line k).waitList = []) (hw : s.slotWait = [])
    (hst : status ≠ .success) : s.fillOutcome k status mark = { s with
      lines := SMap.set {} s.lines k {}, refs := s.refsFreed k, agenda := .reattempt (k / 4) :: s.agenda } := by
  unfold fillOutcome
  dsimp only
  rw [hlist, if_neg (not_not.2 hl), if_neg hst]
  exact freeLine_filling (s := s.soon [.reattempt (k / 4)]) hw hl

/-- R56, R58: the same where one request waits, which is handed on. -/
theorem State.fillOutcome_one (hl : (s.line k).state = .filling) (hlist : (s.line k).waitList = [e]) (hr : s.request e = some r)
    (hw : s.slotWait = []) (hst : status ≠ .success) : s.fillOutcome k status mark = { s with
      lines := SMap.set {} s.lines k {}, refs := s.refsFreed k
      table := SMap.set none s.table e (some { r with place := .routed, line := none })
      agenda := .handOn e status :: .reattempt (k / 4) :: s.agenda } := by
  let t : State := { s with
    table := SMap.set none s.table e (some { r with place := .routed, line := none })
    agenda := .handOn e status :: .reattempt (k / 4) :: s.agenda }
  have hunpark : (s.unparkAll [e]).soon [.handOn e status, .reattempt (k / 4)] = t := by
    show (s.updRequest e (fun r => { r with place := .routed, line := none })).soon _ = t
    rw [updRequest_eq hr]
    rfl
  unfold fillOutcome
  dsimp only
  rw [hlist, if_neg (not_not.2 hl), if_neg hst]
  exact (congrArg (freeLine · k) hunpark).trans (freeLine_filling (s := t) hw hl)

/-- R19: nothing waits for the set. -/
theorem State.RunsTo.reattempt {set : Nat} {ws : List Work} (hset : s.waiters set = []) (h : RunsTo n (s.setAgenda ws) t) :
    RunsTo (n + 1) (s.setAgenda (.reattempt set :: ws)) t := .idle (reattempt_nil (s := s.setAgenda ws) hset) h

/-- A selection that finds nothing to do. -/
theorem State.RunsTo.select {ws : List Work} (hu : (s.unit u).workless) (h : RunsTo n (s.setAgenda ws) t) :
    RunsTo (n + 1) (s.setAgenda (.select u :: ws)) t := .idle (select_workless (s := s.setAgenda ws) hu) h

/-- R56: the way of a failed fill that nothing waits for is freed. -/
theorem State.RunsTo.fillFailed_none {ws : List Work} (hl : (s.line k).state = .filling) (hlist : (s.line k).waitList = []) (hw : s.slotWait = [])
    (hset : s.waiters (k / 4) = []) (hst : status ≠ .success)
    (h : RunsTo n (({ s with lines := SMap.set {} s.lines k {}, refs := s.refsFreed k } : State).setAgenda ws) t) :
    RunsTo (n + 2) (s.setAgenda (.fillOutcome k status mark :: ws)) t := by
  let v : State := { s with lines := SMap.set {} s.lines k {}, refs := s.refsFreed k }
  refine .cons ?_
  show RunsTo (n + 1) ((s.setAgenda ws).fillOutcome k status mark) t
  rw [fillOutcome_none (s := s.setAgenda ws) hl hlist hw hst]
  exact RunsTo.reattempt (s := v) hset h

/-- R56, R58: the READ that waits for the line of a failed fill completes with the fill's status, and the way is freed. -/
theorem State.RunsTo.fillFailed_one {ws : List Work} (hl : (s.line k).state = .filling) (hlist : (s.line k).waitList = [e]) (hr : s.Completes e r)
    (hk : r.kind = some .read) (hw : s.slotWait = []) (hset : s.waiters (k / 4) = []) (hst : status ≠ .success)
    (h : RunsTo n (({ s.completed e r { status } with lines := SMap.set {} s.lines k {}, refs := s.refsFreed k } : State).setAgenda ws) t) :
    RunsTo (n + 3) (s.setAgenda (.fillOutcome k status mark :: ws)) t := by
  let q : Request := { r with place := .routed, line := none }
  let v : State := { s with
    lines := SMap.set {} s.lines k {}, refs := s.refsFreed k, table := SMap.set none s.table e (some q) }
  let w : State := { s.completed e r { status } with lines := SMap.set {} s.lines k {}, refs := s.refsFreed k }
  have hvq : v.request e = some q := (SMap.get_set none s.table e e (some q)).trans (if_pos rfl)
  have hv : v.Completes e q := ⟨hvq, nofun, hr.posts, hr.clear, hr.settled⟩
  have hdone : (v.setAgenda (.reattempt (k / 4) :: ws)).complete e { status } = w.setAgenda (.reattempt (k / 4) :: ws) := by
    rw [hv.complete_like (t := v.setAgenda (.reattempt (k / 4) :: ws)) _ rfl rfl]
    simp only [v, w, completed, SMap.set_set]
    rfl
  refine .cons ?_
  show RunsTo (n + 2) ((s.setAgenda ws).fillOutcome k status mark) t
  rw [fillOutcome_one (s := s.setAgenda ws) hl hlist hr.held hw hst]
  refine RunsTo.cons (s := v) (ws := .reattempt (k / 4) :: ws) ?_
  show RunsTo (n + 1) ((v.setAgenda (.reattempt (k / 4) :: ws)).handOn e status) t
  have hkind : ((v.setAgenda (.reattempt (k / 4) :: ws)).request e).bind Request.kind = some .read := by
    show (v.request e).bind Request.kind = _
    rw [hvq]
    exact hk
  rw [handOn, hkind]
  dsimp only
  rw [hdone]
  exact RunsTo.reattempt (s := w) hset h

end Sys2Proof.Machine
end

section
/-! PROOF. The events of a unit port that position its head, find a header and count index passes (R107 to R111, R119 to R121, R131, R132). -/

namespace Sys2Proof.Machine

variable {s t : State} {u e k n : Nat} {x y : UnitRec} {o : Operation} {r : Request} {status : Status} {mark : Mark}

/-! ### An operation that ends with a failure -/

/-- The unit record after SEEK_ERROR. -/
def UnitRec.lost (x : UnitRec) : UnitRec := { x with op := none, seq := .idle, believed := none, lastHeader := none, verifyPending := true }

/-- R111: SEEK_ERROR on a unit whose write gate is off and for which no discard waits. -/
theorem State.seekError_eq (hp : s.part ≠ .failed) (ho : (s.unit u).op = some o) (hd : (s.unit u).discard = none) (hg : (s.unit u).writeGate = false) :
    s.seekError u = (s.setUnit u (s.unit u).lost).report u o .seekError .data := by
  let t := s.setUnit u { s.unit u with believed := none, lastHeader := none }
  have htu : t.unit u = { s.unit u with believed := none, lastHeader := none } := by simp [t]
  have hlost : (t.unit u).opEnded .seekError = (s.unit u).lost := by
    rw [htu, UnitRec.opEnded, UnitRec.lost, ← hg]
    simp
  show t.endOp u .seekError = _
  rw [State.endOp_eq (s := t) (o := o) hp (by rw [htu]; exact ho) (by rw [htu]; exact hd), hlost]
  have hout : t.gateOutput u = s.outbox := by
    rw [gateOutput, htu]
    exact if_neg (by simp [hg])
  rw [hout]
  simp only [t, setUnit_eq, SMap.set_set]

/-- R110: with no operation in flight only the position is lost. -/
theorem State.seekError_none (ho : (s.unit u).op = none) :
    s.seekError u = s.setUnit u { s.unit u with believed := none, lastHeader := none } := by
  let t := s.setUnit u { s.unit u with believed := none, lastHeader := none }
  have htu : (t.unit u).op = none := by simp [t, ho]
  show t.endOp u .seekError = t
  rw [endOp, htu]

/-- A unit record is workless whatever the position and the operation. -/
theorem UnitRec.workless_of_eq (h : x.workless) (h1 : y.flushList = x.flushList) (h2 : y.fillQueue = x.fillQueue) (h3 : y.surveyQueue = x.surveyQueue) :
    y.workless := ⟨h1.trans h.1, h2.trans h.2.1, h3.trans h.2.2⟩

/-- R102, R135: a SURVEY whose operation has failed completes with its status; nothing else is selected. -/
theorem State.finish_surveyFailed (h : s.Completes e r) (hs : o.subject = .survey e) (hst : status ≠ .success) (hy : y.workless) :
    ((s.setUnit u y).report u o status mark).finish = (s.completed e r { status }).setUnit u y := by
  let t := s.setUnit u y
  have hreport : t.report u o status mark = t.setAgenda [.complete e { status }, .select u] := by
    rw [report, hs]
    refine (if_neg hst).trans ?_
    show t.setAgenda ([Work.complete e { status }, .select u] ++ s.agenda) = _
    rw [show s.agenda = [] from h.settled]
    rfl
  rw [hreport]
  refine (RunsTo.complete (s := t) (r := r) (n := 1) (h.after (t := t) rfl rfl rfl) (RunsTo.select ?_ (.done ?_))).finish rfl
  · have hunit : (t.completed e r { status }).unit u = y := (unit_of_units (t := t.completed e r { status }) rfl u).trans (if_pos rfl)
    rw [hunit]; exact hy
  · exact h.settled

/-- R102, R135: a fill that fails with one READ waiting; nothing else is selected. -/
theorem State.finish_fillFailed (h : s.Completes e r) (hk : r.kind = some .read) (hs : o.subject = .fill k) (hst : status ≠ .success)
    (hy : y.workless) (hl : (s.line k).state = .filling) (hlist : (s.line k).waitList = [e]) (hw : s.slotWait = [])
    (hset : s.waiters (k / 4) = []) :
    ((s.setUnit u y).report u o status mark).finish = { s.completed e r { status } with
      units := SMap.set {} s.units u y, lines := SMap.set {} s.lines k {}, refs := s.refsFreed k } := by
  let t := s.setUnit u y
  have hreport : t.report u o status mark = t.setAgenda [.fillOutcome k status mark, .select u] := by
    rw [report, hs]
    show t.setAgenda ([Work.fillOutcome k status mark, .select u] ++ s.agenda) = _
    rw [show s.agenda = [] from h.settled]
    rfl
  have ht : t.Completes e r := h.after rfl rfl rfl
  let v : State := { t.completed e r { status } with lines := SMap.set {} t.lines k {}, refs := t.refsFreed k }
  have hvu : v.unit u = y := (unit_of_units (t := v) rfl u).trans (if_pos rfl)
  rw [hreport]
  refine (RunsTo.fillFailed_one (s := t) (n := 1) hl hlist ht hk hw hset hst (.select ?_ (.done h.settled))).finish rfl
  show (v.unit u).workless
  rw [hvu]
  exact hy

/-! ### The ways an operation goes on, as one write of the unit record -/

theorem State.setUnit_updOp_some (s : State) (u : Nat) (ho : y.op = some o) (f : Operation → Operation) :
    (s.setUnit u y).updOp u f = s.setUnit u { y with op := some (f o) } := by
  rw [setUnit_updOp, ho]; rfl

theorem State.setUnit_enter_some (s : State) (u : Nat) (ho : y.op = some o) (q : SeqState) :
    (s.setUnit u y).enter u q = s.setUnit u { y with seq := q, op := some { o with deadline := s.now + 1000 } } := by
  rw [setUnit_enter, ho]; rfl

theorem State.setUnit_setDeadline_some (s : State) (u : Nat) (ho : y.op = some o) :
    (s.setUnit u y).setDeadline u = s.setUnit u { y with op := some { o with deadline := s.now + 1000 } } := by
  rw [setUnit_setDeadline, ho]; rfl

/-- R110. -/
theorem State.setUnit_startVerify (s : State) (u : Nat) (ho : y.op = some o) : (s.setUnit u y).startVerify u
    = s.setUnit u { y with seq := .verifying, op := some { o with indexCount := 0, deadline := s.now + 1000 } } := by
  rw [startVerify, setUnit_updOp_some s u ho, setUnit_enter_some s u rfl]

/-- R109. -/
theorem State.setUnit_startMove (s : State) (u : Nat) (ho : y.op = some o) (track : Nat) : (s.setUnit u y).startMove u track
    = (s.setUnit u { y with lastHeader := none, seq := .positioning, op := some { o with deadline := s.now + 1000 } }).emit (.move u track) := by
  rw [startMove, setUnit_updUnit, setUnit_enter_some s u (by exact ho)]

/-- R108. -/
theorem State.setUnit_startHoming (s : State) (u : Nat) (ho : y.op = some o) : (s.setUnit u y).startHoming u
    = (s.setUnit u { y with lastHeader := none, seq := .homing, op := some { o with deadline := s.now + 1000 } }).emit (.home u) := by
  rw [startHoming, setUnit_updUnit, setUnit_enter_some s u (by exact ho)]

/-- R119: the search of a fill or of a flush. -/
theorem State.setUnit_startSearch (s : State) (u : Nat) (ho : y.op = some o) {p : Operation} (hs : ∀ e, p.subject ≠ .survey e) :
    (s.setUnit u y).startSearch u p
      = s.setUnit u { y with seq := .searching, op := some { o with indexCount := 0, checkMiss := false, deadline := s.now + 1000 } } := by
  have hsearch : (s.setUnit u y).startSearch u p
      = ((s.setUnit u y).updOp u (fun o => { o with indexCount := 0, checkMiss := false })).enter u .searching := by
    unfold startSearch
    split
    · rfl
    · rfl
    · next e he => exact absurd he (hs e)
  rw [hsearch, setUnit_updOp_some s u ho, setUnit_enter_some s u rfl]

/-- R131: a survey's waiting phase. -/
theorem State.setUnit_startSurveying (s : State) (u : Nat) (ho : y.op = some o) {p : Operation} (hs : p.subject = .survey e) :
    (s.setUnit u y).startSearch u p
      = s.setUnit u { y with seq := .surveying, op := some { o with recording := false, deadline := s.now + 1000 } } := by
  unfold startSearch
  rw [hs]
  dsimp only
  rw [setUnit_updOp_some s u ho, setUnit_enter_some s u rfl]

/-! ### Index passes (R110, R121, R122, R132) -/

/-- The unit record with one index pass more. -/
def UnitRec.indexed (x : UnitRec) (o : Operation) : UnitRec := { x with op := some { o with indexCount := o.indexCount + 1 } }

theorem State.updOp_indexed (ho : (s.unit u).op = some o) :
    s.updOp u (fun x => { x with indexCount := x.indexCount + 1 }) = s.setUnit u ((s.unit u).indexed o) := updOp_def ho _

theorem State.onIndex_counted (ho : (s.unit u).op = some o) (hq : (s.unit u).seq = .verifying ∨ (s.unit u).seq = .searching)
    (hc : o.indexCount < 2) : s.onIndex u = (s.setUnit u ((s.unit u).indexed o)).setDeadline u := by
  have hbelow : decide (Config.indexLimit ≤ o.indexCount + 1) = false := decide_eq_false (by simp [Config.indexLimit]; omega)
  unfold onIndex
  rw [ho]
  dsimp only
  rw [updOp_indexed ho, hbelow]
  rcases hq with hq | hq <;> rw [hq] <;> rfl

/-- R121: the third pass of a search ends it. -/
theorem State.onIndex_searching (ho : (s.unit u).op = some o) (hq : (s.unit u).seq = .searching) (hc : o.indexCount = 2) :
    s.onIndex u = (s.setUnit u ((s.unit u).indexed o)).endOp u o.searchStatus := by
  have hlimit : decide (Config.indexLimit ≤ o.indexCount + 1) = true := decide_eq_true (by simp [Config.indexLimit, hc])
  unfold onIndex
  rw [ho]
  dsimp only
  rw [updOp_indexed ho, hlimit, hq]
  rfl

theorem State.onIndex_surveying (ho : (s.unit u).op = some o) (hq : (s.unit u).seq = .surveying) :
    s.onIndex u = if o.recording then s.endOp u .success else (s.updOp u (fun x => { x with recording := true })).setDeadline u := by
  unfold onIndex
  rw [ho]
  dsimp only
  rw [hq]

/-- R121: the status of a search for a fill that has reached its limit. -/
theorem Operation.searchStatus_fill (hs : o.subject = .fill k) :
    o.searchStatus = if o.badData then .dataCheck else if o.checkMiss then .headerCheck else .sectorNotFound := by
  rw [searchStatus, hs]

theorem Operation.searchStatus_ne_success (o : Operation) : o.searchStatus ≠ .success := by
  unfold searchStatus
  split <;> split <;> first | decide | (split <;> decide)

/-! ### Headers (R110, R120) -/

section Headers

variable {p : Operation} (h : Header)

/-- R120: a header in SEARCHING that is not the target. -/
theorem State.examine_other (ht : h.isTarget p = false) (ho : (s.unit u).op = some o) : s.examine u p h
    = s.setUnit u { s.unit u with lastHeader := (s.unit u).headerSeen h, op := some { o with deadline := s.now + 1000 } } := by
  unfold examine
  dsimp only
  rw [ht, if_neg (by decide), seeHeader]
  cases hg : h.good with
  | true =>
    rw [if_pos rfl, updUnit_def, setUnit_setDeadline]
    simp only [UnitRec.headerSeen, hg, if_true, ho]
    rfl
  | false =>
    rw [if_neg (by decide), setDeadline_def ho]
    simp only [UnitRec.headerSeen, hg]
    rfl

/-- R120: a match with a bad check. -/
theorem State.examine_bad (ht : h.isTarget p = true) (hg : h.good = false) (ho : (s.unit u).op = some o) : s.examine u p h
    = s.setUnit u { s.unit u with op := some { o with checkMiss := true, deadline := s.now + 1000 } } := by
  unfold examine
  dsimp only
  rw [ht, if_pos rfl, hg, if_neg (by decide), seeHeader, hg, if_neg (by decide), updOp_def ho, setUnit_setDeadline]
  rfl

theorem State.seeHeader_good (s : State) (u : Nat) (hg : h.good = true) :
    s.seeHeader u h = s.setUnit u { s.unit u with lastHeader := some h.sector.toNat } := if_pos hg

/-- R120: a fill finds its sector. -/
theorem State.examine_fill (ht : h.isTarget p = true) (hg : h.good = true) (ho : (s.unit u).op = some o) (hs : p.subject = .fill k) :
    s.examine u p h = s.setUnit u { s.unit u with
      lastHeader := some h.sector.toNat, seq := .transferring, op := some { o with field := none, deadline := s.now + 1000 } } := by
  unfold examine
  dsimp only
  rw [ht, if_pos rfl, hg, if_pos rfl, hs]
  dsimp only
  rw [seeHeader_good h s u hg, setUnit_updOp_some s u (by exact ho), setUnit_enter_some s u rfl]

theorem markByte_eq (m : Mark) : markByte m = if m = .data then 0xFB else 0xF8 := by cases m <;> rfl

/-- R120, R126: a flush finds its sector. -/
theorem State.examine_flush (ht : h.isTarget p = true) (hg : h.good = true) (ho : (s.unit u).op = some o) (hs : p.subject = .flush k) :
    s.examine u p h = (s.setUnit u { s.unit u with
      lastHeader := some h.sector.toNat, writeGate := true, seq := .transferring, op := some { o with deadline := s.now + 1000 } }).emit
        (.writeGateOn u (dataFieldStream (s.line k).mark (s.slotData ((s.line k).flushSource.getD 0)))) := by
  unfold examine
  dsimp only
  rw [ht, if_pos rfl, hg, if_pos rfl, hs]
  dsimp only
  rw [seeHeader_good h s u hg, writeField, setUnit_updUnit, setUnit_enter_some s u (by exact ho)]
  rfl

end Headers

/-- R107, R110: the verification of a fill's position ends with its search. -/
theorem State.verifyHeader_there (h : Header) (hg : h.good = true) (hthere : h.track.toNat = o.track ∧ h.surface.toNat = o.surface) :
    s.verifyHeader u o h = (match o.subject with
      | .fill _ | .flush _ => ((s.updUnit u (fun x => { x with verifyPending := false, lastHeader := some h.sector.toNat })).startSearch u o).examine u o h
      | .survey _ => (s.updUnit u (fun x => { x with verifyPending := false, lastHeader := some h.sector.toNat })).startSearch u o) := by
  unfold verifyHeader
  rw [if_neg (by simp [hg]), if_pos hthere] <;> rfl

end Sys2Proof.Machine

namespace Sys2Proof.Proofs

open Sys2Proof Sys2Proof.Machine

/-- Settles O44: the position lost, and the operation in flight ended with SEEK_ERROR. -/
theorem seekErrorEndsTheOperation : Obligations.SeekErrorEndsTheOperation := by
  intro s u e k r o x lost hset hp hd hw hwait hgate
  have hpart : s.part ≠ .failed := by rw [hp]; decide
  have hfault : exec (.positionFault u) s = .next (s.seekError u).finish := if_pos (State.acts_of_ne hpart hd)
  have hexpiry (ho : x.op = some o) : exec (.unitResponseLimitExpiry u) s = if o.deadline ≤ s.now then .next (s.seekError u).finish else .next s := by
    have hstep : exec (.unitResponseLimitExpiry u) s = .next (s.expireResponse u).finish := if_pos (State.acts_of_ne hpart hd)
    rw [hstep, State.expireResponse, ho]
    dsimp only
    rw [State.due]
    split
    · next h => rw [if_pos (of_decide_eq_true h)]
    · next h => rw [if_neg (by simpa using h), hset.finish]
  refine ⟨fun ho => ?_, fun ho hs hr => ?_, fun ho hs hl hlist hset' hslot => ?_⟩
  · rw [hfault, State.seekError_none ho]
    exact congrArg _ (State.finish_nil _ hset)
  · have hends : (s.seekError u).finish = { s.completed e r { status := .seekError } with units := SMap.set {} s.units u lost } := by
      rw [State.seekError_eq hpart ho hwait.2 hgate]
      exact State.finish_surveyFailed (y := lost) hr hs (by decide) (hw.imp_right fun h => h)
    refine ⟨by rw [hfault, hends], fun hdue => ?_, fun hearly => ?_⟩
    · rw [hexpiry ho, if_pos hdue, hends]
    · rw [hexpiry ho, if_neg (by omega)]
  · let t := s.setUnit u lost
    let v : State := { t with lines := SMap.set {} t.lines k {}, refs := t.refsFreed k }
    have hvu : v.unit u = lost := (State.unit_of_units (t := v) rfl u).trans (if_pos rfl)
    have hreport : t.report u o .seekError .data = t.setAgenda [.fillOutcome k .seekError .data, .select u] := by
      rw [State.report, hs]
      show t.setAgenda ([Work.fillOutcome k .seekError .data, .select u] ++ s.agenda) = _
      rw [show s.agenda = [] from hset]
      rfl
    have hends : (s.seekError u).finish = v := by
      rw [State.seekError_eq hpart ho hwait.2 hgate]
      show (t.report u o .seekError .data).finish = v
      rw [hreport]
      refine (State.RunsTo.fillFailed_none (s := t) (n := 1) hl hlist hslot hset' (by decide) (.select ?_ (.done hset))).finish rfl
      show (v.unit u).workless
      rw [hvu]
      exact hw
    refine ⟨v, by rw [hfault, hends], hvu, ?_, fun j hj => ?_, rfl, rfl, rfl, rfl⟩
    · exact (State.line_of_lines (t := v) rfl k).trans (if_pos rfl)
    · exact (State.line_of_lines (t := v) (m := s.lines) (x := {}) rfl j).trans (if_neg hj)

/-- Settles O46: the header examined, by match and check. -/
theorem headerSearchFindsItsTarget : Obligations.HeaderSearchFindsItsTarget := by
  intro s u k o track surface sector size check x good hit seen hset hp hd ho hq hf
  let h : Header := ⟨track, surface, sector, size, check⟩
  have hgood : h.good = true ↔ good := h.good_iff
  have hseen : x.headerSeen h = seen := by simp only [UnitRec.headerSeen, hgood]; rfl
  have hhit : h.isTarget o = true ↔ hit := h.isTarget_iff o
  have hstep : exec (.header u track surface sector size check []) s = .next (s.examine u o h).finish := by
    have hon : s.onHeader u h = s.examine u o h := by
      unfold State.onHeader
      rw [hq, ho]
    rw [exec_header hp hd h [], State.takeData_outside [] ho hf, hon]
  have hends {t : State} (ht : s.examine u o h = t) (ha : t.agenda = []) : exec (.header u track surface sector size check []) s = .next t := by
    rw [hstep, ht, State.finish_nil _ ha]
  refine ⟨fun ht hg hs => ?_, fun ht hg hs slot hslot => ?_, fun ht hg => ?_, fun ht => ?_⟩
  · refine hends ((State.examine_fill h (hhit.2 ht) (hgood.2 hg) ho hs).trans ?_) hset
    rw [show seen = some sector.toNat from if_pos hg]
    simp only [hf]
    rfl
  · intro data mark c
    refine hends ((State.examine_flush h (hhit.2 ht) (hgood.2 hg) ho hs).trans ?_) hset
    have hstream : dataFieldStream (s.line k).mark data = mark :: data ++ [c.extractLsb' 8 8, c.extractLsb' 0 8] := by
      rw [dataFieldStream, markByte_eq]
      rfl
    have hdata : s.slotData ((s.line k).flushSource.getD 0) = data := by rw [hslot]; rfl
    rw [show seen = some sector.toNat from if_pos hg, hdata, hstream]
    rfl
  · exact hends (State.examine_bad h (hhit.2 ht) (Bool.eq_false_iff.2 (mt hgood.1 hg)) ho) hset
  · refine hends ((State.examine_other h (Bool.eq_false_iff.2 (mt hhit.1 ht)) ho).trans ?_) hset
    rw [show (s.unit u).headerSeen h = seen from hseen]
    rfl

/-- Settles O45: by the state of the sequencer, and by the header that a verification finds. -/
theorem positioningFollowsTheUnit : Obligations.PositioningFollowsTheUnit := by
  refine ⟨?_, ?_, ?_⟩
  · intro s u hset
    refine ⟨fun hq => ?_, fun hq => ?_⟩
    · have hon : s.onArrived u = s := by
        unfold State.onArrived
        split
        · next hpos _ => exact absurd hpos hq
        · rfl
      show (if s.acts u then Host.Outcome.next (s.onArrived u).finish else .next s) = _
      rw [hon, hset.finish, ite_self]
    · have hon : s.onHomeFound u = s := by
        unfold State.onHomeFound
        split
        · next hhome _ => exact absurd hhome hq
        · rfl
      show (if s.acts u then Host.Outcome.next (s.onHomeFound u).finish else .next s) = _
      rw [hon, hset.finish, ite_self]
  · intro s u o x hset hp hd ho
    have harrived : exec (.arrived u) s = .next (s.onArrived u).finish := if_pos (State.acts_of_ne hp hd)
    have hhome : exec (.homeFound u) s = .next (s.onHomeFound u).finish := if_pos (State.acts_of_ne hp hd)
    refine ⟨fun hq => ?_, fun hq htrack => ?_, fun hq htrack => ?_⟩
    · have hon : s.onArrived u = s.setUnit u
          { x with believed := some o.track, seq := .verifying, op := some { o with indexCount := 0, deadline := s.now + 1000 } } := by
        unfold State.onArrived
        rw [hq, ho]
        dsimp only
        rw [State.updUnit_def, State.setUnit_startVerify s u (by exact ho)]
      rw [harrived, hon]
      exact congrArg _ (State.finish_nil _ hset)
    · have hon : s.onHomeFound u = s.setUnit u
          { x with believed := some 0, seq := .verifying, op := some { o with indexCount := 0, deadline := s.now + 1000 } } := by
        unfold State.onHomeFound
        rw [hq, ho]
        dsimp only
        rw [if_pos htrack, State.updUnit_def, State.setUnit_startVerify s u (by exact ho)]
      rw [hhome, hon]
      exact congrArg _ (State.finish_nil _ hset)
    · have hon : s.onHomeFound u = (s.setUnit u
          { x with believed := some 0, lastHeader := none, seq := .positioning, op := some { o with deadline := s.now + 1000 } }).emit
            (.move u o.track) := by
        unfold State.onHomeFound
        rw [hq, ho]
        dsimp only
        rw [if_neg htrack, State.updUnit_def, State.setUnit_startMove s u (by exact ho)]
      rw [hhome, hon]
      exact congrArg _ (State.finish_nil _ hset)
  · intro s u e k r o track surface sector size check x i good there o' verified hset hp hd ho hq hf
    have hpart : s.part ≠ .failed := by rw [hp]; decide
    let h : Header := ⟨track, surface, sector, size, check⟩
    have hgood : h.good = true ↔ good := h.good_iff
    have hstep : exec i s = .next (s.verifyHeader u o h).finish := by
      have hon : s.onHeader u h = s.verifyHeader u o h := by
        unfold State.onHeader
        rw [hq, ho]
      rw [exec_header hpart hd h [], State.takeData_outside [] ho hf, hon]
    have hends {t : State} (ht : s.verifyHeader u o h = t) (ha : t.agenda = []) : exec i s = .next t := by
      rw [hstep, ht, State.finish_nil _ ha]
    refine ⟨fun hg => ?_, fun hg ht hs => ?_, fun hg ht hs => ?_, fun hg ht hr => ?_, fun hg ht hr hs hreq hw hwait hgate => ?_⟩
    · exact hends (if_pos (mt hgood.1 hg)) hset
    · have hverify := State.verifyHeader_there (s := s) (u := u) h (hgood.2 hg) ht
      rw [hs] at hverify
      let y : UnitRec := { verified with seq := .searching, op := some { o' with indexCount := 0, checkMiss := false } }
      have hsearch : (s.updUnit u (fun x => { x with verifyPending := false, lastHeader := some h.sector.toNat })).startSearch u o = s.setUnit u y :=
        State.setUnit_startSearch s u (y := verified) ho (by simp [hs])
      have hy : (s.setUnit u y).unit u = y := by simp
      have hyo : ((s.setUnit u y).unit u).op = some { o' with indexCount := 0, checkMiss := false } := by rw [hy]
      by_cases hhit : o.sector = some sector.toNat ∧ size = 3
      · rw [if_pos hhit]
        refine hends (hverify.trans ?_) hset
        dsimp only
        rw [hsearch, State.examine_fill h ((h.isTarget_iff o).2 ⟨ht.1, ht.2, hhit⟩) (hgood.2 hg) hyo hs, hy, State.setUnit_setUnit]
        simp only [y, o', hf]
        rfl
      · rw [if_neg hhit]
        have hmiss : h.isTarget o = false := Bool.eq_false_iff.2 fun hh => hhit ((h.isTarget_iff o).1 hh).2.2
        refine hends (hverify.trans ?_) hset
        dsimp only
        rw [hsearch, State.examine_other h hmiss hyo, hy, State.setUnit_setUnit, UnitRec.headerSeen, if_pos (hgood.2 hg)]
        rfl
    · have hverify := State.verifyHeader_there (s := s) (u := u) h (hgood.2 hg) ht
      rw [hs] at hverify
      exact hends (hverify.trans (State.setUnit_startSurveying s u (y := verified) ho hs)) hset
    · have hverify : s.verifyHeader u o h = (s.updOp u (fun o => { o with recalibrated := true })).startHoming u := by
        unfold State.verifyHeader
        rw [if_neg (not_not.2 (hgood.2 hg)), if_neg ht, hr]
        rfl
      refine hends (hverify.trans ?_) hset
      rw [State.updOp_def ho, State.setUnit_startHoming s u rfl]
      rfl
    · have hverify : s.verifyHeader u o h = s.seekError u := by
        unfold State.verifyHeader
        rw [if_neg (not_not.2 (hgood.2 hg)), if_neg ht, if_pos hr]
      rw [hstep, hverify, State.seekError_eq hpart ho hwait.2 hgate]
      exact congrArg _ (State.finish_surveyFailed (y := x.lost) hreq hs (by decide) (hw.imp_right fun h => h))

/-- Settles O49: the count below the limit, the third pass of a search, and the two passes of a survey. -/
theorem indexPassesAreCounted : Obligations.IndexPassesAreCounted := by
  intro s u e k o r x hset hp hd ho hf
  have hpart : s.part ≠ .failed := by rw [hp]; decide
  have hstep : exec (.index u []) s = .next (s.onIndex u).finish := by rw [exec_index hpart hd, State.takeData_outside [] ho hf]
  have hends {t : State} (ht : s.onIndex u = t) (ha : t.agenda = []) : exec (.index u []) s = .next t := by
    rw [hstep, ht, State.finish_nil _ ha]
  refine ⟨fun hq hcount => hends ?_ hset, fun hq hcount hs hw hwait hgate hl hslot hset' hlist hr hk => ?_, fun hq hs hr => hends ?_ hset,
    fun hq hs hr hreq hw hwait hgate => ?_⟩
  · rw [State.onIndex_counted ho hq hcount, State.setUnit_setDeadline_some s u rfl]
    rfl
  · let t := s.setUnit u (x.indexed o)
    have htu : t.unit u = x.indexed o := by simp [t]
    let y := (x.indexed o).opEnded o.searchStatus
    have hends : (s.onIndex u).finish = { s.completed e r { status := o.searchStatus } with
        units := SMap.set {} s.units u y, lines := SMap.set {} s.lines k {}, refs := s.refsFreed k } := by
      rw [State.onIndex_searching ho hq hcount]
      have hout : t.gateOutput u = s.outbox := by rw [State.gateOutput, htu]; exact if_neg (Bool.eq_false_iff.1 hgate)
      have hend : t.endOp u o.searchStatus .data = (s.setUnit u y).report u { o with indexCount := o.indexCount + 1 } o.searchStatus .data := by
        rw [State.endOp_eq (s := t) (u := u) (o := { o with indexCount := o.indexCount + 1 }) hpart (by rw [htu]; rfl) (by rw [htu]; exact hwait.2),
          htu, hout]
        simp only [t, State.setUnit_eq, SMap.set_set]
        rfl
      rw [hend]
      exact State.finish_fillFailed (y := y) hr hk hs o.searchStatus_ne_success hw hl hlist hslot hset'
    let v : State := { s.completed e r { status := o.searchStatus } with
        units := SMap.set {} s.units u y, lines := SMap.set {} s.lines k {}, refs := s.refsFreed k }
    have hvu : v.unit u = y := (State.unit_of_units (t := v) rfl u).trans (if_pos rfl)
    refine ⟨v, hstep.trans (congrArg _ hends), (State.line_of_lines (t := v) rfl k).trans (if_pos rfl), by rw [hvu]; rfl, ?_,
      r.ended { status := o.searchStatus }, (State.request_of_table (t := v) rfl e).trans (if_pos rfl), rfl, ?_⟩
    · rw [hvu]
      show (x.verifyPending || o.searchStatus != .success) = true
      rw [bne_iff_ne.2 o.searchStatus_ne_success, Bool.or_true]
    · rw [← Operation.searchStatus_fill hs]
      rfl
  · rw [State.onIndex_surveying ho hq, if_neg (by rw [hr]; decide), State.updOp_def ho, State.setUnit_setDeadline_some s u rfl]
    rfl
  · let y : UnitRec := { x with op := none, seq := .idle }
    have hout : s.gateOutput u = s.outbox := if_neg (Bool.eq_false_iff.1 hgate)
    have hended : (s.unit u).opEnded .success = y := by
      rw [UnitRec.opEnded, ← hgate]
      simp only [bne_self_eq_false, Bool.or_false]
      rfl
    let t : State := { s with
      units := SMap.set {} s.units u y, table := SMap.set none s.table e (some { r with survey := some ⟨o.entries, o.overflow⟩ }) }
    have hreport : (s.setUnit u y).report u o .success .data = t.setAgenda [.select u] := by
      rw [State.report, hs]
      refine (if_pos rfl).trans ?_
      rw [State.updRequest_eq (s := s.setUnit u y) hreq]
      show t.setAgenda ([Work.select u] ++ s.agenda) = _
      rw [show s.agenda = [] from hset]
      rfl
    have htu : t.unit u = y := (State.unit_of_units (t := t) rfl u).trans (if_pos rfl)
    rw [hstep, State.onIndex_surveying ho hq, if_pos hr, State.endOp_eq hpart ho hwait.2, hout, hended]
    refine congrArg _ ?_
    show ((s.setUnit u y).report u o .success .data).finish = t
    rw [hreport]
    exact (State.RunsTo.select (s := t) (by rw [htu]; exact hw) (.done hset)).finish rfl

end Sys2Proof.Proofs
end

section
/-! PROOF. A data field read badly or cut short (R122 to R124). -/

namespace Sys2Proof.Machine

variable {s t : State} {u e k n : Nat} {x y : UnitRec} {o : Operation} {r : Request} {status : Status} {mark : Mark} {f : DataField}

/-! ### The search taken up again (R121, R124) -/

/-- R123: no data bytes leave every record as it was. -/
theorem State.takeData_empty (ho : (s.unit u).op = some o) :
    ∃ units, s.takeData u [] = { s with units } ∧ ∀ v, SMap.get {} units v = s.unit v := by
  unfold takeData
  rw [ho]
  dsimp only
  split
  · next k f hs hf =>
    have hsame : ({ o with field := some { f with received := f.received + ([] : List Byte).length, check := checkBytes f.check [] } } : Operation)
        = o := by
      obtain ⟨⟩ := o
      subst hf
      rfl
    have hstore : s.setStore (Memory.writeBytes s.store ((s.line k).currentSlot.getD 0 * Config.slotBytes + f.received) []) = s := rfl
    rw [List.take_nil, hstore, updOp_def ho, hsame, ← ho]
    refine ⟨SMap.set {} s.units u (s.unit u), rfl, fun v => ?_⟩
    rw [SMap.get_set]
    split
    · next hv => rw [hv]
    · rfl
  all_goals exact ⟨s.units, rfl, fun _ => rfl⟩

/-- R124: the operation after a data field read badly. -/
def Operation.retried (o : Operation) : Operation := { o with attempts := o.attempts + 1, badData := true, indexCount := 0, field := none }

/-- The unit record that searches again. -/
def UnitRec.searches (x : UnitRec) (o : Operation) (now : Nat) : UnitRec :=
  { x with seq := .searching, op := some { o with field := none, deadline := now + 1000 } }

/-- R121: below the index limit the search goes on. -/
theorem State.resumeSearch_none (hc : o.indexCount < 3) (ho : (s.unit u).op = some o) :
    s.resumeSearch u none = s.setUnit u ((s.unit u).searches o s.now) := by
  unfold resumeSearch
  rw [ho]
  dsimp only
  rw [if_neg (by simp [Config.indexLimit]; omega), updOp_def ho, setUnit_enter_some s u rfl]
  rfl

/-- R121: below the limit the search goes on with the header, which is not the target. -/
theorem State.resumeSearch_header (hc : o.indexCount < 3) (ho : (s.unit u).op = some o) (h : Header) (ht : h.isTarget o = false) :
    s.resumeSearch u (some h) = s.setUnit u { (s.unit u).searches o s.now with lastHeader := (s.unit u).headerSeen h } := by
  let z := (s.unit u).searches o s.now
  have hz : (s.setUnit u z).unit u = z := by simp
  have hexamine : s.resumeSearch u (some h) = (s.setUnit u z).examine u o h := by
    unfold resumeSearch
    rw [ho]
    dsimp only
    rw [if_neg (by simp [Config.indexLimit]; omega), updOp_def ho, setUnit_enter_some s u rfl]
    rfl
  rw [hexamine, examine_other (p := o) (o := { o with field := none, deadline := s.now + 1000 }) h ht (by rw [hz]; rfl), hz, setUnit_setUnit]
  rfl

/-- R121: at the index limit it ends at once. -/
theorem State.resumeSearch_limit (hc : 3 ≤ o.indexCount) (ho : (s.unit u).op = some o) (h : Option Header) :
    s.resumeSearch u h = s.endOp u o.searchStatus := by
  unfold resumeSearch
  rw [ho]
  exact if_pos hc

/-- R124: the search begins again. -/
theorem State.badRead_retries (ho : (s.unit u).op = some o) (hn : (s.unit u).retries = some n) (hle : o.attempts + 1 ≤ n) (h : Option Header) :
    s.badRead u h = (s.setUnit u { s.unit u with op := some o.retried }).resumeSearch u h := by
  unfold badRead
  rw [ho]
  dsimp only
  have hretries : (s.unit u).retries.getD 0 = n := by rw [hn]; rfl
  rw [hretries, if_neg (by omega), updOp_def ho]
  rfl

/-- R124: the retries are used up. -/
theorem State.badRead_ends (ho : (s.unit u).op = some o) (hn : (s.unit u).retries = some n) (hlt : n < o.attempts + 1) (h : Option Header) :
    s.badRead u h = (s.setUnit u { s.unit u with op := some o.retried }).endOp u .dataCheck := by
  unfold badRead
  rw [ho]
  dsimp only
  have hretries : (s.unit u).retries.getD 0 = n := by rw [hn]; rfl
  rw [hretries, if_pos hlt, updOp_def ho]
  rfl

/-- R121, R124: the search taken up again after a bad read, without a header. -/
theorem State.badRead_none (ho : (s.unit u).op = some o) (hn : (s.unit u).retries = some n) (hle : o.attempts + 1 ≤ n) :
    s.badRead u none = s.setUnit u ((s.unit u).searches o.retried s.now) := by
  let y : UnitRec := { s.unit u with op := some o.retried }
  have hy : (s.setUnit u y).unit u = y := by simp
  rw [badRead_retries ho hn hle]
  show (s.setUnit u y).resumeSearch u none = _
  rw [resumeSearch_none (o := o.retried) (by show 0 < 3; decide) (by rw [hy]), hy, setUnit_setUnit]
  rfl

/-- R121, R124: the search taken up again after a bad read, with a header that is not the target. -/
theorem State.badRead_header (ho : (s.unit u).op = some o) (hn : (s.unit u).retries = some n) (hle : o.attempts + 1 ≤ n) (h : Header)
    (ht : h.isTarget o = false) :
    s.badRead u (some h) = s.setUnit u { (s.unit u).searches o.retried s.now with lastHeader := (s.unit u).headerSeen h } := by
  let y : UnitRec := { s.unit u with op := some o.retried }
  have hy : (s.setUnit u y).unit u = y := by simp
  rw [badRead_retries ho hn hle]
  show (s.setUnit u y).resumeSearch u (some h) = _
  rw [resumeSearch_header (o := o.retried) (by show 0 < 3; decide) (by rw [hy]) h ht, hy, setUnit_setUnit]
  rfl

/-! ### Events in TRANSFERRING (R122, R123) -/

section Transferring

variable (ho : (s.unit u).op = some o) (hq : (s.unit u).seq = .transferring) (hs : o.subject = .fill k)
include ho hq hs

theorem State.onDataEnd_bad (hf : o.field = some f) {check : BitVec 16} (hbad : f.received ≠ 1024 ∨ f.check ≠ check) :
    s.onDataEnd u check = s.badRead u none := by
  unfold onDataEnd
  rw [hq, ho]
  dsimp only
  rw [hs, hf]
  exact if_neg fun ⟨hlength, hcheck⟩ => hbad.elim (· hlength) (· hcheck)

theorem State.onDataMark_again (hf : o.field ≠ none) : s.onDataMark u mark = s.badRead u none := by
  unfold onDataMark
  rw [hq, ho]
  dsimp only
  rw [hs]
  exact if_pos (Option.isSome_iff_ne_none.2 hf)

theorem State.onHeader_cutting (hf : o.field ≠ none) (h : Header) : s.onHeader u h = s.badRead u (some h) := by
  unfold onHeader
  rw [hq, ho]
  dsimp only
  rw [hs]
  exact if_pos (Option.isSome_iff_ne_none.2 hf)

theorem State.onHeader_missing (hf : o.field = none) (h : Header) : s.onHeader u h = s.resumeSearch u (some h) := by
  unfold onHeader
  rw [hq, ho]
  dsimp only
  rw [hs]
  exact if_neg (by simp [hf])

theorem State.onIndex_transferring : s.onIndex u = if 3 ≤ o.indexCount + 1
    then (if o.field.isSome then (s.setUnit u ((s.unit u).indexed o)).badRead u none else (s.setUnit u ((s.unit u).indexed o)).resumeSearch u none)
    else (s.setUnit u ((s.unit u).indexed o)).setDeadline u := by
  unfold onIndex
  rw [ho]
  dsimp only
  rw [updOp_indexed ho, hq]
  dsimp only
  rw [hs]
  simp only [decide_eq_true_eq]
  rfl

end Transferring

/-! ### The fill that ends -/

/-- R58, R124: the operation that the unit holds ends with a failure, for a fill with one READ waiting and a unit without other work. -/
theorem State.fillEnds (hp : s.part ≠ .failed) (hy : y.workless) (ho : y.op = some o) (hs : o.subject = .fill k) (hd : y.discard = none)
    (hg : y.writeGate = false) (hst : status ≠ .success) (h : s.Completes e r) (hk : r.kind = some .read) (hl : (s.line k).state = .filling)
    (hlist : (s.line k).waitList = [e]) (hw : s.slotWait = []) (hset : s.waiters (k / 4) = []) :
    ((s.setUnit u y).endOp u status).finish = { s.completed e r { status } with
      units := SMap.set {} s.units u (y.opEnded status), lines := SMap.set {} s.lines k {}, refs := s.refsFreed k } := by
  let t := s.setUnit u y
  have htu : t.unit u = y := by simp [t]
  have hout : t.gateOutput u = s.outbox := by rw [gateOutput, htu]; exact if_neg (Bool.eq_false_iff.1 hg)
  have hend : t.endOp u status .data = (s.setUnit u (y.opEnded status)).report u o status .data := by
    rw [endOp_eq (s := t) (u := u) (o := o) hp (by rw [htu]; exact ho) (by rw [htu]; exact hd), htu, hout]
    simp only [t, setUnit_eq, SMap.set_set]
  show (t.endOp u status .data).finish = _
  rw [hend]
  exact finish_fillFailed (y := y.opEnded status) h hk hs hst hy hl hlist hw hset

theorem UnitRec.opEnded_verifyPending (hst : status ≠ .success) : (x.opEnded status).verifyPending = true := by
  show (x.verifyPending || status != .success) = true
  rw [bne_iff_ne.2 hst, Bool.or_true]

end Sys2Proof.Machine

namespace Sys2Proof.Proofs

open Sys2Proof Sys2Proof.Machine

/-- Settles O48: the bad read counted, and what each event in TRANSFERRING makes of the open data field or of its absence. -/
theorem badDataIsRetriedThenFails : Obligations.BadDataIsRetriedThenFails := by
  refine ⟨?_, ?_⟩
  · intro s u k n o f check x hset hp hd ho hq hs hf hbad hn
    obtain ⟨units, htake, hunits⟩ := State.takeData_empty (s := s) ho
    let s0 : State := { s with units }
    have hx : s0.unit u = x := hunits u
    have hpart : s.part ≠ .failed := by rw [hp]; decide
    have hstep : exec (.dataEnd u check []) s = .next (s0.badRead u none).finish := by
      have hon : s0.onDataEnd u check = s0.badRead u none :=
        State.onDataEnd_bad (by rw [hx]; exact ho) (by rw [hx]; exact hq) hs hf hbad
      have hexec : exec (.dataEnd u check []) s = .next ((s.takeData u []).onDataEnd u check).finish := if_pos (State.acts_of_ne hpart hd)
      rw [hexec, htake, hon]
    have ho0 : (s0.unit u).op = some o := by rw [hx]; exact ho
    have hn0 : (s0.unit u).retries = some n := by rw [hx]; exact hn
    refine ⟨fun hle => ?_, fun hlt hw hwait hgate hl hslot hset' e r hlist hr hk => ?_⟩
    · let t := s0.setUnit u (x.searches o.retried s.now)
      have hsearch : s0.badRead u none = t := by rw [State.badRead_none ho0 hn0 hle, hx]
      refine ⟨t, ?_, by simp [t]; rfl, rfl⟩
      rw [hstep, hsearch]
      exact congrArg _ (State.finish_nil _ hset)
    · let y : UnitRec := { x with op := some o.retried }
      let v : State := { s0.completed e r { status := .dataCheck } with
        units := SMap.set {} s0.units u (y.opEnded .dataCheck), lines := SMap.set {} s0.lines k {}, refs := s0.refsFreed k }
      have hends : (s0.badRead u none).finish = v := by
        rw [State.badRead_ends ho0 hn0 hlt, hx]
        exact State.fillEnds (s := s0) (y := y) (o := o.retried) hpart hw rfl hs hwait.2 hgate (by decide) (hr.after rfl rfl rfl) hk hl hlist hslot hset'
      have hvu : v.unit u = y.opEnded .dataCheck := (State.unit_of_units (t := v) rfl u).trans (if_pos rfl)
      refine ⟨v, hstep.trans (congrArg _ hends), (State.line_of_lines (t := v) rfl k).trans (if_pos rfl), by rw [hvu]; rfl, by rw [hvu]; rfl, ?_,
        ⟨r.ended { status := .dataCheck }, (State.request_of_table (t := v) rfl e).trans (if_pos rfl), rfl, rfl⟩, rfl⟩
      rw [hvu]
      exact UnitRec.opEnded_verifyPending (by decide)
  · intro s u k n o mark track surface sector size check x good header retried missed counted seen becomes hset hp hd ho hq hs hn hmiss
    obtain ⟨units, htake, hunits⟩ := State.takeData_empty (s := s) ho
    let s0 : State := { s with units }
    let h : Header := ⟨track, surface, sector, size, check⟩
    have hx : s0.unit u = x := hunits u
    have hpart : s.part ≠ .failed := by rw [hp]; decide
    have ho0 : (s0.unit u).op = some o := by rw [hx]; exact ho
    have hq0 : (s0.unit u).seq = .transferring := by rw [hx]; exact hq
    have hn0 : (s0.unit u).retries = some n := by rw [hx]; exact hn
    have htarget : h.isTarget o = false := Bool.eq_false_iff.2 fun hh => hmiss ((h.isTarget_iff o).1 hh)
    have hseen : x.headerSeen h = seen := by simp only [UnitRec.headerSeen, h.good_iff]; rfl
    have hmark : exec (.dataMark u mark []) s = .next (s0.onDataMark u mark).finish := by
      have hexec : exec (.dataMark u mark []) s = .next ((s.takeData u []).onDataMark u mark).finish := if_pos (State.acts_of_ne hpart hd)
      rw [hexec, htake]
    have hheader : exec header s = .next (s0.onHeader u h).finish := by rw [exec_header hpart hd h [], htake]
    have hindex : exec (.index u []) s = .next (s0.onIndex u).finish := by rw [exec_index hpart hd, htake]
    have hbecomes {i : Instr} {t : State} {y : UnitRec} (hi : exec i s = .next t.finish) (ht : t = s0.setUnit u y) : becomes i y := by
      refine ⟨s0.setUnit u y, ?_, by simp, fun v hv => ?_, rfl⟩
      · rw [hi, ht]
        exact congrArg _ (State.finish_nil _ hset)
      · rw [State.setUnit_unit, if_neg hv]
        exact hunits v
    have honIndex := State.onIndex_transferring ho0 hq0 hs
    let y : UnitRec := x.indexed o
    have hyu : (s0.setUnit u y).unit u = y := by simp
    refine ⟨fun hf hle => ?_, fun hf hle => ?_, fun hf hc hle => ?_, fun hc => ?_, fun hf hc => ?_,
      fun hf hc hw hwait hgate hl hslot hset' e r hlist hr hk => ?_⟩
    · refine hbecomes hmark ((State.onDataMark_again ho0 hq0 hs hf).trans ?_)
      rw [State.badRead_none ho0 hn0 hle, hx]
      rfl
    · refine hbecomes hheader ((State.onHeader_cutting ho0 hq0 hs hf h).trans ?_)
      rw [State.badRead_header ho0 hn0 hle h htarget, hx, hseen]
      rfl
    · refine hbecomes hindex (honIndex.trans ?_)
      rw [if_pos (by omega), if_pos (Option.isSome_iff_ne_none.2 hf), hx]
      show (s0.setUnit u y).badRead u none = _
      rw [State.badRead_none (o := { o with indexCount := o.indexCount + 1 }) (by rw [hyu]; rfl) (by rw [hyu]; exact hn) hle, hyu, State.setUnit_setUnit]
      rfl
    · refine hbecomes hindex (honIndex.trans ?_)
      rw [if_neg (by omega), hx]
      exact State.setUnit_setDeadline_some (y := y) (o := { o with indexCount := o.indexCount + 1 }) s0 u rfl
    · refine hbecomes hheader ((State.onHeader_missing ho0 hq0 hs hf h).trans ?_)
      have hfield : ({ o with field := none, deadline := s.now + 1000 } : Operation) = missed := by
        show _ = { o with deadline := s.now + 1000 }
        rw [← hf]
      rw [State.resumeSearch_header hc ho0 h htarget, hx, hseen]
      simp only [UnitRec.searches]
      exact congrArg (fun p : Operation => s0.setUnit u { x with seq := .searching, op := some p, lastHeader := seen }) hfield
    · let status := o.searchStatus
      let v : State := { s0.completed e r { status } with
        units := SMap.set {} s0.units u (y.opEnded status), lines := SMap.set {} s0.lines k {}, refs := s0.refsFreed k }
      have hne : status ≠ .success := o.searchStatus_ne_success
      have hends : (s0.onIndex u).finish = v := by
        rw [honIndex, if_pos (by omega), if_neg (by simp [hf]), hx, State.resumeSearch_limit (s := s0.setUnit u y)
          (o := { o with indexCount := o.indexCount + 1 }) (by show 3 ≤ o.indexCount + 1; omega) (by rw [hyu]; rfl)]
        exact State.fillEnds (s := s0) (y := y) (o := { o with indexCount := o.indexCount + 1 }) hpart hw rfl hs hwait.2 hgate hne
          (hr.after rfl rfl rfl) hk hl hlist hslot hset'
      have hvu : v.unit u = y.opEnded status := (State.unit_of_units (t := v) rfl u).trans (if_pos rfl)
      refine ⟨v, hindex.trans (congrArg _ hends), (State.line_of_lines (t := v) rfl k).trans (if_pos rfl), by rw [hvu]; rfl, by rw [hvu]; rfl, ?_,
        r.ended { status }, (State.request_of_table (t := v) rfl e).trans (if_pos rfl), rfl, ?_⟩
      · rw [hvu]
        exact UnitRec.opEnded_verifyPending hne
      · exact congrArg (fun status : Status => some ({ status } : Completion)) (Operation.searchStatus_fill hs)

end Sys2Proof.Proofs
end

section
/-! PROOF. The data field of a fill that succeeds, and the service of its line (R25, R55, R122, R123). -/

namespace Sys2Proof.Machine

variable {s t : State} {u e k n slot : Nat} {x y : UnitRec} {o : Operation} {r : Request} {mark : Mark} {f : DataField}

/-! ### The data field of a fill (R122, R123) -/

theorem State.takeData_whole (ho : (s.unit u).op = some o) (hs : o.subject = .fill k) (hf : o.field = some f) (hn : f.received = 0)
    (hslot : (s.line k).currentSlot = some slot) {bs : List Byte} (hlength : bs.length = 1024) :
    s.takeData u bs = { s with
      store := Memory.writeBytes s.store (slot * 1024) bs
      units := SMap.set {} s.units u { s.unit u with
        op := some { o with field := some { f with received := 1024, check := checkBytes f.check bs } } } } := by
  have htake : s.takeData u bs = (s.setStore (Memory.writeBytes s.store (slot * 1024) bs)).updOp u
      (fun x => { x with field := some { f with received := 1024, check := checkBytes f.check bs } }) := by
    have hall : bs.take (Config.slotBytes - f.received) = bs := List.take_of_length_le (by have : Config.slotBytes = 1024 := rfl; omega)
    have hcount : f.received + bs.length = 1024 := by omega
    have haddr : slot * Config.slotBytes + f.received = slot * 1024 := by rw [hn]; exact Nat.add_zero _
    rw [takeData, ho]
    dsimp only
    rw [hs, hf]
    dsimp only
    rw [hall, hcount, hslot, Option.getD_some, haddr]
  rw [htake, updOp_def (s := s.setStore (Memory.writeBytes s.store (slot * 1024) bs)) ho]
  rfl

theorem State.onDataEnd_good (ho : (s.unit u).op = some o) (hq : (s.unit u).seq = .transferring) (hs : o.subject = .fill k)
    (hf : o.field = some f) (hn : f.received = 1024) : s.onDataEnd u f.check = s.endOp u .success f.mark := by
  unfold onDataEnd
  rw [hq, ho]
  dsimp only
  rw [hs, hf]
  exact if_pos ⟨hn, rfl⟩

/-- R122: the mark of a data field opens it. -/
theorem State.onDataMark_opens (ho : (s.unit u).op = some o) (hq : (s.unit u).seq = .transferring) (hs : o.subject = .fill k)
    (hf : o.field = none) : s.onDataMark u mark = s.setUnit u { s.unit u with
      op := some { o with field := some ⟨mark, 0, checkBytes 0xFFFF [markByte mark]⟩, deadline := s.now + 1000 } } := by
  have hopen : s.onDataMark u mark
      = (s.updOp u (fun x => { x with field := some ⟨mark, 0, checkByte checkPreset (markByte mark)⟩ })).setDeadline u := by
    unfold onDataMark
    rw [hq, ho]
    dsimp only
    rw [hs]
    exact if_neg (by simp [hf])
  rw [hopen, updOp_def ho, setUnit_setDeadline_some s u rfl]
  rfl

/-! ### The service of a wait list (R25) -/

/-- What the READs `rs` at the head of line `k`'s wait list leave once they have started from the line's slot. -/
structure State.ReadsStarted (k slot : Nat) (rs : List Nat) (s t : State) : Prop where
  frame : { t with refs := s.refs, table := s.table, recency := s.recency, lines := s.lines } = s
  line : { t.line k with waitList := [] } = { s.line k with waitList := [] }
  lines : ∀ j, j ≠ k → t.line j = s.line j
  order : t.order (k / 4) = s.order (k / 4)
  slotRefs : t.refCount slot = s.refCount slot + rs.length
  otherRefs : ∀ j, j ≠ slot → t.refCount j = s.refCount j
  started : ∀ i ∈ rs, ∀ y, s.request i = some y → t.request i = some { y with
    place := .active, line := some k, delivered := some slot, captured := some (s.line k).mark }
  others : ∀ i, i ∉ rs → t.request i = s.request i

theorem State.ReadsStarted.nil (k slot : Nat) (s : State) : ReadsStarted k slot [] s s :=
  ⟨rfl, rfl, fun _ _ => rfl, rfl, rfl, fun _ _ => rfl, nofun, fun _ _ => rfl⟩

/-- R25: the READs at the head of a wait list start together. The line's way is the most recent of its set already. -/
theorem State.serveList_reads (tail : List Nat) : ∀ (rs : List Nat) (s : State), (s.line k).currentSlot = some slot →
    (∀ i ∈ rs, ∃ y, s.request i = some y ∧ y.kind = some .read) →
    k % 4 :: (s.order (k / 4)).filter (· != k % 4) = s.order (k / 4) →
    ∃ t, s.serveList k (rs ++ tail) = t.serveList k tail ∧ ReadsStarted k slot rs s t
  | [], s, _, _, _ => ⟨s, rfl, .nil k slot s⟩
  | e :: rs, s, hslot, hreads, horder => by
    obtain ⟨r, hr, hk⟩ := hreads e List.mem_cons_self
    let ws := rs ++ tail
    let x : Request := { r with place := .active, line := some k, delivered := some slot, captured := some (s.line k).mark }
    let v : State := { s with
      lines := SMap.set {} s.lines k { s.line k with waitList := ws }
      refs := SMap.set 0 s.refs slot (s.refCount slot + 1)
      table := SMap.set none s.table e (some x)
      recency := SMap.set [0, 1, 2, 3] s.recency (k / 4) (s.order (k / 4)) }
    have hline (j : Nat) : v.line j = if j = k then { s.line k with waitList := ws } else s.line j := line_of_lines (t := v) rfl j
    have hreq (i : Nat) : v.request i = if i = e then some x else s.request i := request_of_table (t := v) rfl i
    have hrefs (j : Nat) : v.refCount j = if j = slot then s.refCount slot + 1 else s.refCount j := refCount_of_refs (t := v) rfl j
    have hlk : v.line k = { s.line k with waitList := ws } := (hline k).trans (if_pos rfl)
    have hmark : (v.line k).mark = (s.line k).mark := by rw [hlk]
    have hvorder : v.order (k / 4) = s.order (k / 4) := (SMap.get_set _ _ _ _ _).trans (if_pos rfl)
    have hstep : s.serveList k (e :: ws) = v.serveList k ws := by
      have hstart : (s.updLine k (fun x => { x with waitList := ws })).startRead e k = v := by
        let w : State := { s with lines := SMap.set {} s.lines k { s.line k with waitList := ws } }
        have hw : w.line k = { s.line k with waitList := ws } := (line_of_lines (t := w) rfl k).trans (if_pos rfl)
        have hworder : w.order (k / 4) = s.order (k / 4) := rfl
        show w.startRead e k = v
        rw [startRead_eq (t := w) hr (by rw [hw]; exact hslot), hw, hworder, horder]
        rfl
      rw [serveList, hr]
      show (match r.kind with | some .read => _ | some .write => _ | _ => _) = _
      rw [hk]
      exact congrArg (serveList k ws) hstart
    obtain ⟨t, hserve, h⟩ := serveList_reads tail rs v (by rw [hlk]; exact hslot)
      (fun i hi => by
        rw [hreq]
        split
        · exact ⟨x, rfl, hk⟩
        · exact hreads i (List.mem_cons_of_mem e hi))
      (by rw [hvorder]; exact horder)
    refine ⟨t, hstep.trans hserve, ?_, ?_, ?_, h.order.trans hvorder, ?_, ?_, ?_, ?_⟩
    · exact congrArg (fun v : State => { v with refs := s.refs, table := s.table, recency := s.recency, lines := s.lines }) h.frame
    · rw [h.line, hlk]
    · exact fun j hj => (h.lines j hj).trans ((hline j).trans (if_neg hj))
    · rw [h.slotRefs, hrefs, if_pos rfl, List.length_cons]; omega
    · exact fun j hj => (h.otherRefs j hj).trans ((hrefs j).trans (if_neg hj))
    · intro i hi y hy
      by_cases hrest : i ∈ rs
      · have hstarted := h.started i hrest
        rw [hreq, hmark] at hstarted
        split at hstarted
        · next hie =>
          obtain rfl : y = r := Option.some.inj (hy.symm.trans (hie ▸ hr))
          exact hstarted x rfl
        · exact hstarted y hy
      · obtain rfl : i = e := by simpa [hrest] using hi
        obtain rfl : y = r := Option.some.inj (hy.symm.trans hr)
        exact (h.others i hrest).trans ((hreq i).trans (if_pos rfl))
    · intro i hi
      obtain ⟨hne, hrest⟩ : i ≠ e ∧ i ∉ rs := by simpa using hi
      exact (h.others i hrest).trans ((hreq i).trans (if_neg hne))

/-- R25: the READs served, with nothing behind them. -/
theorem State.serveList_end (t : State) (k : Nat) : t.serveList k [] = { t with
    lines := SMap.set {} t.lines k { t.line k with waitList := [] } } := rfl

/-- R25: a WRITE leaves the list as the line's writer. -/
theorem State.serveList_write (hr : t.request e = some r) (hk : r.kind = some .write) (ws : List Nat) :
    t.serveList k (e :: ws) = ({ t with lines := SMap.set {} t.lines k { t.line k with waitList := ws } } : State).becomeWriter e k := by
  rw [serveList, hr]
  show (match r.kind with | some .read => _ | some .write => _ | _ => _) = _
  rw [hk]
  rfl

/-- R14: what a request that asks for a slot leaves as it was, whether it gets one or waits. -/
theorem State.proceed_frame (hr : t.request e = some r) : ∃ refs slotWait outbox x, t.proceed e = { t with
    refs, slotWait, outbox, table := SMap.set none t.table e (some x) } := by
  cases hs : t.freeSlot with
  | some slot =>
    rw [proceed_eq hr hs]
    exact ⟨_, t.slotWait, _, _, rfl⟩
  | none =>
    rw [proceed, hs]
    refine ⟨t.refs, t.slotWait ++ [e], t.outbox, { r with place := .parked .slotWait }, ?_⟩
    show (t.setSlotWait (t.slotWait ++ [e])).updRequest e _ = _
    rw [updRequest_eq (s := t.setSlotWait (t.slotWait ++ [e])) hr]
    rfl

/-- R36: a writer of a line that nobody holds asks for its slot at once. -/
theorem State.becomeWriter_unheld (hr : t.request e = some r) (hh : (t.line k).holders = []) :
    t.becomeWriter e k = ({ t with
      lines := SMap.set {} t.lines k { t.line k with writer := some e }
      table := SMap.set none t.table e (some { r with line := some k }) } : State).proceed e := by
  let u : State := { t with
    lines := SMap.set {} t.lines k { t.line k with writer := some e }
    table := SMap.set none t.table e (some { r with line := some k }) }
  have hu : (t.updLine k (fun x => { x with writer := some e })).updRequest e (fun r => { r with line := some k }) = u := by
    rw [updRequest_eq (s := t.updLine k _) hr]
    rfl
  have hru : u.request e = some { r with line := some k } := (request_of_table (t := u) rfl e).trans (if_pos rfl)
  have hset : u.recallSet k r.channel = [] := by
    have hline : (u.line k).holders = [] := by rw [line_of_lines (t := u) rfl k, if_pos rfl]; exact hh
    rw [recallSet, hline]
    rfl
  rw [becomeWriter, hu, takeWriter, hru]
  dsimp only
  rw [hset]
  rfl

/-- The free slot is found by the counts that are 0. -/
theorem State.freeSlot_congr (h : ∀ j, t.refCount j = 0 ↔ s.refCount j = 0) : t.freeSlot = s.freeSlot := by
  have hcount : (fun j => t.refCount j == 0) = fun j => s.refCount j == 0 := funext fun j => by
    rw [Bool.eq_iff_iff, beq_iff_eq, beq_iff_eq, h]
  rw [freeSlot, freeSlot, hcount]

/-! ### The outcome of a fill that succeeds (R55) -/

/-- R25: the list of a line that has just got its data is served. -/
theorem State.serveLine_clean {lines : List (Nat × Line)} {x : Line} (hl : s.lines = SMap.set {} lines k x) (hc : x.state = .clean)
    (hw : x.waitList ≠ [] → x.writer = none) : s.serveLine k = s.serveList k x.waitList := by
  have hx : s.line k = x := (line_of_lines hl k).trans (if_pos rfl)
  unfold serveLine
  dsimp only
  rw [hx, hc]
  by_cases hlist : x.waitList = []
  · have hsame : SMap.set {} s.lines k { s.line k with waitList := [] } = s.lines := by
      rw [hl, SMap.set_set, hx, ← hlist]
    rw [if_pos (by simp [hlist]), hlist, serveList_end, hsame]
  · rw [if_neg (by simp [hlist, hw hlist, LineState.loadsData])]

/-- Line `k` with its data just read: CLEAN with the mark, its way most recent. -/
def State.filled (s : State) (k : Nat) (mark : Mark) : State := { s with
  lines := SMap.set {} s.lines k { s.line k with state := .clean, mark }
  recency := SMap.set [0, 1, 2, 3] s.recency (k / 4) (k % 4 :: (s.order (k / 4)).filter (· != k % 4)) }

/-- R55: the line of a fill that succeeds is CLEAN, and its list is served. -/
theorem State.fillOutcome_success (hl : (s.line k).state = .filling) (hw : (s.line k).waitList ≠ [] → (s.line k).writer = none)
    (hset : ((s.filled k mark).serveList k (s.line k).waitList).waiters (k / 4) = []) :
    s.fillOutcome k .success mark = (s.filled k mark).serveList k (s.line k).waitList := by
  let x : Line := { s.line k with state := .clean, mark }
  have hput : s.putLine k x = s.setLine k x := by
    rw [putLine_plain (by rw [hl]; decide) ⟨by show LineState.clean ≠ _; decide, by show LineState.clean ≠ _; decide⟩
      (.inr (.inl (by rw [hl]; rfl))), countDirty, hl]
    rfl
  unfold fillOutcome
  dsimp only
  rw [if_neg (not_not.2 hl), if_pos rfl]
  show (((s.putLine k x).touch k).serveLine k).noteEvictable k = _
  rw [hput]
  show ((s.filled k mark).serveLine k).noteEvictable k = _
  rw [serveLine_clean (s := s.filled k mark) (x := x) rfl rfl hw]
  exact if_pos (List.isEmpty_iff.2 hset)

/-- R25: what the head of the list behind the READs changes, if there is one: a WRITE, which becomes the writer. -/
theorem State.serveList_tail {tail : List Nat} (htail : ∀ w ∈ tail.head?, ∃ v, t.request w = some v ∧ v.kind = some .write)
    (hh : tail ≠ [] → (t.line k).holders = []) : ∃ z refs slotWait outbox table,
      t.serveList k tail = { t with lines := SMap.set {} t.lines k z, refs, slotWait, outbox, table }
      ∧ ∀ i, i ∉ tail.head? → SMap.get none table i = t.request i := by
  cases tail with
  | nil => exact ⟨_, t.refs, t.slotWait, t.outbox, t.table, rfl, fun _ _ => rfl⟩
  | cons w rest =>
    obtain ⟨v, hv, hk⟩ := htail w rfl
    let b : State := { t with lines := SMap.set {} t.lines k { t.line k with waitList := rest } }
    have hbk : b.line k = { t.line k with waitList := rest } := (line_of_lines (t := b) rfl k).trans (if_pos rfl)
    let c : State := { b with
      lines := SMap.set {} b.lines k { b.line k with writer := some w }
      table := SMap.set none b.table w (some { v with line := some k }) }
    have hc : c.request w = some { v with line := some k } := (request_of_table (t := c) rfl w).trans (if_pos rfl)
    obtain ⟨refs, slotWait, outbox, x, hproceed⟩ := proceed_frame hc
    refine ⟨{ b.line k with writer := some w }, refs, slotWait, outbox, SMap.set none c.table w (some x), ?_, fun i hi => ?_⟩
    · rw [serveList_write hv hk]
      show b.becomeWriter w k = _
      rw [becomeWriter_unheld (t := b) hv (by rw [hbk]; exact hh (by simp))]
      show c.proceed w = _
      rw [hproceed]
      simp only [c, b, SMap.set_set]
    · have hne : i ≠ w := fun h => hi (by simp [h])
      rw [SMap.get_set, if_neg hne, SMap.get_set, if_neg hne]
      rfl

end Sys2Proof.Machine

namespace Sys2Proof.Proofs

open Sys2Proof Sys2Proof.Machine

/-- Settles O47: the field is whole and its check right, so the line is filled and its list served. -/
theorem fillReadsItsDataField : Obligations.FillReadsItsDataField := by
  intro s u k slot o mark data x byte hset hp hd ho hq hs
  have hpart : s.part ≠ .failed := by rw [hp]; decide
  have hbyte : markByte mark = byte := markByte_eq mark
  refine ⟨fun hf => ?_, fun hf hlength hw hwait hgate hl hslot hwaiters hfree rs tail hlist hreads htail => ?_⟩
  · have hexec : exec (.dataMark u mark []) s = .next ((s.takeData u []).onDataMark u mark).finish := if_pos (State.acts_of_ne hpart hd)
    rw [hexec, State.takeData_outside [] ho hf, State.onDataMark_opens ho hq hs hf, hbyte]
    exact congrArg _ (State.finish_nil _ hset)
  · let f : DataField := ⟨mark, 1024, checkBytes (checkBytes 0xFFFF [byte]) data⟩
    let o' : Operation := { o with field := some f }
    let y : UnitRec := { x with op := none, seq := .idle }
    let store := Memory.writeBytes s.store (slot * 1024) data
    let s1 : State := { s with store, units := SMap.set {} s.units u { x with op := some o' } }
    let s2 : State := { s with store, units := SMap.set {} s.units u y, agenda := [.select u] }
    have hu1 : s1.unit u = { x with op := some o' } := (State.unit_of_units (t := s1) rfl u).trans (if_pos rfl)
    have hend : s1.endOp u .success mark = s2.setAgenda [.fillOutcome k .success mark, .select u] := by
      have hout : s1.gateOutput u = s.outbox := by rw [State.gateOutput, hu1]; exact if_neg (Bool.eq_false_iff.1 hgate)
      have hended : (s1.unit u).opEnded .success = y := by
        rw [hu1, UnitRec.opEnded]
        simp only [bne_self_eq_false, Bool.or_false]
        exact congrArg (fun g => ({ x with op := none, seq := .idle, writeGate := g } : UnitRec)) hgate.symm
      rw [State.endOp_eq (s := s1) (o := o') hpart (by rw [hu1]) (by rw [hu1]; exact hwait.2), hended, hout, State.report, show o'.subject = _ from hs]
      show State.setAgenda _ ([Work.fillOutcome k .success mark, .select u] ++ s.agenda) = _
      rw [show s.agenda = [] from hset]
      simp only [s1, State.setUnit_eq, SMap.set_set]
      rfl
    have hstep : exec (.dataEnd u (checkBytes 0xFFFF (byte :: data)) data) s
        = .next (s2.setAgenda [.fillOutcome k .success mark, .select u]).finish := by
      have hexec : exec (.dataEnd u f.check data) s = .next ((s.takeData u data).onDataEnd u f.check).finish := if_pos (State.acts_of_ne hpart hd)
      have htake : s.takeData u data = s1 := State.takeData_whole ho hs hf rfl hslot hlength
      refine hexec.trans (congrArg _ ?_)
      rw [htake, State.onDataEnd_good (s := s1) (o := o') (by rw [hu1]) (by rw [hu1]; exact hq) hs rfl rfl, hend]
    let a := s2.filled k mark
    have horder : a.order (k / 4) = k % 4 :: (s.order (k / 4)).filter (· != k % 4) := (SMap.get_set _ _ _ _ _).trans (if_pos rfl)
    have hlist' : (s2.line k).waitList = rs ++ tail := hlist
    have hak : a.line k = { s.line k with state := .clean, mark } := (State.line_of_lines (t := a) rfl k).trans (if_pos rfl)
    obtain ⟨t, hserve, ht⟩ := State.serveList_reads (k := k) (slot := slot) tail rs a (by rw [hak]; exact hslot) hreads
      (by rw [horder]; simp [List.filter_filter])
    have hapart : ∀ i ∈ rs, i ∉ tail.head? := by
      intro i hi hw
      obtain ⟨v, hv, hkv⟩ := htail i hw
      obtain ⟨v', hv', hkv'⟩ := hreads i hi
      obtain rfl : v = v' := Option.some.inj (hv.symm.trans hv')
      exact absurd (hkv.symm.trans hkv') (by decide)
    have hempty : rs ++ tail ≠ [] → (s.line k).writer = none ∧ (s.line k).holders = [] := hlist ▸ hfree
    have htk : { t.line k with waitList := [] } = ({ s.line k with state := .clean, mark, waitList := [] } : Line) := by rw [ht.line, hak]
    have hholders : (t.line k).holders = (s.line k).holders := (congrArg Line.holders htk :)
    have hothers : ∀ i, i ∉ rs → t.request i = s.request i := ht.others
    obtain ⟨z, refs, slotWait, outbox, table, htailEq, htable⟩ := State.serveList_tail (t := t) (k := k) (tail := tail)
      (fun w hw => by rw [hothers w fun hmem => hapart w hmem hw]; exact htail w hw)
      (fun hne => hholders.trans (hempty (by simp [hne])).2)
    let G : State := { t with lines := SMap.set {} t.lines k z, refs, slotWait, outbox, table, agenda := [] }
    have hserved : (s2.filled k mark).serveList k (s2.line k).waitList = { t with lines := SMap.set {} t.lines k z, refs, slotWait, outbox, table } := by
      rw [hlist']
      exact hserve.trans htailEq
    have htw : t.waiters (k / 4) = s.waiters (k / 4) := (congrArg (fun v : State => v.waiters (k / 4)) ht.frame :)
    have hta : t.agenda = [.select u] := (congrArg State.agenda ht.frame :)
    have hF : s2.fillOutcome k .success mark = G.setAgenda [.select u] := by
      rw [State.fillOutcome_success (s := s2) hl (fun hne => (hfree hne).1) (by rw [hserved]; exact htw.trans hwaiters), hserved]
      exact congrArg (fun w => ({ t with lines := SMap.set {} t.lines k z, refs, slotWait, outbox, table, agenda := w } : State)) hta
    have hGu : G.unit u = y := ((congrArg (fun v : State => v.unit u) ht.frame :) : t.unit u = a.unit u).trans
      ((State.unit_of_units (t := a) rfl u).trans (if_pos rfl))
    have hrun : (s2.setAgenda [.fillOutcome k .success mark, .select u]).finish = G := by
      refine (State.RunsTo.cons (s := s2) (w := .fillOutcome k .success mark) (ws := [.select u]) (n := 1) ?_).finish rfl
      show State.RunsTo 1 (s2.fillOutcome k .success mark) G
      rw [hF]
      exact State.RunsTo.select (by rw [hGu]; exact hw) (.done rfl)
    have hGstore : G.store = store := (congrArg State.store ht.frame :)
    refine ⟨G, hstep.trans (congrArg _ hrun), ?_, ?_, ?_, hGu, ?_, ?_, ?_, ?_, ?_, ?_⟩
    · have hread := Memory.readBytes_writeBytes data s.store (slot * 1024)
      rw [hlength] at hread
      rw [hGstore]
      exact hread
    · intro b hb
      rw [hGstore]
      exact Memory.read_writeBytes_out data s.store (slot * 1024) b (by rw [hlength]; exact hb)
    · intro j hj
      refine ((State.line_of_lines (t := G) (m := t.lines) rfl j).trans (if_neg hj)).trans ((ht.lines j hj).trans ?_)
      exact (State.line_of_lines (t := a) (m := s.lines) (x := { s.line k with state := .clean, mark }) rfl j).trans (if_neg hj)
    · exact ht.order.trans horder
    · exact (congrArg State.channels ht.frame :)
    · exact (congrArg State.dirtyCount ht.frame :)
    · intro i hi v hv
      have hstarted := ht.started i hi v hv
      rw [hak] at hstarted
      exact (htable i (hapart i hi)).trans hstarted
    · rintro rfl
      let w : State := { t with lines := SMap.set {} t.lines k { t.line k with waitList := [] }, agenda := [] }
      have hG : G = w := (congrArg (State.setAgenda · []) htailEq).symm
      rw [hG]
      refine ⟨?_, ht.slotRefs, ht.otherRefs, hothers, (congrArg State.outbox ht.frame :), ?_⟩
      · exact ((State.line_of_lines (t := w) rfl k).trans (if_pos rfl)).trans htk
      · rintro rfl
        exact ⟨(congrArg State.table hserve :).symm, (congrArg State.refs hserve :).symm⟩
    · rintro w rest v other rfl hv hne hfreeSlot
      have hwrs : w ∉ rs := fun hmem => hapart w hmem rfl
      obtain ⟨v', hv', hkv⟩ := htail w rfl
      obtain rfl : v = v' := Option.some.inj (hv.symm.trans hv')
      have htwr : t.request w = some v := (hothers w hwrs).trans hv
      let b : State := { t with lines := SMap.set {} t.lines k { t.line k with waitList := rest } }
      have hbk : b.line k = { t.line k with waitList := rest } := (State.line_of_lines (t := b) rfl k).trans (if_pos rfl)
      have hbh : (b.line k).holders = [] := by rw [hbk]; exact hholders.trans (hempty (by simp)).2
      have hbslot : b.freeSlot = some other := by
        refine (State.freeSlot_congr fun j => ?_).trans hfreeSlot
        by_cases hj : j = slot
        · subst hj
          have : b.refCount j = s.refCount j + rs.length := ht.slotRefs
          omega
        · rw [show b.refCount j = s.refCount j from ht.otherRefs j hj]
      let line : Line := { t.line k with writer := some w, waitList := rest }
      let c : State := { t with
        lines := SMap.set {} t.lines k line, refs := SMap.set 0 t.refs other 1, agenda := []
        table := SMap.set none t.table w (some { v with line := some k, place := .active, staging := some other })
        outbox := .hostRead v.record.buffer.toNat 1024 :: t.outbox }
      have hG : G = c := by
        refine (congrArg (State.setAgenda · []) ((State.serveList_write htwr hkv rest).symm.trans htailEq)).symm.trans ?_
        show (b.becomeWriter w k).setAgenda [] = c
        rw [State.becomeWriter_eq (t := b) htwr (by rw [hbh]; nofun) hbslot, hbk]
        simp only [b, c, line, SMap.set_set]
        rfl
      have hother : other ≠ slot := fun h => hne (h ▸ State.refCount_of_freeSlot hfreeSlot)
      have hline : line = { s.line k with state := .clean, mark, writer := some w, waitList := rest } :=
        (congrArg (fun l : Line => { l with writer := some w, waitList := rest }) htk :)
      have hcr (j : Nat) : c.refCount j = if j = other then 1 else t.refCount j := State.refCount_of_refs (t := c) rfl j
      have hci (i : Nat) : c.request i = if i = w then some { v with line := some k, place := .active, staging := some other } else t.request i :=
        State.request_of_table (t := c) rfl i
      rw [hG]
      refine ⟨((State.line_of_lines (t := c) rfl k).trans (if_pos rfl)).trans hline, ?_, (hcr other).trans (if_pos rfl), fun j hj hj' => ?_,
        (hci w).trans (if_pos rfl), fun i hi hiw => ?_, ?_⟩
      · exact ((hcr slot).trans (if_neg hother.symm)).trans ht.slotRefs
      · exact ((hcr j).trans (if_neg hj')).trans (ht.otherRefs j hj)
      · exact ((hci i).trans (if_neg hiw)).trans (hothers i hi)
      · exact congrArg (.hostRead v.record.buffer.toNat 1024 :: ·) (congrArg State.outbox ht.frame :)

end Sys2Proof.Proofs
end

section
/-! PROOF. READY_RISE and what a selection starts (R105, R107, R113). -/

namespace Sys2Proof.Machine

variable {s t : State} {u e k n c slot : Nat} {x y : UnitRec} {o : Operation} {r : Request} {status : Status} {f : FlushEntry} {key : Key} {last : SeqState} {rest : List Nat}

/-! ### READY_RISE (R113) -/

/-- The part after a NOT_READY unit has become READY, before its selection. -/
def State.risen (s : State) (u : Nat) : State := { s with
  units := SMap.set {} s.units u { s.unit u with readyLine := true, state := .ready }
  channels := SMap.set {} s.channels 0 { s.channel 0 with backlog := (s.channel 0).backlog ++ [Notice.unitReady u] } }

theorem State.risen_unit (s : State) (u : Nat) : (s.risen u).unit u = { s.unit u with readyLine := true, state := .ready } :=
  (unit_of_units (t := s.risen u) rfl u).trans (if_pos rfl)

theorem exec_readyRise (hset : s.Settled) (hp : s.part = .running) (hu : u < 4) (hx : (s.unit u).state = .notReady)
    (ho : (s.channel 0).state = .open) (hroom : (s.channel 0).backlog.length < 32) :
    exec (.readyRise u) s = .next ((s.risen u).setAgenda [.select u]).finish := by
  let t : State := { s with units := SMap.set {} s.units u { s.unit u with readyLine := true, state := .ready } }
  have hrise : s.onReadyRise u = (t.queueNotice 0 (.unitReady u)).later [.select u] := by
    have ht : (s.updUnit u (fun y => { y with readyLine := true })).updUnit u (fun y => { y with state := .ready }) = t := by
      rw [State.updUnit_def s, State.setUnit_updUnit]
      rfl
    unfold State.onReadyRise
    dsimp only
    rw [if_neg (by rw [hp]; decide), if_pos hx, ht]
  have hexec : exec (.readyRise u) s = .next (s.onReadyRise u).finish := if_pos hu
  rw [hexec, hrise, State.queueNotice_room (s := t) (y := s.channel 0) (by show s.part ≠ _; rw [hp]; decide) rfl ho hroom, State.later_eq]
  show Host.Outcome.next (State.finish { s.risen u with agenda := s.agenda ++ [.select u] }) = _
  rw [show s.agenda = [] from hset]
  rfl

/-! ### The start of an operation (R107) -/

/-- The unit record once the positioning for operation `o` has begun; `last` is the state where nothing needs positioning. -/
def UnitRec.begun (x : UnitRec) (o : Operation) (last : SeqState) : UnitRec := { x with
  op := some o, selectedSurface := some o.surface
  seq := if x.believed = none then .homing else if x.believed ≠ some o.track then .positioning else if x.verifyPending then .verifying else last
  lastHeader := if x.believed = some o.track then x.lastHeader else none }

/-- The commands put out for it. -/
def UnitRec.issues (x : UnitRec) (u : Nat) (o : Operation) : List Output :=
  (if x.believed = none then [Output.home u] else if x.believed = some o.track then [] else [Output.move u o.track])
    ++ (if x.selectedSurface = some o.surface then [] else [Output.select u o.surface])

/-- An operation just set up, and the sequencer state in which it starts where nothing needs positioning. -/
structure State.Fresh (s : State) (u : Nat) (o : Operation) (last : SeqState) : Prop where
  deadline : ({ o with deadline := s.now + 1000 } : Operation) = o
  verify : ({ o with indexCount := 0, deadline := s.now + 1000 } : Operation) = o
  start : ∀ t : State, t.now = s.now → (t.unit u).op = some o → t.startSearch u o = t.setUnit u { t.unit u with seq := last, op := some o }

/-- R107, past the selection of the surface: what the believed track of `x` calls for. -/
def State.position (t : State) (u : Nat) (x : UnitRec) (o : Operation) : State :=
  if x.believed = none then t.startHoming u
  else if x.believed ≠ some o.track then t.startMove u o.track
  else if x.verifyPending then t.startVerify u
  else t.startSearch u o

theorem State.beginOp_position (s : State) (u : Nat) (o : Operation) : s.beginOp u o = (if (s.unit u).selectedSurface = some o.surface then s
    else (s.updUnit u (fun y => { y with selectedSurface := some o.surface })).emit (.select u o.surface)).position u (s.unit u) o := by
  unfold beginOp position
  dsimp only
  cases (s.unit u).believed with
  | none => rfl
  | some track =>
    dsimp only
    rw [if_neg (Option.some_ne_none track)]
    exact if_congr (by simp) rfl rfl

/-- R108 to R110, R119, R131: the way the operation goes on, on a unit whose believed track is that of `x`. -/
theorem State.position_eq (h : s.Fresh u o last) (hn : t.now = s.now) (ht : t.unit u = y) (ho : y.op = some o) (hl : y.lastHeader = x.lastHeader) :
    t.position u x o = { t with
      units := SMap.set {} t.units u { y with op := some o, seq := (x.begun o last).seq, lastHeader := (x.begun o last).lastHeader }
      outbox := (if x.believed = none then [Output.home u] else if x.believed = some o.track then [] else [Output.move u o.track]) ++ t.outbox } := by
  have hto : (t.unit u).op = some o := by rw [ht]; exact ho
  subst ht
  have hdeadline : ({ o with deadline := t.now + 1000 } : Operation) = o := by rw [hn]; exact h.deadline
  have hverify : ({ o with indexCount := 0, deadline := t.now + 1000 } : Operation) = o := by rw [hn]; exact h.verify
  unfold position UnitRec.begun
  dsimp only
  by_cases hnone : x.believed = none
  · have hhome : t.startHoming u = (t.setUnit u { t.unit u with op := some o, seq := .homing, lastHeader := none }).emit (.home u) := by
      rw [startHoming, updUnit_def, setUnit_enter_some t u (by exact hto), hdeadline]
    rw [if_pos hnone, if_pos hnone, if_pos hnone, if_neg (by simp [hnone]), hhome]
    rfl
  · rw [if_neg hnone, if_neg hnone, if_neg hnone]
    by_cases htrack : x.believed = some o.track
    · rw [if_neg (not_not.2 htrack), if_neg (not_not.2 htrack), if_pos htrack, if_pos htrack, ← hl]
      by_cases hpending : x.verifyPending = true
      · rw [if_pos hpending, if_pos hpending, startVerify, updOp_def hto, setUnit_enter_some t u rfl, hverify]
        rfl
      · rw [if_neg hpending, if_neg hpending, h.start t hn hto]
        rfl
    · have hmove : t.startMove u o.track
          = (t.setUnit u { t.unit u with op := some o, seq := .positioning, lastHeader := none }).emit (.move u o.track) := by
        rw [startMove, updUnit_def, setUnit_enter_some t u (by exact hto), hdeadline]
      rw [if_pos htrack, if_pos htrack, if_neg htrack, if_neg htrack, hmove]
      rfl

/-- R107: the surface is selected, then the first condition that applies decides. -/
theorem State.beginOp_eq (ho : (s.unit u).op = some o) (h : s.Fresh u o last) : s.beginOp u o = { s with
    units := SMap.set {} s.units u ((s.unit u).begun o last), outbox := (s.unit u).issues u o ++ s.outbox } := by
  rw [beginOp_position]
  by_cases hsel : (s.unit u).selectedSurface = some o.surface
  · rw [if_pos hsel, position_eq h rfl rfl ho rfl, UnitRec.issues, if_pos hsel, List.append_nil]
    exact congrArg (fun z => ({ s with units := SMap.set {} s.units u z, outbox := _ } : State)) (by rw [UnitRec.begun, ← hsel])
  · let y : UnitRec := { s.unit u with selectedSurface := some o.surface }
    let t : State := { s with units := SMap.set {} s.units u y, outbox := .select u o.surface :: s.outbox }
    have ht : t.unit u = y := (unit_of_units (t := t) rfl u).trans (if_pos rfl)
    rw [if_neg hsel]
    show t.position u (s.unit u) o = _
    rw [position_eq (s := s) (t := t) (x := s.unit u) (y := y) h rfl ht ho rfl, UnitRec.issues, if_neg hsel, List.append_assoc]
    simp only [t, SMap.set_set]
    rfl

theorem State.fresh_search (h : o = { subject := o.subject, track := o.track, surface := o.surface, sector := o.sector, deadline := s.now + 1000 })
    (hs : ∀ e, o.subject ≠ .survey e) : s.Fresh u o .searching := by
  refine ⟨by rw [h], by rw [h], fun t hn ho => ?_⟩
  have hsearch : t.startSearch u o = (t.updOp u (fun o => { o with indexCount := 0, checkMiss := false })).enter u .searching := by
    unfold startSearch
    split
    · rfl
    · rfl
    · next e he => exact absurd he (hs e)
  have hsame : ({ o with indexCount := 0, checkMiss := false, deadline := t.now + 1000 } : Operation) = o := by rw [h, hn]
  rw [hsearch, updOp_def ho, setUnit_enter_some t u rfl, hsame]

theorem State.fresh_survey (h : o = { subject := .survey e, track := o.track, surface := o.surface, sector := none, deadline := s.now + 1000 }) :
    s.Fresh u o .surveying := by
  refine ⟨by rw [h], by rw [h], fun t hn ho => ?_⟩
  have hsearch : t.startSearch u o = (t.updOp u (fun o => { o with recording := false })).enter u .surveying := by
    have hs : o.subject = .survey e := by rw [h]
    unfold startSearch
    rw [hs]
  have hsame : ({ o with recording := false, deadline := t.now + 1000 } : Operation) = o := by rw [h, hn]
  rw [hsearch, updOp_def ho, setUnit_enter_some t u rfl, hsame]

/-! ### The selection (R105, R106) -/

/-- R106: the sweep direction after a flush of track `track` is chosen as the only candidate. -/
def UnitRec.towards (x : UnitRec) (track : Nat) : Sweep :=
  match x.believed with
  | none => .up
  | some believed => if believed < track then .up else if track < believed then .down else x.sweep

theorem chooseFlush_one (x : UnitRec) (f : FlushEntry) : chooseFlush x [f] = some (f, x.towards f.key.track) := by
  cases hb : x.believed with
  | none =>
    rw [chooseFlush, hb, UnitRec.towards, hb]
    rfl
  | some track =>
    rw [chooseFlush_known hb, UnitRec.towards, hb]
    obtain hlt | rfl | hgt := Nat.lt_trichotomy track f.key.track
    · cases x.sweep <;> simp [bestBy, ahead, Sweep.reverse, hlt, hlt.ne', hlt.le]
    · simp [bestBy]
    · cases x.sweep <;> simp [bestBy, ahead, Sweep.reverse, hgt, hgt.ne, hgt.le]

/-- R81: a flush that is urgent in a RUNNING part. -/
def State.IsUrgent (s : State) (u : Nat) (f : FlushEntry) : Prop := s.pressure = true ∨ s.waiters (f.line / 4) ≠ []
  ∨ ∃ b bs d, (s.unit u).barriers = b :: bs ∧ (s.line f.line).dirtyEpoch = some d ∧ EpochAtMost d b.epoch

theorem State.urgent_iff (hp : s.part = .running) (u : Nat) (f : FlushEntry) : s.urgent u f = true ↔ s.IsUrgent u f := by
  have hcovered (x : Epoch) : (s.line f.line).coveredBy x = true ↔ ∃ d, (s.line f.line).dirtyEpoch = some d ∧ EpochAtMost d x := by
    simp [Line.coveredBy, Option.any_eq_true, epochAtMost]
  have hset : setOfLine f.line = f.line / 4 := rfl
  unfold urgent IsUrgent
  rw [hp, hset]
  cases (s.unit u).barriers with
  | nil => simp [or_comm]
  | cons b bs =>
    have hhead : (∃ b' bs' d, b :: bs = b' :: bs' ∧ (s.line f.line).dirtyEpoch = some d ∧ EpochAtMost d b'.epoch)
        ↔ (s.line f.line).coveredBy b.epoch = true := by
      rw [hcovered]
      exact ⟨fun ⟨_, _, d, h, hd⟩ => ⟨d, by cases h; exact hd⟩, fun ⟨d, hd⟩ => ⟨b, bs, d, rfl, hd⟩⟩
    rw [hhead]
    cases s.pressure <;> simp

theorem State.filter_urgent_nil (hp : s.part = .running) {l : List FlushEntry} (h : ∀ f ∈ l, ¬ s.IsUrgent u f) : l.filter (s.urgent u) = [] :=
  List.filter_eq_nil_iff.2 fun f hf hu => h f hf ((urgent_iff hp u f).1 hu)

/-- A unit whose sequencer may select. -/
structure State.Selects (s : State) (u : Nat) : Prop where
  part : s.part = .running
  idle : (s.unit u).seq = .idle
  free : (s.unit u).op = none
  ready : (s.unit u).state = .ready
  kept : (s.unit u).discarding = false

theorem State.Selects.maySelect (h : s.Selects u) : s.maySelect u = true := by
  obtain ⟨hp, hq, ho, hr, hd⟩ := h
  unfold State.maySelect
  dsimp only
  rw [hp, hq, ho, hr, hd]
  rfl

theorem State.Selects.fill (h : s.Selects u) (hf : ∀ f ∈ (s.unit u).flushList, ¬ s.IsUrgent u f) (hq : (s.unit u).fillQueue = k :: rest) :
    s.select u = s.startFill u k rest := by
  unfold State.select
  rw [if_pos h.maySelect]
  dsimp only
  rw [filter_urgent_nil h.part hf, chooseFlush_nil, hq]

theorem State.Selects.survey (h : s.Selects u) (hf : ∀ f ∈ (s.unit u).flushList, ¬ s.IsUrgent u f) (hq : (s.unit u).fillQueue = [])
    (hs : (s.unit u).surveyQueue = e :: rest) : s.select u = s.startSurvey u e rest := by
  unfold State.select
  rw [if_pos h.maySelect]
  dsimp only
  rw [filter_urgent_nil h.part hf, chooseFlush_nil, hq, hs]

/-- R105: the only line of the flush list is taken as the first class, or as the last with nothing else queued. -/
theorem State.Selects.flush (h : s.Selects u) (hf : (s.unit u).flushList = [f])
    (hq : (s.unit u).fillQueue = [] ∧ (s.unit u).surveyQueue = [] ∨ s.IsUrgent u f) :
    s.select u = s.startFlush u f ((s.unit u).towards f.key.track) := by
  unfold State.select
  rw [if_pos h.maySelect]
  dsimp only
  rw [hf]
  by_cases hurgent : s.urgent u f = true
  · rw [List.filter_cons_of_pos hurgent, List.filter_nil, chooseFlush_one]
  · obtain ⟨hfill, hsurvey⟩ := hq.resolve_right fun hu => hurgent ((urgent_iff h.part u f).2 hu)
    rw [List.filter_cons_of_neg hurgent, List.filter_nil, chooseFlush_nil, hfill, hsurvey, chooseFlush_one]

/-! ### The start of a selected operation (R8, R125, R131) -/

theorem State.startFill_eq (hk : (s.line k).key = some key)
    (ho : o = { subject := .fill k, track := key.track, surface := key.surface, sector := some key.sector, deadline := s.now + 1000 }) :
    s.startFill u k rest = { s with
      units := SMap.set {} s.units u ({ s.unit u with fillQueue := rest }.begun o .searching), outbox := (s.unit u).issues u o ++ s.outbox } := by
  let y : UnitRec := { s.unit u with fillQueue := rest, op := some o }
  let t : State := { s with units := SMap.set {} s.units u y }
  have ht : t.unit u = y := (unit_of_units (t := t) rfl u).trans (if_pos rfl)
  have hstart : s.startFill u k rest = t.beginOp u o := by
    unfold startFill
    dsimp only
    rw [hk, ho]
    simp only [t, y, ho]
    rfl
  rw [hstart, beginOp_eq (s := t) (by rw [ht]) (fresh_search (by rw [ho]) (by rw [ho]; nofun)), ht]
  simp only [t, SMap.set_set]
  rfl

theorem State.startSurvey_eq (hr : s.request e = some r)
    (ho : o = { subject := .survey e, track := r.record.track.toNat, surface := r.record.surface.toNat, sector := none, deadline := s.now + 1000 }) :
    s.startSurvey u e rest = { s with
      units := SMap.set {} s.units u ({ s.unit u with surveyQueue := rest }.begun o .surveying), outbox := (s.unit u).issues u o ++ s.outbox
      table := SMap.set none s.table e (some { r with place := .active }) } := by
  let y : UnitRec := { s.unit u with surveyQueue := rest, op := some o }
  let t : State := { s with units := SMap.set {} s.units u y, table := SMap.set none s.table e (some { r with place := .active }) }
  have ht : t.unit u = y := (unit_of_units (t := t) rfl u).trans (if_pos rfl)
  have hstart : s.startSurvey u e rest = t.beginOp u o := by
    unfold startSurvey
    rw [hr]
    dsimp only
    rw [updRequest_eq (s := s.updUnit u _) hr, ho]
    simp only [t, y, ho]
    rfl
  rw [hstart, beginOp_eq (s := t) (by rw [ht]) (fresh_survey (e := e) (by rw [ho])), ht]
  simp only [t, SMap.set_set]
  rfl

theorem State.joinFlushList_other {old new : Line} (h : old.state = .dirty ∨ new.state ≠ .dirty) : s.joinFlushList k old new = s :=
  if_neg fun ⟨hold, hnew⟩ => h.elim hold fun h => h hnew

theorem State.countStranded_other {old new : Line} (hold : old.state ≠ .stranded) (hnew : new.state ≠ .stranded) : s.countStranded old new = s := by
  rw [countStranded, if_neg fun h => hold h.1, if_neg fun h => hnew h.2]

/-- R8, R105: the part with flush `f` taken, its operation set up and one sample of the protect line counted. -/
def State.flushTaken (s : State) (u : Nat) (f : FlushEntry) (slot : Nat) (o : Operation) (sweep : Sweep) : State := { s with
  lines := SMap.set {} s.lines f.line { s.line f.line with state := .flushing, flushSource := some slot }
  refs := SMap.set 0 s.refs slot (s.refCount slot + 1)
  units := SMap.set {} s.units u { s.unit u with flushList := [], op := some o, sweep }
  protectSamples := s.protectSamples + 1 }

theorem State.flushTaken_unit (s : State) (u : Nat) (f : FlushEntry) (slot : Nat) (o : Operation) (sweep : Sweep) :
    (s.flushTaken u f slot o sweep).unit u = { s.unit u with flushList := [], op := some o, sweep } :=
  (unit_of_units (t := s.flushTaken u f slot o sweep) rfl u).trans (if_pos rfl)

/-- R8, R105, R125: the only line of a flush list is selected. -/
theorem State.startFlush_eq (hf : (s.unit u).flushList = [f]) (hl : (s.line f.line).state = .dirty) (hk : (s.line f.line).key = some f.key)
    (hu : f.key.unit = u) (hslot : (s.line f.line).currentSlot = some slot) {sweep : Sweep}
    (ho : o = { subject := .flush f.line, track := f.key.track, surface := f.key.surface, sector := some f.key.sector, deadline := s.now + 1000 }) :
    s.startFlush u f sweep = if s.protectLevel u then (s.flushTaken u f slot o (s.unit u).sweep).endOp u .writeProtected
      else (s.flushTaken u f slot o sweep).beginOp u o := by
  let new : Line := { s.line f.line with state := .flushing, flushSource := (s.line f.line).currentSlot }
  have hput : s.putLine f.line new = { s with
      lines := SMap.set {} s.lines f.line new, units := SMap.set {} s.units u { s.unit u with flushList := [] } } := by
    have hleave : (s.setLine f.line new).leaveFlushList f.line (s.line f.line) new
        = { s with lines := SMap.set {} s.lines f.line new, units := SMap.set {} s.units u { s.unit u with flushList := [] } } := by
      have hlist : (s.unit u).flushList.filter (·.line != f.line) = [] := by rw [hf]; simp
      rw [leaveFlushList, if_pos ⟨hl, by simp [new]⟩, hk]
      dsimp only
      rw [hu, updUnit_def]
      show State.setUnit _ u { s.unit u with flushList := (s.unit u).flushList.filter (·.line != f.line) } = _
      rw [hlist]
      rfl
    unfold putLine
    dsimp only
    rw [hleave, joinFlushList_other (by simp [hl]), countStranded_other (by simp [hl]) (by simp [new]), countDirty, hl]
    rfl
  let w : State := { s with lines := SMap.set {} s.lines f.line new, units := SMap.set {} s.units u { s.unit u with flushList := [] } }
  have htaken : ((w.takeRef slot).updUnit u (fun x => { x with op := some o })).countSample = s.flushTaken u f slot o (s.unit u).sweep := by
    have hwu : (w.takeRef slot).unit u = { s.unit u with flushList := [] } := (unit_of_units (t := w.takeRef slot) rfl u).trans (if_pos rfl)
    rw [updUnit_def, hwu]
    simp only [w, new, flushTaken, hslot, setUnit_eq, takeRef_eq, countSample, SMap.set_set]
    rfl
  have hsweep : (s.flushTaken u f slot o (s.unit u).sweep).updUnit u (fun x => { x with sweep }) = s.flushTaken u f slot o sweep := by
    rw [updUnit_def, flushTaken_unit]
    simp only [flushTaken, setUnit_eq, SMap.set_set]
  have hop : s.newOp (.flush f.line) f.key.track f.key.surface (some f.key.sector) = o := ho.symm
  unfold startFlush
  dsimp only
  rw [hput, hslot, hop]
  dsimp only
  show (if s.protectLevel u then State.endOp ((w.takeRef slot).updUnit u (fun x => { x with op := some o })).countSample u .writeProtected
    else (((w.takeRef slot).updUnit u (fun x => { x with op := some o })).countSample.updUnit u (fun x => { x with sweep })).beginOp u o) = _
  rw [htaken, hsweep]

/-! ### A flush that strands its line (R9, R84, R85) -/

theorem State.leaveFlushList_other {old new : Line} (h : old.state ≠ .dirty) : s.leaveFlushList k old new = s := if_neg fun hh => h hh.1

theorem State.putLine_strands {new : Line} (hl : (s.line k).state = .flushing) (hn : new.state = .stranded) (hk : new.key = some key)
    (hp : s.part ≠ .quiescing) : s.putLine k new = { s with
      lines := SMap.set {} s.lines k new
      units := SMap.set {} s.units key.unit { s.unit key.unit with stranded := (s.unit key.unit).stranded + 1 } } := by
  let t : State := { s with
    lines := SMap.set {} s.lines k new
    units := SMap.set {} s.units key.unit { s.unit key.unit with stranded := (s.unit key.unit).stranded + 1 } }
  have hcount : (s.setLine k new).countStranded (s.line k) new = t := by
    rw [countStranded, if_neg fun h => absurd (hl.symm.trans h.1) (by decide), if_pos ⟨by rw [hl]; decide, hn⟩, hk]
    dsimp only
    rw [updUnit_def]
    rfl
  have hdirty : t.countDirty (s.line k) new = t := by rw [countDirty, hl, hn]; rfl
  unfold putLine
  dsimp only
  rw [leaveFlushList_other (by rw [hl]; decide), joinFlushList_other (.inr (by rw [hn]; decide)), hcount, hdirty, noteQuiesce_of_ne (t := t) hp, ite_self]

theorem State.flushOutcome_strands {new : Line} (hl : (s.line k).state = .flushing) (hk : (s.line k).key = some key) (hw : s.slotWait = [])
    (hp : s.part ≠ .quiescing) (hnew : (s.line k).afterFlush (flushClass status) = new) (hn : new.state = .stranded) (hnk : new.key = some key) :
    s.flushOutcome k status = { s with
      lines := SMap.set {} s.lines k new, refs := refsWithout s.refs (s.line k).flushSource
      units := SMap.set {} s.units key.unit { s.unit key.unit with stranded := (s.unit key.unit).stranded + 1 }
      agenda := .stranded k status :: .retest key.unit :: .evictCheck k :: s.agenda } := by
  let t : State := s.soon [.stranded k status, .retest key.unit, .evictCheck k]
  let v : State := { t with
    lines := SMap.set {} s.lines k new
    units := SMap.set {} s.units key.unit { s.unit key.unit with stranded := (s.unit key.unit).stranded + 1 } }
  have hput : t.putLine k new = v := putLine_strands (s := t) hl hn hnk hp
  unfold flushOutcome
  dsimp only
  rw [if_pos (.inl hl), hnew, if_pos hn, hk]
  show (t.putLine k new).dropSlot (s.line k).flushSource = _
  rw [hput, dropSlot_eq (t := v) hw]
  rfl

/-- The part after a flush's line has been stranded, channel 0 told. -/
def State.strandedBy (s : State) (k : Nat) (status : Status) (key : Key) (new : Line) : State := { s with
  lines := SMap.set {} s.lines k new, refs := refsWithout s.refs (s.line k).flushSource
  units := SMap.set {} s.units key.unit { s.unit key.unit with stranded := (s.unit key.unit).stranded + 1 }
  channels := SMap.set {} s.channels 0 { s.channel 0 with
    backlog := (s.channel 0).backlog ++ [.lineStranded key status new.failures (new.dirtyEpoch.getD 0)] } }

/-- R9, R84, R85, R91: a flush strands its line; channel 0 is told, and no barrier and no request waits. -/
theorem State.RunsTo.flushStrands {ws : List Work} {new : Line} (hl : (s.line k).state = .flushing) (hk : (s.line k).key = some key)
    (hw : s.slotWait = []) (hp : s.part = .running) (hnew : (s.line k).afterFlush (flushClass status) = new) (hn : new.state = .stranded)
    (hnk : new.key = some key) (hc : (s.channel 0).state = .open) (hroom : (s.channel 0).backlog.length < 32)
    (hb : (s.unit key.unit).barriers = []) (hset : s.waiters (k / 4) = [])
    (h : RunsTo n ((s.strandedBy k status key new).setAgenda ws) t) : RunsTo (n + 4) (s.setAgenda (.flushOutcome k status :: ws)) t := by
  let v : State := { s with
    lines := SMap.set {} s.lines k new, refs := refsWithout s.refs (s.line k).flushSource
    units := SMap.set {} s.units key.unit { s.unit key.unit with stranded := (s.unit key.unit).stranded + 1 } }
  let w := s.strandedBy k status key new
  have hvk : v.line k = new := (line_of_lines (t := v) rfl k).trans (if_pos rfl)
  refine .cons ?_
  show RunsTo (n + 3) ((s.setAgenda ws).flushOutcome k status) t
  rw [flushOutcome_strands (s := s.setAgenda ws) hl hk hw (by show s.part ≠ _; rw [hp]; decide) hnew hn hnk]
  refine RunsTo.cons (s := v) (w := .stranded k status) (ws := .retest key.unit :: .evictCheck k :: ws) ?_
  have htell : (v.setAgenda (.retest key.unit :: .evictCheck k :: ws)).noteStranded k status
      = w.setAgenda (.retest key.unit :: .evictCheck k :: ws) := by
    have hline : (v.setAgenda (.retest key.unit :: .evictCheck k :: ws)).line k = new := hvk
    unfold noteStranded
    dsimp only
    rw [hline, hnk]
    exact queueNotice_room (s := v.setAgenda (.retest key.unit :: .evictCheck k :: ws)) (y := s.channel 0)
      (by show s.part ≠ _; rw [hp]; decide) rfl hc hroom _
  show RunsTo (n + 2) ((v.setAgenda (.retest key.unit :: .evictCheck k :: ws)).noteStranded k status) t
  rw [htell]
  have hretest : (w.setAgenda (.evictCheck k :: ws)).retest key.unit = w.setAgenda (.evictCheck k :: ws) := by
    have hunit : ((w.setAgenda (.evictCheck k :: ws)).unit key.unit).barriers = [] := by
      rw [unit_of_units (t := w.setAgenda (.evictCheck k :: ws)) rfl key.unit, if_pos rfl]
      exact hb
    rw [retest, hunit]
    rfl
  exact .idle (w := .retest key.unit) hretest (.idle (w := .evictCheck k) (evictCheck_nil (t := w.setAgenda ws) hset) h)

end Sys2Proof.Machine

namespace Sys2Proof.Proofs

open Sys2Proof Sys2Proof.Machine

/-- Settles O54: the class that the selection of a unit just risen takes, and what the operation begins with. -/
theorem selectionTakesTheFirstClass : Obligations.SelectionTakesTheFirstClass := by
  intro s u x told risen op started issued urgent hset hp hu hstate hop hseq hdisc hopen hroom
  let p := s.risen u
  have hpu : p.unit u = risen := s.risen_unit u
  have hstep : exec (.readyRise u) s = .next (p.setAgenda [.select u]).finish := exec_readyRise hset hp hu hstate hopen (by omega)
  have hsel : p.Selects u := ⟨hp, by rw [hpu]; exact hseq, by rw [hpu]; exact hop, by rw [hpu], by rw [hpu]; exact hdisc⟩
  have hurgent (f : FlushEntry) : p.IsUrgent u f ↔ urgent f := by
    unfold State.IsUrgent
    rw [hpu]
    exact Iff.rfl
  have hstarts {t : State} (ht : p.select u = t) (hnone : t.agenda = []) : exec (.readyRise u) s = .next t := by
    refine hstep.trans (congrArg _ ((State.RunsTo.cons (s := p) (w := .select u) (ws := []) (n := 0) ?_).finish rfl))
    have hp' : p.setAgenda [] = p := State.setAgenda_self hset
    show State.RunsTo 0 ((p.setAgenda []).select u) t
    rw [hp', ht]
    exact .nil hnone
  refine ⟨fun k rest key hf hfill hkey => ?_, fun e rest r hf hfill hsurvey hr => ?_, fun f slot hf hdirty hkey hunit hslot => ?_⟩
  · let o := op (.fill k) key.track key.surface (some key.sector)
    refine hstarts ?_ hset
    rw [hsel.fill (by rw [hpu]; exact fun f hmem hh => hf f hmem ((hurgent f).1 hh)) (by rw [hpu]; exact hfill),
      State.startFill_eq (s := p) (o := o) hkey rfl, hpu]
    simp only [p, State.risen, SMap.set_set]
    rfl
  · let o := op (.survey e) r.record.track.toNat r.record.surface.toNat none
    refine hstarts ?_ hset
    rw [hsel.survey (by rw [hpu]; exact fun f hmem hh => hf f hmem ((hurgent f).1 hh)) (by rw [hpu]; exact hfill) (by rw [hpu]; exact hsurvey),
      State.startSurvey_eq (s := p) (o := o) hr rfl, hpu]
    simp only [p, State.risen, SMap.set_set]
    rfl
  · intro o towards
    have hflush (hq : x.fillQueue = [] ∧ x.surveyQueue = [] ∨ urgent f) : p.select u = if s.protectLevel u
        then (p.flushTaken u f slot o x.sweep).endOp u .writeProtected else (p.flushTaken u f slot o towards).beginOp u o := by
      rw [hsel.flush (f := f) (by rw [hpu]; exact hf) (by rw [hpu]; exact hq.imp_right (hurgent f).2),
        State.startFlush_eq (s := p) (o := o) (by rw [hpu]; exact hf) hdirty hkey hunit hslot rfl, hpu]
      rfl
    refine ⟨fun hq => ?_, fun hfill hsurvey hb hwait hg hw hwaiters => ?_⟩
    · refine ⟨_, hstep, fun hprotect => ?_⟩
      let q := p.flushTaken u f slot o towards
      have hqu : q.unit u = { risen with flushList := [], op := some o, sweep := towards } := by rw [State.flushTaken_unit, hpu]
      have hbegin := hflush hq
      rw [hprotect, if_neg (by decide), State.beginOp_eq (s := q) (by rw [hqu]) (State.fresh_search rfl fun e h => by cases h), hqu] at hbegin
      refine Host.Outcome.next.inj (hstep.symm.trans (hstarts (hbegin.trans ?_) hset))
      simp only [q, p, State.flushTaken, State.risen, SMap.set_set]
      rfl
    · refine ⟨_, hstep, fun hprotect => ?_⟩
      let q := p.flushTaken u f slot o x.sweep
      let y : UnitRec := { risen with flushList := [], op := none, seq := .idle, writeGate := false, verifyPending := x.verifyPending || true }
      let v : State := { q with units := SMap.set {} q.units u y }
      let new : Line := { s.line f.line with state := .stranded, flushSource := none, sourceEpoch := none }
      have hqu : q.unit u = { risen with flushList := [], op := some o, sweep := x.sweep } := by rw [State.flushTaken_unit, hpu]
      have hvu : v.unit u = y := (State.unit_of_units (t := v) rfl u).trans (if_pos rfl)
      have hvk : v.line f.line = { s.line f.line with state := .flushing, flushSource := some slot } :=
        (State.line_of_lines (t := v) (m := s.lines) rfl f.line).trans (if_pos rfl)
      have hend : p.select u = v.setAgenda [.flushOutcome f.line .writeProtected, .select u] := by
        have hout : q.gateOutput u = s.outbox := by rw [State.gateOutput, hqu]; exact if_neg (Bool.eq_false_iff.1 hg)
        rw [hflush (.inl ⟨hfill, hsurvey⟩), hprotect, if_pos rfl, State.endOp_eq (s := q) (o := o) (by show s.part ≠ _; rw [hp]; decide)
          (by rw [hqu]) (by rw [hqu]; exact hwait.2), hout, hqu]
        show State.setAgenda _ ([Work.flushOutcome f.line .writeProtected, .select u] ++ s.agenda) = _
        rw [show s.agenda = [] from hset]
        rfl
      have hvc : v.channel 0 = { s.channel 0 with backlog := (s.channel 0).backlog ++ [Notice.unitReady u] } :=
        (State.channel_of_channels (t := v) rfl 0).trans (if_pos rfl)
      have hnew : (v.line f.line).afterFlush (flushClass .writeProtected) = new := by
        rw [hvk]
        rfl
      let t := v.strandedBy f.line .writeProtected f.key new
      have htu : t.unit f.key.unit = { y with stranded := y.stranded + 1 } := by
        rw [State.unit_of_units (t := t) rfl f.key.unit, if_pos rfl, hunit, hvu]
      have hfinish : (p.setAgenda [.select u]).finish = t := by
        refine (State.RunsTo.cons (s := p) (w := .select u) (ws := []) (n := 5) ?_).finish rfl
        have hp' : p.setAgenda [] = p := State.setAgenda_self hset
        show State.RunsTo 5 ((p.setAgenda []).select u) t
        rw [hp', hend]
        refine State.RunsTo.flushStrands (s := v) (n := 1) (by rw [hvk]) (by rw [hvk]; exact hkey) hw hp hnew rfl hkey (by rw [hvc]; exact hopen)
          (by rw [hvc, List.length_append, List.length_singleton]; omega) (by rw [hunit, hvu]; exact hb) hwaiters (.select ?_ (.done hset))
        show (t.unit u).workless
        rw [← hunit, htu]
        exact ⟨rfl, hfill, hsurvey⟩
      rw [hfinish]
      refine ⟨(State.line_of_lines (t := t) (m := v.lines) (x := new) rfl f.line).trans (if_pos rfl), fun j hj => ?_, fun n => ?_, rfl, ?_, ?_, rfl, rfl⟩
      · exact ((State.line_of_lines (t := t) (m := v.lines) (x := new) rfl j).trans (if_neg hj)).trans
          ((State.line_of_lines (t := v) (m := s.lines) (x := { s.line f.line with state := .flushing, flushSource := some slot }) rfl j).trans
            (if_neg hj))
      · have hq (n : Nat) : q.refCount n = if n = slot then s.refCount slot + 1 else s.refCount n := State.refCount_of_refs (t := q) rfl n
        have hrefs : t.refs = SMap.set 0 q.refs slot (q.refCount slot - 1) := by
          show refsWithout q.refs (v.line f.line).flushSource = _
          rw [hvk]
          rfl
        rw [State.refCount_of_refs hrefs n, hq slot, if_pos rfl]
        split
        · next hn => rw [hn]; rfl
        · next hn => exact (hq n).trans (if_neg hn)
      · rw [← hunit, htu]
        simp only [y, risen, hop, hseq, hg, Bool.or_true]
      · show SMap.set {} q.channels 0 { v.channel 0 with backlog := (v.channel 0).backlog ++ [_] } = _
        rw [hvc]
        simp only [q, p, State.flushTaken, State.risen, SMap.set_set, List.append_assoc]
        rfl

end Sys2Proof.Proofs
end

section
/-! PROOF. The end of a flush and the re-test of the barriers (R83 to R85, R91, R127). -/

namespace Sys2Proof.Machine

variable {s t p : State} {u e k n slot : Nat} {x y : UnitRec} {o : Operation} {r : Request} {status : Status} {key : Key} {b : Barrier}
  {bs : List Barrier}

/-! ### Members of a table that an update does not count -/

theorem SMap.filter_insert_of_neg {α : Type} {q : Nat × α → Bool} {k : Nat} {v : α} (m : SMap α) (h : q (k, v) = false) :
    (SMap.insert k v m).filter q = m.filter q := by
  induction m with
  | nil => exact List.filter_cons_of_neg (by simp [h])
  | cons b m ih =>
    rw [SMap.insert]
    split
    · exact List.filter_cons_of_neg (by simp [h])
    · rw [List.filter_cons, List.filter_cons, ih]

/-- An update between two values that a predicate does not hold of leaves what it holds of. -/
theorem SMap.filter_set_of_neg {α : Type} [DecidableEq α] {dflt : α} {q : Nat × α → Bool} {k : Nat} {v : α} {m : SMap α}
    (h : q (k, v) = false) (hm : ∀ p ∈ m, p.1 = k → q p = false) : (SMap.set dflt m k v).filter q = m.filter q := by
  have herase : (SMap.erase m k).filter q = m.filter q := by
    rw [SMap.erase, List.filter_filter]
    refine List.filter_congr fun p hp => ?_
    by_cases hk : p.1 = k
    · rw [hm p hp hk]; rfl
    · simp [hk]
  rw [SMap.set]
  split
  · exact herase
  · rw [filter_insert_of_neg _ h, herase]

/-! ### A line record replaced, in general (R11) -/

/-- `t` differs from `s` in nothing but the records of the units, the dirty count, pressure and the agenda. -/
def State.Bookkept (s t : State) : Prop := ∃ units d b w, t = { s with units, dirtyCount := d, pressure := b, agenda := w }

theorem State.Bookkept.refl (s : State) : s.Bookkept s := ⟨s.units, s.dirtyCount, s.pressure, s.agenda, rfl⟩

theorem State.Bookkept.trans (h : s.Bookkept t) (h' : t.Bookkept p) : s.Bookkept p := by
  obtain ⟨_, _, _, _, rfl⟩ := h
  obtain ⟨units, d, b, w, rfl⟩ := h'
  exact ⟨units, d, b, w, rfl⟩

theorem State.Bookkept.units (s : State) (units : SMap UnitRec) (w : List Work) : s.Bookkept { s with units, agenda := w } :=
  ⟨units, s.dirtyCount, s.pressure, w, rfl⟩

theorem State.leaveFlushList_bookkept (s : State) (k : Nat) (old new : Line) : s.Bookkept (s.leaveFlushList k old new) := by
  unfold leaveFlushList
  split
  · split
    · exact .units s _ s.agenda
    · exact .refl s
  · exact .refl s

theorem State.joinFlushList_bookkept (s : State) (k : Nat) (old new : Line) : s.Bookkept (s.joinFlushList k old new) := by
  unfold joinFlushList
  split
  · split
    · exact .units s _ _
    · exact .refl s
  · exact .refl s

theorem State.countStranded_bookkept (s : State) (old new : Line) : s.Bookkept (s.countStranded old new) := by
  unfold countStranded
  split
  · split
    · exact .units s _ s.agenda
    · exact .refl s
  · split
    · split
      · exact .units s _ s.agenda
      · exact .refl s
    · exact .refl s

theorem State.countDirty_bookkept (s : State) (old new : Line) : s.Bookkept (s.countDirty old new) := by
  obtain ⟨d, b, h⟩ := countDirty_frame s old new
  exact ⟨s.units, d, b, s.agenda, h⟩

theorem State.noteQuiesce_bookkept (s : State) : s.Bookkept s.noteQuiesce := by
  unfold noteQuiesce
  split
  · exact .units s s.units _
  · exact .refl s

/-- R11: what follows a line record replaced is bookkeeping. -/
theorem State.putLine_bookkept (s : State) (k : Nat) (new : Line) : (s.setLine k new).Bookkept (s.putLine k new) := by
  have hcounted := (((leaveFlushList_bookkept (s.setLine k new) k (s.line k) new).trans (joinFlushList_bookkept _ k (s.line k) new)).trans
    (countStranded_bookkept _ (s.line k) new)).trans (countDirty_bookkept _ (s.line k) new)
  unfold putLine
  dsimp only
  split
  · exact hcounted.trans (noteQuiesce_bookkept _)
  · exact hcounted

/-! ### Flush outcomes (R9, R83, R84) -/

/-- R83: the line's record after the outcome, the reference dropped, and otherwise bookkeeping. -/
theorem State.flushOutcome_bookkept (hl : (s.line k).state = .flushing ∨ (s.line k).state = .reflush) (hw : s.slotWait = []) :
    ({ s with
      lines := SMap.set {} s.lines k ((s.line k).afterFlush (flushClass status)), refs := refsWithout s.refs (s.line k).flushSource } : State).Bookkept
      (s.flushOutcome k status) := by
  let new := (s.line k).afterFlush (flushClass status)
  let q : State := s.soon ((if new.state = .stranded then [Work.stranded k status] else [])
    ++ [Work.retest (((s.line k).key.map Key.unit).getD 0), .evictCheck k])
  have hout : s.flushOutcome k status = (q.putLine k new).dropSlot (s.line k).flushSource := if_pos hl
  obtain ⟨units, d, b, w, hput⟩ := putLine_bookkept q k new
  rw [hout, hput, dropSlot_eq (by exact hw)]
  exact ⟨units, d, b, w, rfl⟩

/-- R9: a flush that succeeds out of FLUSHING leaves its line CLEAN. -/
theorem State.flushOutcome_cleans {new : Line} (hl : (s.line k).state = .flushing) (hk : (s.line k).key = some key) (hw : s.slotWait = [])
    (hp : s.part ≠ .quiescing)
    (hnew : new = { s.line k with state := .clean, flushSource := none, sourceEpoch := none, dirtyEpoch := none, failures := 0 }) :
    ∃ b, s.flushOutcome k .success = { s with
      lines := SMap.set {} s.lines k new, refs := refsWithout s.refs (s.line k).flushSource, dirtyCount := s.dirtyCount - 1, pressure := b
      agenda := .retest key.unit :: .evictCheck k :: s.agenda } := by
  let q : State := s.soon [.retest key.unit, .evictCheck k]
  have hafter : (s.line k).afterFlush (flushClass .success) = new := by
    rw [hnew]
    exact if_neg (by rw [hl]; decide)
  have hn : new.state = .clean := by rw [hnew]
  obtain ⟨b, hb⟩ := comparePressure_frame ((q.setLine k new).setDirtyCount (q.dirtyCount - 1))
  let v : State := { s with
    lines := SMap.set {} s.lines k new, dirtyCount := s.dirtyCount - 1, pressure := b, agenda := .retest key.unit :: .evictCheck k :: s.agenda }
  have hput : q.putLine k new = v := by
    have hlq : (q.line k).state = .flushing := hl
    rw [putLine_plain (s := q) (by rw [hlq]; decide) (by rw [hn]; decide) (.inl hp), countDirty, hlq, hn]
    exact hb
  refine ⟨b, ?_⟩
  unfold flushOutcome
  dsimp only
  rw [if_pos (.inl hl), hafter, if_neg (by rw [hn]; decide), hk]
  show (q.putLine k new).dropSlot (s.line k).flushSource = _
  rw [hput, dropSlot_eq (t := v) hw]

/-! ### The re-test of the barriers (R89, R91, R92) -/

theorem State.retest_nil (h : (s.unit u).barriers = []) : s.retest u = s := by
  rw [retest, h]
  rfl

theorem State.retest_waits (h : (s.unit u).barriers = b :: bs) (hw : s.barrierWaits u b.epoch = true) : s.retest u = s := by
  rw [retest, h, retestList]
  exact if_pos hw

/-- R91: the oldest barrier completes and leaves its list; the re-test goes on. -/
theorem State.retest_completes (h : (s.unit u).barriers = b :: bs) (hw : s.barrierWaits u b.epoch = false) (hc : p.Completes b.entry r)
    (ht : s.table = p.table) (hch : s.channels = p.channels) : s.retest u = State.retest { s with
      table := (p.completed b.entry r (s.flushCompletion u b.epoch)).table, channels := (p.completed b.entry r (s.flushCompletion u b.epoch)).channels
      units := SMap.set {} s.units u { s.unit u with barriers := bs } } u := by
  let v : State := { s with
      table := (p.completed b.entry r (s.flushCompletion u b.epoch)).table, channels := (p.completed b.entry r (s.flushCompletion u b.epoch)).channels
      units := SMap.set {} s.units u { s.unit u with barriers := bs } }
  have hv : (v.unit u).barriers = bs := by rw [unit_of_units (t := v) rfl u, if_pos rfl]
  have hdone : (s.updUnit u (fun x => { x with barriers := bs })).complete b.entry (s.flushCompletion u b.epoch) = v := by
    rw [updUnit_def, hc.complete_like (t := s.setUnit u _) _ ht hch]
    rfl
  show s.retest u = v.retest u
  rw [retest, h, retestList, if_neg (by rw [hw]; decide), retest, hv]
  exact congrArg (retestList u bs) hdone

/-- R89: which lines make a barrier wait. -/
theorem State.barrierWaits_iff (s : State) (u : Nat) (e : Epoch) : s.barrierWaits u e = true ↔
    ∃ p ∈ s.lines, ∃ key d, p.2.key = some key ∧ key.unit = u ∧ EpochAtMost d e
      ∧ ((p.2.state = .dirty ∨ p.2.state = .flushing ∨ p.2.state = .reflush) ∧ p.2.dirtyEpoch = some d
        ∨ p.2.state = .reflush ∧ p.2.sourceEpoch = some d) := by
  rw [barrierWaits, List.any_eq_true]
  refine exists_congr fun p => and_congr_right fun _ => ?_
  have hepoch (o : Option Epoch) : o.any (fun d => epochAtMost d e) = true ↔ ∃ d, o = some d ∧ EpochAtMost d e := by
    simp [Option.any_eq_true, epochAtMost]
  have hunit : p.2.key.any (·.unit == u) = true ↔ ∃ key, p.2.key = some key ∧ key.unit = u := by simp [Option.any_eq_true]
  unfold Line.delays Line.coveredBy
  rw [Bool.and_eq_true, hunit]
  have hplain : ((∃ key, p.2.key = some key ∧ key.unit = u) ∧ ∃ d, p.2.dirtyEpoch = some d ∧ EpochAtMost d e)
      ↔ ∃ key d, p.2.key = some key ∧ key.unit = u ∧ EpochAtMost d e ∧ p.2.dirtyEpoch = some d :=
    ⟨fun ⟨⟨key, hk, hu⟩, d, hd, he⟩ => ⟨key, d, hk, hu, he, hd⟩, fun ⟨key, d, hk, hu, he, hd⟩ => ⟨⟨key, hk, hu⟩, d, hd, he⟩⟩
  cases p.2.state <;> simp only [hepoch, Bool.or_eq_true, reduceCtorEq, Bool.false_eq_true, false_and, true_and, or_false, false_or, and_false,
    exists_false]
  · exact hplain
  · exact hplain
  · constructor
    · rintro ⟨⟨key, hk, hu⟩, ⟨d, hd, he⟩ | ⟨d, hd, he⟩⟩
      · exact ⟨key, d, hk, hu, he, .inl hd⟩
      · exact ⟨key, d, hk, hu, he, .inr hd⟩
    · rintro ⟨key, d, hk, hu, he, hd⟩
      exact ⟨⟨key, hk, hu⟩, hd.imp (⟨d, ·, he⟩) (⟨d, ·, he⟩)⟩

/-! ### The unit's answer (R102, R127) -/

theorem UnitRec.opEnded_success (x : UnitRec) : x.opEnded .success = { x with op := none, seq := .idle, writeGate := false } := by
  rw [opEnded, bne_self_eq_false, Bool.or_false]

theorem UnitRec.opEnded_failed (h : status ≠ .success) :
    x.opEnded status = { x with op := none, seq := .idle, writeGate := false, verifyPending := true } := by
  rw [opEnded, bne_iff_ne.2 h, Bool.or_true]

theorem State.onWriteAnswer_eq (hset : s.Settled) (hp : s.part ≠ .failed) (hd : (s.unit u).discard = none) (ho : (s.unit u).op = some o)
    (hq : (s.unit u).seq = .transferring) (hs : o.subject = .flush k) (status : Status) : s.onWriteAnswer u status
      = ({ s with units := SMap.set {} s.units u ((s.unit u).opEnded status), outbox := s.gateOutput u } : State).setAgenda
        [.flushOutcome k status, .select u] := by
  have hanswer : s.onWriteAnswer u status = s.endOp u status := by
    unfold onWriteAnswer
    rw [hq, ho]
    dsimp only
    rw [hs]
  rw [hanswer, endOp_eq hp ho hd, report, hs]
  show State.setAgenda _ ([Work.flushOutcome k status, .select u] ++ s.agenda) = _
  rw [show s.agenda = [] from hset]
  rfl

end Sys2Proof.Machine

namespace Sys2Proof.Proofs

open Sys2Proof Sys2Proof.Machine

/-- Settles O51: WB's bookkeeping for each outcome, the re-test one barrier at a time, and the ends of a flush as they run through both. -/
theorem flushEndsByTheUnitsAnswer : Obligations.FlushEndsByTheUnitsAnswer := by
  refine ⟨?_, ?_, ?_, fun s u h => State.retest_nil h, ?_⟩
  · intro s u k slot o key params x ln hset hp hd ho hq hs hw hwait hb hgate hl hk hunit hslot hsw hset' hparams
    have hpart : s.part ≠ .failed := by rw [hp]; decide
    have hout : s.gateOutput u = .writeGateOff u :: s.outbox := if_pos hgate
    let v (status : Status) : State := { s with units := SMap.set {} s.units u (x.opEnded status), outbox := s.gateOutput u }
    have hanswer (status : Status) : s.onWriteAnswer u status = (v status).setAgenda [.flushOutcome k status, .select u] :=
      State.onWriteAnswer_eq hset hpart hwait.2 ho hq hs status
    have hvu (status : Status) : (v status).unit u = x.opEnded status := (State.unit_of_units (t := v status) rfl u).trans (if_pos rfl)
    refine ⟨?_, fun hfailures hc hroom => ?_⟩
    · let new : Line := { ln with state := .clean, flushSource := none, sourceEpoch := none, dirtyEpoch := none, failures := 0 }
      obtain ⟨pressed, hclean⟩ := State.flushOutcome_cleans (s := (v .success).setAgenda [.select u]) (new := new) hl hk hsw
        (by show s.part ≠ _; rw [hp]; decide) rfl
      let w : State := { v .success with
        lines := SMap.set {} s.lines k new, refs := refsWithout s.refs ln.flushSource, dirtyCount := s.dirtyCount - 1, pressure := pressed }
      have hwu : w.unit u = x.opEnded .success := hvu .success
      have hrun : State.RunsTo 4 ((v .success).setAgenda [.flushOutcome k .success, .select u]) w := by
        refine .cons ?_
        show State.RunsTo 3 (((v .success).setAgenda [.select u]).flushOutcome k .success) w
        rw [hclean]
        refine State.RunsTo.idle (s := w) (w := .retest key.unit) (State.retest_nil ?_)
          (.idle (w := .evictCheck k) (State.evictCheck_nil (t := w.setAgenda [.select u]) hset') (.select ?_ (.done hset)))
        · rw [hunit]
          show (w.unit u).barriers = []
          rw [hwu]; exact hb
        · rw [hwu]; exact hw
      have hexec : exec (.writeDone u) s = .next (s.onWriteAnswer u .success).finish := if_pos (State.acts_of_ne hpart hd)
      refine ⟨w, hexec.trans (congrArg _ (by rw [hanswer]; exact hrun.finish rfl)), (State.line_of_lines (t := w) rfl k).trans (if_pos rfl),
        fun j hj => (State.line_of_lines (t := w) (x := new) rfl j).trans (if_neg hj), ?_, ?_, rfl, hout, rfl, rfl⟩
      · rw [hwu, UnitRec.opEnded_success]
      · have hrefs : w.refs = SMap.set 0 s.refs slot (s.refCount slot - 1) := congrArg (refsWithout s.refs) hslot
        exact (State.refCount_of_refs hrefs slot).trans (if_pos rfl)
    · let new : Line := { ln with state := .stranded, flushSource := none, sourceEpoch := none, failures := 3 }
      have hnew : ln.afterFlush (flushClass .writeFault) = new := by
        have hunflushed : ln.unflushedEpoch = ln.dirtyEpoch := if_neg (by rw [hl]; decide)
        show { ln with flushSource := none, sourceEpoch := none, state := if ln.failures + 1 < 3 then _ else _, failures := ln.failures + 1,
                       dirtyEpoch := ln.unflushedEpoch } = new
        rw [hunflushed, hfailures]
        rfl
      let t := (v .writeFault).strandedBy k .writeFault key new
      have htu : t.unit u = { x.opEnded .writeFault with stranded := x.stranded + 1 } := by
        rw [State.unit_of_units (t := t) rfl u, if_pos hunit.symm, hunit, hvu]
        rfl
      have hrun : State.RunsTo 5 ((v .writeFault).setAgenda [.flushOutcome k .writeFault, .select u]) t := by
        refine State.RunsTo.flushStrands (s := v .writeFault) (n := 1) hl hk hsw hp hnew rfl hk hc hroom ?_ hset' (.select ?_ (.done hset))
        · rw [hunit, hvu]; exact hb
        · show (t.unit u).workless
          rw [htu]; exact hw
      have hexec : exec (.writeFault u) s = .next (s.onWriteAnswer u .writeFault).finish := if_pos (State.acts_of_ne hpart hd)
      refine ⟨t, hexec.trans (congrArg _ (by rw [hanswer]; exact hrun.finish rfl)), (State.line_of_lines (t := t) (x := new) rfl k).trans (if_pos rfl),
        fun j hj => (State.line_of_lines (t := t) (x := new) rfl j).trans (if_neg hj), ?_, (State.channel_of_channels (t := t) rfl 0).trans (if_pos rfl),
        rfl, hout⟩
      rw [htu, UnitRec.opEnded_failed (by decide)]
  · intro s u k slot o key b r x ln counted hp hd ho hq hs hw hwait hb hr hplace hl hk hunit hslot hsw hset' hwf hothers
    have hpart : s.part ≠ .failed := by rw [hp]; decide
    let c : Completion := { status := if counted = 0 then .success else .incomplete, count := counted, epoch := b.epoch }
    let v : State := { s with units := SMap.set {} s.units u (x.opEnded .success), outbox := s.gateOutput u }
    let new : Line := { ln with state := .clean, flushSource := none, sourceEpoch := none, dirtyEpoch := none, failures := 0 }
    obtain ⟨pressed, hclean⟩ := State.flushOutcome_cleans (s := v.setAgenda [.select u]) (new := new) hl hk hsw
      (by show s.part ≠ _; rw [hp]; decide) rfl
    let w : State := { v with
      lines := SMap.set {} s.lines k new, refs := refsWithout s.refs ln.flushSource, dirtyCount := s.dirtyCount - 1, pressure := pressed }
    let y : UnitRec := { x.opEnded .success with barriers := [] }
    let z : State := { w with
      table := (s.completed b.entry r c).table, channels := (s.completed b.entry r c).channels, units := SMap.set {} w.units u y }
    have hwu : w.unit u = x.opEnded .success := (State.unit_of_units (t := w) (m := s.units) rfl u).trans (if_pos rfl)
    have hzu : z.unit u = y := (State.unit_of_units (t := z) rfl u).trans (if_pos rfl)
    have hkept : ∀ p ∈ s.lines, p.1 = k → p.2 = ln := fun ⟨j, l⟩ hmem hj => by
      obtain rfl : j = k := hj
      exact (((SMap.mem_iff {} hwf j l).1 hmem).1).symm
    have hcount : w.strandedUnder u b.epoch = counted := by
      refine congrArg List.length (SMap.filter_set_of_neg (dflt := {}) (k := k) (v := new) (m := s.lines)
        (q := fun p : Nat × Line => p.2.state == .stranded && p.2.key.any (·.unit == u) && p.2.coveredBy b.epoch) rfl fun p hmem hj => ?_)
      rw [hkept p hmem hj, show ln.state = _ from hl]
      rfl
    have hwaits : w.barrierWaits u b.epoch = false := by
      refine Bool.eq_false_iff.2 fun h => ?_
      obtain ⟨⟨j, l⟩, hmem, key', d, hkey', hunit', -, hstate⟩ := (w.barrierWaits_iff u b.epoch).1 h
      have hget := ((SMap.mem_iff {} (SMap.wf_set {} s.lines k new hwf) j l).1 hmem).1
      rw [SMap.get_set] at hget
      split at hget
      · rw [← hget] at hstate
        rcases hstate with ⟨h | h | h, -⟩ | ⟨h, -⟩ <;> cases h
      · next hj =>
        obtain hmem' | hmem' := SMap.mem_set (dflt := {}) (k := k) (v := new) (m := s.lines) hmem
        · exact hj (congrArg Prod.fst hmem')
        · obtain ⟨h1, h2, h3⟩ := hothers (j, l) hmem' hj (by
            show l.key.any (·.unit == u) = true
            rw [show l.key = some key' from hkey', Option.any_some, hunit', beq_self_eq_true])
          rcases hstate with ⟨h | h | h, -⟩ | ⟨h, -⟩
          · exact h1 h
          · exact h2 h
          · exact h3 h
          · exact h3 h
    have hretest : (w.setAgenda [.evictCheck k, .select u]).retest u = z.setAgenda [.evictCheck k, .select u] := by
      have hcompletion : (w.setAgenda [.evictCheck k, .select u]).flushCompletion u b.epoch = c := by
        show ({ status := if w.strandedUnder u b.epoch = 0 then _ else _, count := w.strandedUnder u b.epoch, epoch := b.epoch } : Completion) = c
        rw [hcount]
      rw [State.retest_completes (s := w.setAgenda [.evictCheck k, .select u]) (p := s) (bs := []) (by show (w.unit u).barriers = _; rw [hwu]; exact hb)
        hwaits hr rfl rfl, hcompletion]
      have hsame : ({ (w.setAgenda [.evictCheck k, .select u]).unit u with barriers := [] } : UnitRec) = y := by
        show ({ w.unit u with barriers := [] } : UnitRec) = y
        rw [hwu]
      rw [hsame]
      exact State.retest_nil (s := z.setAgenda [.evictCheck k, .select u]) (by show (z.unit u).barriers = _; rw [hzu])
    have hrun : State.RunsTo 4 (v.setAgenda [.flushOutcome k .success, .select u]) z := by
      refine .cons ?_
      show State.RunsTo 3 ((v.setAgenda [.select u]).flushOutcome k .success) z
      rw [hclean, hunit]
      refine State.RunsTo.cons (s := w) (w := .retest u) (ws := [.evictCheck k, .select u]) ?_
      show State.RunsTo 2 ((w.setAgenda [.evictCheck k, .select u]).retest u) z
      rw [hretest]
      exact .idle (w := .evictCheck k) (State.evictCheck_nil (t := z.setAgenda [.select u]) hset') (.select (by rw [hzu]; exact hw) (.done hr.settled))
    have hexec : exec (.writeDone u) s = .next (s.onWriteAnswer u .success).finish := if_pos (State.acts_of_ne hpart hd)
    refine ⟨z, hexec.trans (congrArg _ ?_), (State.line_of_lines (t := z) (x := new) rfl k).trans (if_pos rfl),
      fun j hj => (State.line_of_lines (t := z) (x := new) rfl j).trans (if_neg hj), ?_, rfl, rfl⟩
    · rw [State.onWriteAnswer_eq hr.settled hpart hwait.2 ho hq hs .success]
      exact hrun.finish rfl
    · rw [hzu]
      exact congrArg (fun x : UnitRec => { x with barriers := [] }) x.opEnded_success
  · intro s u b bs r counted delayed hb hr
    refine ⟨fun h => State.retest_waits hb ((s.barrierWaits_iff u b.epoch).2 h), fun h => ?_⟩
    exact State.retest_completes hb (Bool.eq_false_iff.2 fun hw => h ((s.barrierWaits_iff u b.epoch).1 hw)) hr rfl rfl
  · intro s k slot status ln t ended unflushed hl hsw hslot
    obtain ⟨units, d, b, w, hout⟩ := State.flushOutcome_bookkept (s := s) (status := status) hl hsw
    have hline (j : Nat) : t.line j = if j = k then ln.afterFlush (flushClass status) else s.line j :=
      State.line_of_lines (t := t) (by rw [show t = _ from hout]) j
    have hlk : t.line k = ln.afterFlush (flushClass status) := (hline k).trans (if_pos rfl)
    refine ⟨?_, fun j hj => (hline j).trans (if_neg hj), ?_, ?_, ?_, ?_⟩
    · have hrefs : t.refs = SMap.set 0 s.refs slot (s.refCount slot - 1) := by
        rw [show t = _ from hout]
        show refsWithout s.refs ln.flushSource = _
        rw [hslot]
        rfl
      exact (State.refCount_of_refs hrefs slot).trans (if_pos rfl)
    · rintro rfl
      exact hlk
    · rintro rfl
      exact hlk
    · rintro rfl
      exact hlk
    · intro hsuccess hprotected hready
      have hclass : flushClass status = .counted := by
        cases status <;> first | rfl | contradiction
      exact hlk.trans (congrArg ln.afterFlush hclass)

end Sys2Proof.Proofs
end

section
/-! PROOF. READY_RISE and READY_FALL (R99, R112, R113). -/

namespace Sys2Proof.Machine

variable {s t p : State} {u e k n a b slot : Nat} {x y : UnitRec} {o : Operation} {q r : Request} {status : Status} {key : Key} {c : Completion}

/-! ### The fall (R112) -/

/-- The record of a unit that has fallen from READY, apart from its operation. -/
def UnitRec.fallen (x : UnitRec) : UnitRec := { x with
  readyLine := false, state := .notReady, fillQueue := [], surveyQueue := []
  believed := none, lastHeader := none, selectedSurface := none, verifyPending := true }

/-- R112: what the fall tells RT and channel 0 of the queued requests. -/
def UnitRec.fallWork (x : UnitRec) (u : Nat) : List Work :=
  x.fillQueue.map (fun k => Work.fillOutcome k .unitNotReady .data) ++ x.surveyQueue.map (fun e => Work.endParked e .unitNotReady)
    ++ [Work.notice 0 (.unitNotReady u)]

theorem exec_readyFall (hp : s.part = .running) (hu : u < 4) (hx : (s.unit u).state = .ready) :
    exec (.readyFall u) s = .next ((s.updUnit u (fun y => { y with readyLine := false })).fallFromReady u).finish := by
  have hacts : s.acts u = true := State.acts_of_ne (by rw [hp]; decide) (by rw [hx]; decide)
  have hfall : s.onReadyFall u = (s.updUnit u (fun y => { y with readyLine := false })).fallFromReady u := if_pos ⟨hx, hacts⟩
  have hexec : exec (.readyFall u) s = .next (s.onReadyFall u).finish := if_pos hu
  rw [hexec, hfall]

/-- A unit that has fallen, before its operation ends: the queues are handed back. -/
def State.falling (s : State) (u : Nat) : State := { s with
  units := SMap.set {} s.units u { s.unit u with readyLine := false, state := .notReady, fillQueue := [], surveyQueue := [] }
  agenda := (s.unit u).fallWork u }

theorem State.falling_unit (s : State) (u : Nat) :
    (s.falling u).unit u = { s.unit u with readyLine := false, state := .notReady, fillQueue := [], surveyQueue := [] } :=
  (unit_of_units (t := s.falling u) rfl u).trans (if_pos rfl)

theorem State.fallFromReady_eq (hset : s.Settled) (hp : s.part = .running) : (s.updUnit u (fun y => { y with readyLine := false })).fallFromReady u
    = (((s.falling u).endOp u .unitNotReady).updUnit u (fun y => { y with
        believed := none, lastHeader := none, selectedSurface := none, verifyPending := true })).noteQuiesce := by
  let y : UnitRec := { s.unit u with readyLine := false, state := .notReady, fillQueue := [], surveyQueue := [] }
  have htell : (s.setUnit u y).tellFall u (s.unit u).fillQueue (s.unit u).surveyQueue = s.falling u := by
    have hpart : (s.setUnit u y).part ≠ .failed := by show s.part ≠ _; rw [hp]; decide
    rw [tellFall, if_neg hpart, soon_eq]
    show { s.setUnit u y with agenda := (s.unit u).fallWork u ++ s.agenda } = _
    rw [show s.agenda = [] from hset, List.append_nil]
    rfl
  have hunit : (s.setUnit u { s.unit u with readyLine := false }).unit u = { s.unit u with readyLine := false } := by simp
  rw [updUnit_def]
  unfold fallFromReady
  dsimp only
  rw [setUnit_updUnit, hunit]
  exact congrArg (fun t : State => ((t.endOp u .unitNotReady).updUnit u (fun y => { y with
    believed := none, lastHeader := none, selectedSurface := none, verifyPending := true })).noteQuiesce) htell

/-- R112: the fall of a unit without an operation in flight. -/
theorem State.fall_idle (hset : s.Settled) (hp : s.part = .running) (ho : (s.unit u).op = none) :
    (s.updUnit u (fun y => { y with readyLine := false })).fallFromReady u
      = ({ s with units := SMap.set {} s.units u (s.unit u).fallen } : State).setAgenda ((s.unit u).fallWork u) := by
  have hend : (s.falling u).endOp u .unitNotReady = s.falling u := by
    have hop : ((s.falling u).unit u).op = none := by rw [falling_unit]; exact ho
    rw [endOp, hop]
  rw [fallFromReady_eq hset hp, hend, updUnit_def, falling_unit, noteQuiesce_of_ne (by show s.part ≠ _; rw [hp]; decide)]
  simp only [falling, setUnit_eq, SMap.set_set]
  rfl

/-- R112: the fall of a unit with an operation in flight, which ends first. -/
theorem State.fall_busy (hset : s.Settled) (hp : s.part = .running) (ho : (s.unit u).op = some o) (hd : (s.unit u).discard = none) {w : List Work}
    (hw : ∀ t : State, t.report u o .unitNotReady .data = t.soon w) : (s.updUnit u (fun y => { y with readyLine := false })).fallFromReady u
      = ({ s with
          units := SMap.set {} s.units u { (s.unit u).fallen with op := none, seq := .idle, writeGate := false }
          outbox := s.gateOutput u } : State).setAgenda (w ++ (s.unit u).fallWork u) := by
  let y := ((s.falling u).unit u).opEnded .unitNotReady
  let v : State := { s with units := SMap.set {} s.units u y, outbox := s.gateOutput u, agenda := w ++ (s.unit u).fallWork u }
  have hout : (s.falling u).gateOutput u = s.gateOutput u := by
    rw [gateOutput, falling_unit]
    rfl
  have hend : (s.falling u).endOp u .unitNotReady = v := by
    rw [endOp_eq (s := s.falling u) (o := o) (by show s.part ≠ _; rw [hp]; decide) (by rw [falling_unit]; exact ho) (by rw [falling_unit]; exact hd),
      hw, hout, soon_eq]
    simp only [v, falling, setUnit_eq, SMap.set_set]
    rfl
  have hvu : v.unit u = y := (unit_of_units (t := v) rfl u).trans (if_pos rfl)
  rw [fallFromReady_eq hset hp, hend, updUnit_def, hvu, noteQuiesce_of_ne (by show s.part ≠ _; rw [hp]; decide)]
  simp only [v, y, falling_unit, setUnit_eq, SMap.set_set]
  rfl

/-! ### What follows a fall -/

/-- R105: a unit that is not READY selects nothing. -/
theorem State.select_unready (h : (s.unit u).state ≠ .ready) : s.select u = s := by
  have hmay : s.maySelect u = false := by
    unfold maySelect
    simp [h]
  rw [select, hmay]
  rfl

theorem State.RunsTo.selectUnready {ws : List Work} (hu : (s.unit u).state ≠ .ready) (h : RunsTo n (s.setAgenda ws) t) :
    RunsTo (n + 1) (s.setAgenda (.select u :: ws)) t := .idle (select_unready (s := s.setAgenda ws) hu) h

/-- The part after a notice has joined channel 0's backlog. -/
def State.told (s : State) (m : Notice) : State := { s with
  channels := SMap.set {} s.channels 0 { s.channel 0 with backlog := (s.channel 0).backlog ++ [m] } }

@[simp] theorem State.told_units (s : State) (m : Notice) : (s.told m).units = s.units := rfl
@[simp] theorem State.told_lines (s : State) (m : Notice) : (s.told m).lines = s.lines := rfl
@[simp] theorem State.told_table (s : State) (m : Notice) : (s.told m).table = s.table := rfl
@[simp] theorem State.told_dirtyCount (s : State) (m : Notice) : (s.told m).dirtyCount = s.dirtyCount := rfl
@[simp] theorem State.told_outbox (s : State) (m : Notice) : (s.told m).outbox = s.outbox := rfl
@[simp] theorem State.told_agenda (s : State) (m : Notice) : (s.told m).agenda = s.agenda := rfl
@[simp] theorem State.completed_agenda (s : State) (e : Nat) (r : Request) (c : Completion) : (s.completed e r c).agenda = s.agenda := rfl
@[simp] theorem State.completed_units (s : State) (e : Nat) (r : Request) (c : Completion) : (s.completed e r c).units = s.units := rfl
@[simp] theorem State.completed_lines (s : State) (e : Nat) (r : Request) (c : Completion) : (s.completed e r c).lines = s.lines := rfl
@[simp] theorem State.completed_dirtyCount (s : State) (e : Nat) (r : Request) (c : Completion) : (s.completed e r c).dirtyCount = s.dirtyCount := rfl
@[simp] theorem State.completed_outbox (s : State) (e : Nat) (r : Request) (c : Completion) : (s.completed e r c).outbox = s.outbox := rfl

theorem State.told_channel (s : State) (m : Notice) :
    (s.told m).channel 0 = { s.channel 0 with backlog := (s.channel 0).backlog ++ [m] } :=
  (channel_of_channels (t := s.told m) rfl 0).trans (if_pos rfl)

theorem State.RunsTo.notice {ws : List Work} {m : Notice} (hp : s.part = .running) (ho : (s.channel 0).state = .open)
    (hroom : (s.channel 0).backlog.length < 32) (h : RunsTo n ((s.told m).setAgenda ws) t) :
    RunsTo (n + 1) (s.setAgenda (.notice 0 m :: ws)) t := by
  refine .cons ?_
  show RunsTo n ((s.setAgenda ws).queueNotice 0 m) t
  rw [queueNotice_room (s := s.setAgenda ws) (y := s.channel 0) (by show s.part ≠ _; rw [hp]; decide) rfl ho hroom]
  exact h

/-- A completion leaves what the completion of another request turns on. -/
theorem State.Completes.beside (_ : s.Completes a q) (hb : s.Completes b r) (hne : b ≠ a) (ht : t.table = (s.completed a q c).table)
    (hc : t.channels = (s.completed a q c).channels) (hset : t.Settled) : t.Completes b r := by
  have hchannel (d : Nat) : (t.channel d).postError = (s.channel d).postError ∧ (t.channel d).fetchHold = (s.channel d).fetchHold := by
    rw [channel_of_channels (t := t) hc d]
    split
    · next hd => rw [hd]; exact ⟨rfl, rfl⟩
    · exact ⟨rfl, rfl⟩
  have htable : t.table = SMap.set none s.table a (some (q.ended c)) := ht
  refine ⟨?_, hb.undone, (hchannel _).1.trans hb.posts, (hchannel _).2.trans hb.clear, hset⟩
  rw [request_of_table htable b, if_neg hne]
  exact hb.held

theorem State.completed_notices (s : State) (e : Nat) (r : Request) (c : Completion) (d : Nat) :
    ((s.completed e r c).channel d).state = (s.channel d).state ∧ ((s.completed e r c).channel d).backlog = (s.channel d).backlog := by
  rw [channel_of_channels (t := s.completed e r c) rfl d]
  split
  · next hd => rw [hd]; exact ⟨rfl, rfl⟩
  · exact ⟨rfl, rfl⟩

/-- R112: a queued SURVEY ends, its unit's queue emptied before. -/
theorem State.endParked_survey {units : SMap UnitRec} (h : p.Completes e r) (hp : r.place = .parked .surveyQueue) (hu : r.record.unit = u)
    (hx : s.units = SMap.set {} units u x) (hq : x.surveyQueue = []) (ht : s.table = p.table) (hc : s.channels = p.channels) :
    s.endParked e status = { s with
      table := (p.completed e r { status }).table, channels := (p.completed e r { status }).channels } := by
  have hunit : s.unit u = x := (unit_of_units (t := s) hx u).trans (if_pos rfl)
  have hdepart : s.depart e r = s := by
    have hsame : SMap.set {} s.units u { x with surveyQueue := leaveList e x.surveyQueue } = s.units := by
      have hleave : ({ x with surveyQueue := leaveList e x.surveyQueue } : UnitRec) = x := by
        obtain ⟨⟩ := x
        obtain rfl := hq
        rfl
      rw [hleave, hx, SMap.set_set]
    unfold depart
    rw [hp]
    dsimp only
    rw [hu, updUnit_def, hunit, setUnit_eq, hsame]
  have hepoch : s.barrierEpoch e r = 0 := by
    unfold barrierEpoch
    rw [hp]
  have hparked : r.isParked = true := by rw [Request.isParked, hp]
  have hheld : s.request e = some r := by rw [request, ht]; exact h.held
  unfold endParked
  rw [hheld]
  dsimp only
  rw [if_pos hparked, hdepart, hepoch]
  exact h.complete_like (t := s) _ ht hc

/-- R9: a flush that its unit's fall has ended leaves its line DIRTY again, on the flush list. -/
theorem State.flushOutcome_requeues {new : Line} (hl : (s.line k).state = .flushing) (hk : (s.line k).key = some key) (hw : s.slotWait = [])
    (hnew : new = { s.line k with state := .dirty, flushSource := none, sourceEpoch := none }) : s.flushOutcome k .unitNotReady = { s with
      lines := SMap.set {} s.lines k new, refs := refsWithout s.refs (s.line k).flushSource
      units := SMap.set {} s.units key.unit { s.unit key.unit with
        flushList := insertBy FlushEntry.before ⟨k, key⟩ (s.unit key.unit).flushList }
      agenda := .retest key.unit :: .evictCheck k :: (s.agenda ++ [.select key.unit]) } := by
  let q : State := s.soon [.retest key.unit, .evictCheck k]
  let v : State := { s with
      lines := SMap.set {} s.lines k new
      units := SMap.set {} s.units key.unit { s.unit key.unit with
        flushList := insertBy FlushEntry.before ⟨k, key⟩ (s.unit key.unit).flushList }
      agenda := .retest key.unit :: .evictCheck k :: (s.agenda ++ [.select key.unit]) }
  have hn : new.state = .dirty := by rw [hnew]
  have hnk : new.key = some key := by rw [hnew]; exact hk
  have hafter : (s.line k).afterFlush (flushClass .unitNotReady) = new := by
    have hunflushed : (s.line k).unflushedEpoch = (s.line k).dirtyEpoch := if_neg (by rw [hl]; decide)
    rw [hnew]
    show { s.line k with flushSource := none, sourceEpoch := none, state := .dirty, dirtyEpoch := (s.line k).unflushedEpoch } = _
    rw [hunflushed]
  have hput : q.putLine k new = v := by
    have hlq : (q.line k).state = .flushing := hl
    have hjoin : (q.setLine k new).joinFlushList k (q.line k) new = v := by
      rw [joinFlushList, if_pos ⟨by rw [hlq]; decide, hn⟩, hnk]
      dsimp only
      rw [updUnit_def, later_eq]
      rfl
    have hdirty : v.countDirty (q.line k) new = v := by rw [countDirty, hlq, hn]; rfl
    unfold putLine
    dsimp only
    rw [leaveFlushList_other (by rw [hlq]; decide), hjoin, countStranded_other (by rw [hlq]; decide) (by rw [hn]; decide), hdirty, hlq, hn]
    rfl
  unfold flushOutcome
  dsimp only
  rw [if_pos (.inl hl), hafter, if_neg (by rw [hn]; decide), hk]
  show (q.putLine k new).dropSlot (s.line k).flushSource = _
  rw [hput, dropSlot_eq (t := v) hw]

theorem State.completed_request (s : State) (e : Nat) (r : Request) (c : Completion) (i : Nat) :
    (s.completed e r c).request i = if i = e then some (r.ended c) else s.request i := request_of_table (t := s.completed e r c) rfl i

/-- R112: past the operation in flight, the queued fill and the queued SURVEY end, and channel 0 is told. -/
theorem State.RunsTo.fallTail {j : Nat} {y : Request} {units : SMap UnitRec} (hset : s.Settled) (hp : s.part = .running)
    (hx : s.units = SMap.set {} units u x) (hq : x.surveyQueue = []) (hlj : (s.line j).state = .filling) (hwj : (s.line j).waitList = [b])
    (hsw : s.slotWait = []) (hsj : s.waiters (j / 4) = []) (hb : s.Completes b r) (hrk : r.kind = some .read) (he : s.Completes e y)
    (hplace : y.place = .parked .surveyQueue) (hunit : y.record.unit = u) (hbe : e ≠ b) (hopen : (s.channel 0).state = .open)
    (hroom : (s.channel 0).backlog.length < 32) : ∃ t,
      RunsTo 5 (s.setAgenda [.fillOutcome j .unitNotReady .data, .endParked e .unitNotReady, .notice 0 (.unitNotReady u)]) t
      ∧ t.units = s.units ∧ (∀ i, t.line i = if i = j then {} else s.line i)
      ∧ (∀ i, t.request i = if i = e then some (y.ended { status := .unitNotReady })
          else if i = b then some (r.ended { status := .unitNotReady }) else s.request i)
      ∧ (t.channel 0).backlog = (s.channel 0).backlog ++ [Notice.unitNotReady u] ∧ t.dirtyCount = s.dirtyCount ∧ t.outbox = s.outbox := by
  let c : Completion := { status := .unitNotReady }
  let v : State := { s.completed b r c with lines := SMap.set {} s.lines j {}, refs := s.refsFreed j }
  let w := v.completed e y c
  let t := w.told (.unitNotReady u)
  have he' : v.Completes e y := hb.beside (t := v) (c := c) he hbe rfl rfl hset
  obtain ⟨hstate, hbacklog⟩ := s.completed_notices b r c 0
  obtain ⟨hstate', hbacklog'⟩ := v.completed_notices e y c 0
  have hend : (v.setAgenda [.notice 0 (.unitNotReady u)]).endParked e .unitNotReady = w.setAgenda [.notice 0 (.unitNotReady u)] :=
    endParked_survey (s := v.setAgenda _) (units := units) (x := x) he' hplace hunit hx hq rfl rfl
  have hagenda : t.agenda = [] := by simp only [t, w, v, told_agenda, completed_agenda, show s.agenda = [] from hset]
  have hlines : t.lines = SMap.set {} s.lines j {} := by simp only [t, w, v, told_lines, completed_lines]
  refine ⟨t, ?_, ?_, line_of_lines hlines, fun i => ?_, ?_, ?_, ?_⟩
  · refine .fillFailed_one (s := s) (n := 2) hlj hwj hb hrk hsw hsj (by decide) (.cons (s := v) (w := .endParked e .unitNotReady) ?_)
    show RunsTo 1 ((v.setAgenda [.notice 0 (.unitNotReady u)]).endParked e .unitNotReady) t
    rw [hend]
    exact .notice (s := w) hp (hstate'.trans (hstate.trans hopen)) (by rw [hbacklog']; exact hbacklog ▸ hroom) (.done hagenda)
  · simp only [t, w, v, told_units, completed_units]
  · have h1 : v.request i = if i = b then some (r.ended c) else s.request i := s.completed_request b r c i
    have h2 : w.request i = if i = e then some (y.ended c) else v.request i := v.completed_request e y c i
    have h3 : t.request i = w.request i := congrArg (SMap.get none · i) (w.told_table _)
    rw [h3, h2, h1]
  · rw [told_channel]
    exact congrArg (· ++ [Notice.unitNotReady u]) (hbacklog'.trans hbacklog)
  · simp only [t, w, v, told_dirtyCount, completed_dirtyCount]
  · simp only [t, w, v, told_outbox, completed_outbox]

section Falls

variable (hset : s.Settled) (hp : s.part = .running) (hu : u < 4) (hx : (s.unit u).state = .ready) (ho : (s.unit u).op = some o)
  (hd : (s.unit u).discard = none)
include hset hp hu hx ho hd

theorem exec_readyFall_busy {w : List Work} (hw : ∀ t : State, t.report u o .unitNotReady .data = t.soon w) : exec (.readyFall u) s
    = .next (({ s with
        units := SMap.set {} s.units u { (s.unit u).fallen with op := none, seq := .idle, writeGate := false }
        outbox := s.gateOutput u } : State).setAgenda (w ++ (s.unit u).fallWork u)).finish := by
  rw [exec_readyFall hp hu hx, State.fall_busy hset hp ho hd hw]

variable (hopen : (s.channel 0).state = .open) (hroom : (s.channel 0).backlog.length < 32) (hsw : s.slotWait = [])
include hopen hroom hsw

/-- R112: a fill in flight, one queued and a SURVEY queued all end. -/
theorem exec_readyFall_fill {j : Nat} {y : Request} (hs : o.subject = .fill k) (hg : (s.unit u).writeGate = false)
    (hfill : (s.unit u).fillQueue = [j]) (hsurvey : (s.unit u).surveyQueue = [e]) (hkj : k ≠ j) (hnodup : [a, b, e].Nodup)
    (hlk : (s.line k).state = .filling) (hwk : (s.line k).waitList = [a]) (hlj : (s.line j).state = .filling) (hwj : (s.line j).waitList = [b])
    (hsk : s.waiters (k / 4) = []) (hsj : s.waiters (j / 4) = []) (ha : s.Completes a q) (hqk : q.kind = some .read) (hb : s.Completes b r)
    (hrk : r.kind = some .read) (he : s.Completes e y) (hplace : y.place = .parked .surveyQueue) (hunit : y.record.unit = u) :
    ∃ t, exec (.readyFall u) s = .next t
      ∧ t.unit u = { (s.unit u).fallen with op := none, seq := .idle, writeGate := false } ∧ t.line k = {} ∧ t.line j = {}
      ∧ (∀ i, i ≠ k → i ≠ j → t.line i = s.line i)
      ∧ t.request a = some (q.ended { status := .unitNotReady }) ∧ t.request b = some (r.ended { status := .unitNotReady })
      ∧ t.request e = some (y.ended { status := .unitNotReady })
      ∧ (t.channel 0).backlog = (s.channel 0).backlog ++ [Notice.unitNotReady u] ∧ t.dirtyCount = s.dirtyCount ∧ t.outbox = s.outbox := by
  let z : UnitRec := { (s.unit u).fallen with op := none, seq := .idle, writeGate := false }
  let c : Completion := { status := .unitNotReady }
  let v : State := { s with units := SMap.set {} s.units u z, outbox := s.gateOutput u }
  let v1 : State := { v.completed a q c with lines := SMap.set {} s.lines k {}, refs := v.refsFreed k }
  obtain ⟨hab, hae, hbe⟩ : a ≠ b ∧ a ≠ e ∧ b ≠ e := by simpa [and_assoc] using hnodup
  have ha0 : v.Completes a q := ha.after rfl rfl rfl
  have hb1 : v1.Completes b r := ha0.beside (t := v1) (c := c) (hb.after rfl rfl rfl) hab.symm rfl rfl hset
  have he1 : v1.Completes e y := ha0.beside (t := v1) (c := c) (he.after rfl rfl rfl) hae.symm rfl rfl hset
  have hv1u : v1.unit u = z := (State.unit_of_units (t := v1) (m := s.units) rfl u).trans (if_pos rfl)
  have hline1 (i : Nat) : v1.line i = if i = k then {} else s.line i := State.line_of_lines (t := v1) rfl i
  have hj1 : v1.line j = s.line j := (hline1 j).trans (if_neg hkj.symm)
  obtain ⟨hstate, hbacklog⟩ := v.completed_notices a q c 0
  obtain ⟨t, hrun, hunits, hline, hrequest, hnotice, hdirty, hout⟩ := State.RunsTo.fallTail (s := v1) (units := s.units) (x := z) hset hp rfl rfl
    (by rw [hj1]; exact hlj) (by rw [hj1]; exact hwj) hsw hsj hb1 hrk he1 hplace hunit hbe.symm (hstate.trans hopen)
    (by show ((v.completed a q c).channel 0).backlog.length < 32; rw [hbacklog]; exact hroom)
  have hwork : (s.unit u).fallWork u = [.fillOutcome j .unitNotReady .data, .endParked e .unitNotReady, .notice 0 (.unitNotReady u)] := by
    rw [UnitRec.fallWork, hfill, hsurvey]; rfl
  have hall : State.RunsTo 9 (v.setAgenda ([Work.fillOutcome k .unitNotReady .data, .select u] ++ (s.unit u).fallWork u)) t := by
    rw [hwork]
    exact .fillFailed_one (s := v) (n := 6) hlk hwk ha0 hqk hsw hsk (by decide)
      (.selectUnready (s := v1) (by rw [hv1u]; show UnitState.notReady ≠ _; decide) hrun)
  have hrequest1 (i : Nat) : v1.request i = if i = a then some (q.ended c) else s.request i := v.completed_request a q c i
  refine ⟨t, (exec_readyFall_busy hset hp hu hx ho hd fun t => by rw [State.report, hs]).trans (congrArg _ (hall.finish rfl)),
    ?_, ?_, ?_, fun i hik hij => ?_, ?_, ?_, ?_, hnotice.trans (congrArg (· ++ _) hbacklog), hdirty,
    hout.trans (if_neg (Bool.eq_false_iff.1 hg))⟩
  · rw [State.unit, hunits]
    exact hv1u
  · rw [hline, if_neg hkj, hline1, if_pos rfl]
  · rw [hline, if_pos rfl]
  · rw [hline, if_neg hij, hline1, if_neg hik]
  · rw [hrequest, if_neg hae, if_neg hab, hrequest1, if_pos rfl]
  · rw [hrequest, if_neg hbe, if_pos rfl]
  · rw [hrequest, if_pos rfl]

/-- R84, R112: a flush in flight ends, its line DIRTY again. -/
theorem exec_readyFall_flush (hs : o.subject = .flush k) (hfill : (s.unit u).fillQueue = []) (hsurvey : (s.unit u).surveyQueue = [])
    (hb : (s.unit u).barriers = []) (hl : (s.line k).state = .flushing) (hk : (s.line k).key = some key) (hunit : key.unit = u)
    (hslot : (s.line k).flushSource = some slot) (hset' : s.waiters (k / 4) = []) :
    ∃ t, exec (.readyFall u) s = .next t ∧ t.line k = { s.line k with state := .dirty, flushSource := none, sourceEpoch := none }
      ∧ (∀ i, i ≠ k → t.line i = s.line i) ∧ t.refCount slot = s.refCount slot - 1 ∧ t.dirtyCount = s.dirtyCount
      ∧ t.unit u = { (s.unit u).fallen with
          op := none, seq := .idle, writeGate := false, flushList := insertBy FlushEntry.before ⟨k, key⟩ (s.unit u).flushList }
      ∧ (t.channel 0).backlog = (s.channel 0).backlog ++ [Notice.unitNotReady u] ∧ t.table = s.table ∧ t.outbox = s.gateOutput u := by
  let z : UnitRec := { (s.unit u).fallen with op := none, seq := .idle, writeGate := false }
  let v : State := { s with units := SMap.set {} s.units u z, outbox := s.gateOutput u }
  let new : Line := { s.line k with state := .dirty, flushSource := none, sourceEpoch := none }
  let y : UnitRec := { z with flushList := insertBy FlushEntry.before ⟨k, key⟩ z.flushList }
  let w : State := { v with
    lines := SMap.set {} s.lines k new, refs := refsWithout s.refs (s.line k).flushSource, units := SMap.set {} v.units u y }
  let t := w.told (.unitNotReady u)
  have hvu : v.unit u = z := (State.unit_of_units (t := v) rfl u).trans (if_pos rfl)
  have hwu : w.unit u = y := (State.unit_of_units (t := w) rfl u).trans (if_pos rfl)
  have hidle : (w.unit u).state ≠ .ready := by rw [hwu]; show UnitState.notReady ≠ _; decide
  have hwork : (s.unit u).fallWork u = [.notice 0 (.unitNotReady u)] := by rw [UnitRec.fallWork, hfill, hsurvey]; rfl
  have hrequeue : (v.setAgenda [.select u, .notice 0 (.unitNotReady u)]).flushOutcome k .unitNotReady
      = w.setAgenda [.retest u, .evictCheck k, .select u, .notice 0 (.unitNotReady u), .select u] := by
    rw [State.flushOutcome_requeues (s := v.setAgenda _) (new := new) hl hk hsw rfl, hunit]
    show State.setAgenda { v with units := SMap.set {} v.units u { v.unit u with
      flushList := insertBy FlushEntry.before ⟨k, key⟩ (v.unit u).flushList }, lines := _, refs := _ } _ = _
    rw [hvu]
    rfl
  have hrun : State.RunsTo 6 (v.setAgenda ([Work.flushOutcome k .unitNotReady, .select u] ++ (s.unit u).fallWork u)) t := by
    rw [hwork]
    refine .cons ?_
    show State.RunsTo 5 ((v.setAgenda [.select u, .notice 0 (.unitNotReady u)]).flushOutcome k .unitNotReady) t
    rw [hrequeue]
    refine .idle (w := .retest u) (State.retest_nil ?_) (.idle (w := .evictCheck k) (State.evictCheck_nil hset')
      (.selectUnready hidle (.notice hp hopen hroom (.selectUnready (s := t) hidle (.done hset)))))
    show (w.unit u).barriers = []
    rw [hwu]; exact hb
  refine ⟨t, (exec_readyFall_busy hset hp hu hx ho hd fun t => by rw [State.report, hs]).trans (congrArg _ (hrun.finish rfl)),
    (State.line_of_lines (t := t) (x := new) rfl k).trans (if_pos rfl), fun i hi => (State.line_of_lines (t := t) (x := new) rfl i).trans (if_neg hi), ?_, rfl, hwu.trans ?_, ?_, rfl, rfl⟩
  · have hrefs : t.refs = SMap.set 0 s.refs slot (s.refCount slot - 1) := congrArg (refsWithout s.refs) hslot
    exact (State.refCount_of_refs hrefs slot).trans (if_pos rfl)
  · rfl
  · rw [State.channel_of_channels (t := t) rfl 0, if_pos rfl]
    rfl

omit hsw in
/-- R112: a SURVEY in flight ends. -/
theorem exec_readyFall_survey (hs : o.subject = .survey e) (hfill : (s.unit u).fillQueue = []) (hsurvey : (s.unit u).surveyQueue = [])
    (he : s.Completes e r) : ∃ t, exec (.readyFall u) s = .next t
      ∧ t.unit u = { (s.unit u).fallen with op := none, seq := .idle, writeGate := false }
      ∧ t.request e = some (r.ended { status := .unitNotReady }) ∧ t.lines = s.lines
      ∧ (t.channel 0).backlog = (s.channel 0).backlog ++ [Notice.unitNotReady u] ∧ t.outbox = s.gateOutput u := by
  let z : UnitRec := { (s.unit u).fallen with op := none, seq := .idle, writeGate := false }
  let v : State := { s with units := SMap.set {} s.units u z, outbox := s.gateOutput u }
  let t := (v.completed e r { status := .unitNotReady }).told (.unitNotReady u)
  obtain ⟨hstate, hbacklog⟩ := v.completed_notices e r { status := .unitNotReady } 0
  have hvu : (v.completed e r { status := .unitNotReady }).unit u = z :=
    (State.unit_of_units (t := v.completed e r { status := .unitNotReady }) rfl u).trans (if_pos rfl)
  have hwork : (s.unit u).fallWork u = [.notice 0 (.unitNotReady u)] := by rw [UnitRec.fallWork, hfill, hsurvey]; rfl
  have hrun : State.RunsTo 3 (v.setAgenda ([Work.complete e { status := .unitNotReady }, .select u] ++ (s.unit u).fallWork u)) t := by
    rw [hwork]
    refine .complete (he.after rfl rfl rfl) (.selectUnready (by rw [hvu]; show UnitState.notReady ≠ _; decide) (.notice hp ?_ ?_ (.done hset)))
    · rw [hstate]; exact hopen
    · rw [hbacklog]; exact hroom
  refine ⟨t, (exec_readyFall_busy hset hp hu hx ho hd fun t => by rw [State.report, hs]; exact if_neg (by decide)).trans
    (congrArg _ (hrun.finish rfl)), hvu, ?_, rfl, ?_, rfl⟩
  · exact (State.request_of_table (t := t) rfl e).trans (if_pos rfl)
  · rw [State.channel_of_channels (t := t) rfl 0, if_pos rfl]
    show (((v.completed e r { status := .unitNotReady }).channel 0).backlog ++ _) = _
    rw [hbacklog]
    rfl

end Falls

end Sys2Proof.Machine

namespace Sys2Proof.Proofs

open Sys2Proof Sys2Proof.Machine

/-- Settles O52: the levels, the fall of an idle unit, and the end of each kind of operation by a fall. -/
theorem readyLineMovesTheUnit : Obligations.ReadyLineMovesTheUnit := by
  intro s u x told hset hp hu hopen hroom
  have hpart : s.part ≠ .failed := by rw [hp]; decide
  refine ⟨fun hx => ?_, fun hx hw => ?_, fun hx => ?_, fun hx hw ho => ?_, fun o hx ho hwait hsw => ?_⟩
  · have hexec : exec (.readyRise u) s = .next (s.onReadyRise u).finish := if_pos hu
    have hrise : s.onReadyRise u = s.updUnit u (fun y => { y with readyLine := true }) := by
      unfold State.onReadyRise
      dsimp only
      rw [if_neg hpart, if_neg hx]
    rw [hexec, hrise]
    exact congrArg _ (State.finish_nil _ hset)
  · rw [exec_readyRise hset hp hu hx hopen hroom]
    exact congrArg _ ((State.RunsTo.select (s := s.risen u) (by rw [State.risen_unit]; exact hw) (.done hset)).finish rfl)
  · have hexec : exec (.readyFall u) s = .next (s.onReadyFall u).finish := if_pos hu
    have hfall : s.onReadyFall u = s.updUnit u (fun y => { y with readyLine := false }) := if_neg fun h => hx h.1
    rw [hexec, hfall]
    exact congrArg _ (State.finish_nil _ hset)
  · obtain ⟨hflush, hfill, hsurvey⟩ := hw
    let v : State := { s with units := SMap.set {} s.units u x.fallen }
    have hwork : x.fallWork u = [.notice 0 (.unitNotReady u)] := by rw [UnitRec.fallWork, hfill, hsurvey]; rfl
    rw [exec_readyFall hp hu hx, State.fall_idle hset hp ho, show (s.unit u).fallWork u = _ from hwork]
    refine (congrArg _ ((State.RunsTo.notice (s := v) hp hopen hroom (.done hset)).finish rfl)).trans ?_
    have hrec : x.fallen = { x with
        readyLine := false, state := .notReady, believed := none, lastHeader := none, selectedSurface := none, verifyPending := true } := by
      simp only [UnitRec.fallen, hfill, hsurvey]
    exact congrArg (fun y => Host.Outcome.next ({ s with units := SMap.set {} s.units u y, channels := told (.unitNotReady u) } : State)) hrec
  · intro fallen unready notified
    refine ⟨?_, ?_, ?_⟩
    · intro k j a b e q r y hs hg hfill hsurvey hkj hnodup hlk hwk hlj hwj hsk hsj ha hqk hb hrk he hplace hunit
      obtain ⟨t, hexec, hunitRec, hrest⟩ := exec_readyFall_fill hset hp hu hx ho hwait.2 hopen hroom hsw hs hg hfill hsurvey hkj hnodup hlk hwk hlj hwj
        hsk hsj ha hqk hb hrk he hplace hunit
      refine ⟨t, hexec, hunitRec.trans ?_, hrest⟩
      simp only [fallen, UnitRec.fallen, x, ← hg]
    · intro k slot key hs hfill hsurvey hb hl hk hunit hslot hset'
      obtain ⟨t, hexec, hline, hlines, href, hdirty, hunitRec, hrest⟩ := exec_readyFall_flush hset hp hu hx ho hwait.2 hopen hroom hsw hs hfill hsurvey hb
        hl hk hunit hslot hset'
      refine ⟨t, hexec, hline, hlines, href, hdirty, hunitRec.trans ?_, hrest⟩
      simp only [fallen, UnitRec.fallen, x, hfill, hsurvey]
    · intro e y hs hg hfill hsurvey he
      obtain ⟨t, hexec, hunitRec, hrequest, hlines, hnotice, hout⟩ := exec_readyFall_survey hset hp hu hx ho hwait.2 hopen hroom hs hfill hsurvey he
      refine ⟨t, hexec, hunitRec.trans ?_, hrequest, hlines, hnotice, hout.trans (if_neg (Bool.eq_false_iff.1 hg))⟩
      simp only [fallen, UnitRec.fallen, x, hfill, hsurvey, hg]

end Sys2Proof.Proofs
end

section
/-! PROOF. A fetch that ends without its record being taken (R163, R169, R171, R172). -/

namespace Sys2Proof.Machine

variable {s t : State} {c d e n : Nat} {x y : Channel} {r : Request} {cause : FenceCause}

/-! ### The drain of a channel (R157, R171, R172) -/

/-- R171: a channel that goes down is looked at again once the step's other work is done. -/
theorem State.noteDrain_down (ha : s.agenda = []) (h : (s.channel c).state = .closing ∨ (s.channel c).state = .fencing) :
    s.noteDrain c = s.setAgenda [.drainCheck c] := by
  have hlater : s.noteDrain c = s.later [.drainCheck c] := by
    unfold noteDrain
    rcases h with h | h <;> rw [h]
  rw [hlater, later_eq, ha]
  rfl

theorem State.drainCheck_busy (h : (s.channel c).inFlight ≠ 0 ∨ (s.channel c).writing ≠ none) : s.drainCheck c = s :=
  if_neg fun ⟨hin, hw⟩ => h.elim (· hin) (· hw)

/-- R172: a CLOSING channel that has drained is CLOSED, and its CHANNEL_CLOSE completes. -/
theorem State.drainCheck_closing (hx : s.channel c = x) (hst : x.state = .closing) (hin : x.inFlight = 0) (hw : x.writing = none)
    (hd : x.closeEntry = some d) (hr : s.Completes d r) (hc : r.channel ≠ c) : s.drainCheck c = ({ s with
      channels := SMap.set {} s.channels c { x with state := .closed, closeEntry := none }
      eventSet := s.eventSet.filter (· != c) } : State).completed d r { status := .success } := by
  let v : State := { s with
    channels := SMap.set {} s.channels c { x with state := .closed, closeEntry := none }, eventSet := s.eventSet.filter (· != c) }
  have hdown : ((s.updChannel c (fun x => { x with state := .closed })).leaveEventSet c).completeClose c = v.complete d { status := .success } := by
    let w : State := { s with channels := SMap.set {} s.channels c { x with state := .closed }, eventSet := s.eventSet.filter (· != c) }
    have hleft : (s.updChannel c (fun x => { x with state := .closed })).leaveEventSet c = w := by
      rw [updChannel_eq hx]
      rfl
    have hwc : w.channel c = { x with state := .closed } := (channel_of_channels (t := w) rfl c).trans (if_pos rfl)
    rw [hleft, completeClose, hwc]
    dsimp only
    rw [hd]
    dsimp only
    rw [updChannel_eq hwc]
    simp only [w, v, SMap.set_set]
  have hother : v.channel r.channel = s.channel r.channel := (channel_of_channels (t := v) rfl r.channel).trans (if_neg hc)
  have hv : v.Completes d r := ⟨hr.held, hr.undone, by rw [hother]; exact hr.posts, by rw [hother]; exact hr.clear, hr.settled⟩
  unfold drainCheck
  rw [hx]
  dsimp only
  rw [if_pos ⟨hin, hw⟩, hst]
  dsimp only
  rw [hdown]
  exact hv.complete_eq _

/-- R171: a FENCING channel that has drained is FENCED, and channel 0 is told. -/
theorem State.drainCheck_fencing (hx : s.channel c = x) (hst : x.state = .fencing) (hin : x.inFlight = 0) (hw : x.writing = none)
    (hclose : x.closePending = false) (hc : c ≠ 0) (hp : s.part ≠ .failed) (hy : s.channel 0 = y) (ho : y.state = .open)
    (hroom : y.backlog.length < 32) : s.drainCheck c = { s with
      channels := SMap.set {} (SMap.set {} s.channels c { x with state := .fenced }) 0 { y with backlog := y.backlog ++ [.channelFenced c x.cause] }
      eventSet := s.eventSet.filter (· != c) } := by
  let w : State := { s with channels := SMap.set {} s.channels c { x with state := .fenced }, eventSet := s.eventSet.filter (· != c) }
  have hleft : (s.updChannel c (fun x => { x with state := .fenced })).leaveEventSet c = w := by
    rw [updChannel_eq hx]
    rfl
  have hw0 : w.channel 0 = y := ((channel_of_channels (t := w) (x := { x with state := .fenced }) rfl 0).trans (if_neg hc.symm)).trans hy
  unfold drainCheck
  rw [hx]
  dsimp only
  rw [if_pos ⟨hin, hw⟩, hst]
  dsimp only
  rw [hleft, if_neg (by rw [hclose]; exact Bool.false_ne_true), queueNotice_room (s := w) hp hw0 ho hroom]

/-! ### The end of a fetch (R163) -/

/-- The part with the fetch over and its record not taken. -/
def State.fetchReturned (s : State) (c : Nat) : State := { s with
  fetch := none
  channels := SMap.set {} s.channels c { s.channel c with reserved := (s.channel c).reserved - 1, inFlight := (s.channel c).inFlight - 1 } }

theorem State.fetchReturned_channel (s : State) (c : Nat) : (s.fetchReturned c).channel c
    = { s.channel c with reserved := (s.channel c).reserved - 1, inFlight := (s.channel c).inFlight - 1 } :=
  (channel_of_channels (t := s.fetchReturned c) rfl c).trans (if_pos rfl)

theorem State.returnFetch_eq (s : State) (c : Nat) : (s.setFetch none).returnFetch c = (s.fetchReturned c).noteDrain c := by
  rw [returnFetch, updChannel_eq (s := s.setFetch none) rfl]
  rfl

theorem exec_fetchEnd_returned (hf : s.fetch = some ⟨c, e⟩) (hp : s.part ≠ .failed)
    (h : ¬ ((s.channel c).state = .open ∧ s.part.takesRecords = true)) (bs : List Byte) :
    exec (.fetchEnd (some bs)) s = .next ((s.fetchReturned c).noteDrain c).finish := by
  have hend : s.endFetch (some (Record.parse bs)) = (s.fetchReturned c).noteDrain c := by
    unfold State.endFetch
    rw [hf]
    dsimp only
    rw [if_neg hp, if_neg h, State.returnFetch_eq]
  exact congrArg (fun t : State => Host.Outcome.next t.finish) hend

theorem exec_fetchEnd_error (hf : s.fetch = some ⟨c, e⟩) (hp : s.part ≠ .failed) (hc : c ≠ 0) :
    exec (.fetchEnd none) s = .next (((s.fetchReturned c).noteDrain c).fence c .submitFetchError).finish := by
  have hend : s.endFetch none = ((s.fetchReturned c).noteDrain c).fence c .submitFetchError := by
    unfold State.endFetch
    rw [hf]
    dsimp only
    rw [if_neg hp, if_neg hc, State.returnFetch_eq]
  exact congrArg (fun t : State => Host.Outcome.next t.finish) hend

/-- R169: on a channel that has left OPEN this cause sets nothing. -/
theorem State.fence_submitFetchError_down (h : (s.channel c).state = .closing ∨ (s.channel c).state = .fencing) :
    s.fence c .submitFetchError = s := by
  unfold fence
  split
  · rfl
  · rcases h with h | h <;> rw [h] <;> rfl

/-- R163, R171: on a channel that has left OPEN either end of a fetch comes to the same. -/
theorem exec_fetchEnd_down (hset : s.Settled) (hf : s.fetch = some ⟨c, e⟩) (hp : s.part ≠ .failed) (hc : c ≠ 0)
    (h : (s.channel c).state = .closing ∨ (s.channel c).state = .fencing) (result : Option (List Byte)) :
    exec (.fetchEnd result) s = .next ((s.fetchReturned c).setAgenda [.drainCheck c]).finish := by
  have hstate : ((s.fetchReturned c).channel c).state = .closing ∨ ((s.fetchReturned c).channel c).state = .fencing := by
    rw [State.fetchReturned_channel]
    exact h
  have hdrain : (s.fetchReturned c).noteDrain c = (s.fetchReturned c).setAgenda [.drainCheck c] := State.noteDrain_down hset hstate
  cases result with
  | none =>
    rw [exec_fetchEnd_error hf hp hc, hdrain]
    exact congrArg (fun t : State => Host.Outcome.next t.finish)
      (State.fence_submitFetchError_down (s := (s.fetchReturned c).setAgenda [.drainCheck c]) hstate)
  | some bs =>
    rw [exec_fetchEnd_returned hf hp (fun ho => by rcases h with h | h <;> exact absurd (h.symm.trans ho.1) (by decide)), hdrain]

/-- R169: the fence of an OPEN channel that holds no line and has no request PARKED. -/
theorem State.fence_plain (ha : s.agenda = []) (hx : s.channel c = x) (hc : c ≠ 0) (ho : x.state = .open)
    (hcause : cause ≠ .completionPostError) (hlines : ∀ p ∈ s.lines, c ∉ p.2.holders)
    (hparked : ∀ p ∈ s.held, p.2.channel = c → p.2.isParked = false) : s.fence c cause
      = ({ s with channels := SMap.set {} s.channels c { x with state := .fencing, cause, backlog := [] } } : State).setAgenda [.drainCheck c] := by
  let v : State := { s with channels := SMap.set {} s.channels c { x with state := .fencing, cause } }
  let w : State := { s with channels := SMap.set {} s.channels c { x with state := .fencing, cause, backlog := [] } }
  have hstop : v.stopService c .fenced = w := by
    have hvc : v.channel c = { x with state := .fencing, cause } := (channel_of_channels (t := v) rfl c).trans (if_pos rfl)
    have hempty : v.updChannel c (fun x => { x with backlog := [] }) = w := by
      rw [updChannel_eq hvc]
      simp only [v, w, SMap.set_set]
    unfold stopService
    rw [dropAllHolds_none (t := v) hlines]
    dsimp only
    rw [hempty]
    exact endAllParked_none (t := w) fun p hp hch => hparked p hp (beq_iff_eq.1 hch)
  have hwc : w.channel c = { x with state := .fencing, cause, backlog := [] } := (channel_of_channels (t := w) rfl c).trans (if_pos rfl)
  have hfence : s.fence c cause = (v.stopService c .fenced).noteDrain c := by
    unfold fence
    rw [if_neg hc, hx, ho, updChannel_eq hx]
    dsimp only
    rw [if_neg hcause]
  rw [hfence, hstop]
  exact noteDrain_down (s := w) ha (.inr (by rw [hwc]))

end Sys2Proof.Machine

namespace Sys2Proof.Proofs

open Sys2Proof Sys2Proof.Machine

/-- Settles O13: by the part state and the state of the fetch's channel. -/
theorem fetchEndsWithoutARecord : Obligations.FetchEndsWithoutARecord := by
  intro s c e bs hset hf x y returned hin hfenced hclosed
  let v := s.fetchReturned c
  have hvc : v.channel c = y := s.fetchReturned_channel c
  have hruns {t : State} (h : v.drainCheck c = t) (ht : t.agenda = []) : (v.setAgenda [.drainCheck c]).finish = t := by
    refine (State.RunsTo.cons (s := v) (w := .drainCheck c) (ws := []) (n := 0) ?_).finish rfl
    show State.RunsTo 0 ((v.setAgenda []).drainCheck c) t
    rw [State.setAgenda_self (t := v) hset, h]
    exact .nil ht
  refine ⟨fun hp => ?_, fun hp ho => ?_, fun hp hc hdown hbusy => ?_, fun d r hp hc hst hone hw hd hr hadmin result _ => ?_,
    fun hp hc hst hone hw hclose ho hroom result _ => ?_, fun hp hc ho => ?_, fun hp hc ho => ?_, fun hp hc ho hmore hlines hparked => ?_⟩
  · have hend (result : Option Record) : s.endFetch result = s.setFetch none := by
      unfold State.endFetch
      rw [hf]
      exact if_pos hp
    have hstep (result : Option (List Byte)) : exec (.fetchEnd result) s = .next { s with fetch := none } :=
      congrArg Host.Outcome.next ((congrArg State.finish (hend _)).trans (State.finish_nil _ hset))
    exact ⟨hstep none, hstep (some bs)⟩
  · rw [exec_fetchEnd_returned hf (by rw [hp]; decide) (fun h => by rw [hp] at h; exact absurd h.2 (by decide)),
      State.noteDrain_of_open (by rw [hvc]; exact ho)]
    exact congrArg _ (State.finish_nil _ hset)
  · have hidle : v.drainCheck c = v := State.drainCheck_busy (by
      rw [hvc]
      exact hbusy.imp_left fun h => by show x.inFlight - 1 ≠ 0; omega)
    exact ⟨(exec_fetchEnd_down hset hf hp hc hdown _).trans (congrArg _ (hruns hidle hset)),
      (exec_fetchEnd_down hset hf hp hc hdown _).trans (congrArg _ (hruns hidle hset))⟩
  · have hne : r.channel ≠ c := by rw [hadmin]; exact hc.symm
    have hother (b : Nat) (hb : b ≠ c) : v.channel b = s.channel b := (State.channel_of_channels (t := v) rfl b).trans (if_neg hb)
    have hv : v.Completes d r := ⟨hr.held, hr.undone, by rw [hother _ hne]; exact hr.posts, by rw [hother _ hne]; exact hr.clear, hset⟩
    let w : State := { v with
      channels := SMap.set {} v.channels c { y with state := .closed, closeEntry := none }, eventSet := s.eventSet.filter (· != c) }
    let t := w.completed d r { status := .success }
    have hdrain : v.drainCheck c = t := State.drainCheck_closing hvc hst (by show x.inFlight - 1 = 0; omega) hw hd hv hne
    have hwc : w.channel c = { y with state := .closed, closeEntry := none } := (State.channel_of_channels (t := w) rfl c).trans (if_pos rfl)
    have hwother (b : Nat) (hb : b ≠ c) : w.channel b = s.channel b :=
      ((State.channel_of_channels (t := w) (m := v.channels) rfl b).trans (if_neg hb)).trans (hother b hb)
    refine ⟨t, (exec_fetchEnd_down hset hf hp hc (.inl hst) _).trans (congrArg _ (hruns hdrain hset)), rfl, ?_, rfl,
      State.completed_request w d r _ d |>.trans (if_pos rfl), fun b hb => ?_⟩
    · rw [State.channel_of_channels (t := t) (m := w.channels) rfl c, if_neg hne.symm]
      exact hwc
    · rw [State.channel_of_channels (t := t) (m := w.channels) rfl b,
        State.channel_of_channels (t := s.completed d r { status := .success }) (m := s.channels) rfl b, hwother _ hne]
      exact if_congr Iff.rfl rfl (hwother b hb)
  · have hv0 : v.channel 0 = s.channel 0 := (State.channel_of_channels (t := v) rfl 0).trans (if_neg hc.symm)
    let t : State := { v with
      channels := SMap.set {} (SMap.set {} v.channels c { y with state := .fenced }) 0
        { s.channel 0 with backlog := (s.channel 0).backlog ++ [Notice.channelFenced c x.cause] }
      eventSet := s.eventSet.filter (· != c) }
    have hdrain : v.drainCheck c = t :=
      State.drainCheck_fencing hvc hst (by show x.inFlight - 1 = 0; omega) hw hclose hc hp hv0 ho hroom
    have hchannel (b : Nat) : t.channel b = if b = 0 then { s.channel 0 with backlog := (s.channel 0).backlog ++ [Notice.channelFenced c x.cause] }
        else if b = c then { y with state := .fenced } else s.channel b := by
      rw [State.channel_of_channels (t := t) rfl b, SMap.get_set]
      refine if_congr Iff.rfl rfl (ite_congr rfl (fun _ => rfl) fun hb => ?_)
      exact (State.channel_of_channels (t := v) rfl b).trans (if_neg hb)
    refine ⟨t, (exec_fetchEnd_down hset hf hp hc (.inr hst) _).trans (congrArg _ (hruns hdrain hset)), rfl, ?_, rfl, ?_, fun b hb hb0 => ?_, rfl⟩
    · rw [hchannel, if_neg hc, if_pos rfl]
    · rw [hchannel, if_pos rfl]
    · rw [hchannel, if_neg hb0, if_neg hb]
  · subst hc
    have hend : s.endFetch none = v.fail .adminFetchError := by
      have hnote : v.noteDrain 0 = v := State.noteDrain_of_open (by rw [hvc]; exact ho)
      unfold State.endFetch
      rw [hf]
      dsimp only
      rw [if_neg hp, if_pos rfl, State.returnFetch_eq, hnote]
    refine congrArg Host.Outcome.next ((congrArg State.finish (hend.trans (State.fail_eq hp))).trans ?_)
    exact State.finish_nil _ hset
  · have hopen : (v.channel c).state = .open := by rw [hvc]; exact ho
    obtain ⟨pend, hfence⟩ := State.fence_within_fencing (s := v) (cause := .submitFetchError) hc (.inl hopen)
    have hstep : exec (.fetchEnd none) s = .next (v.fence c .submitFetchError).finish := by
      rw [exec_fetchEnd_error hf hp hc, State.noteDrain_of_open hopen]
    have hwithin := hfence.trans State.finish_within
    have hend := hwithin.channel c
    rw [State.updChannel_channel, if_pos rfl, hvc] at hend
    obtain ⟨hstate, hcause⟩ := hend.of_fencing rfl
    exact ⟨_, hstep, hwithin.fetch, hend.sqHead, hcause, hstate⟩
  · have hopen : (v.channel c).state = .open := by rw [hvc]; exact ho
    let t : State := { v with channels := SMap.set {} v.channels c { y with state := .fencing, cause := .submitFetchError, backlog := [] } }
    have htc : t.channel c = { y with state := .fencing, cause := .submitFetchError, backlog := [] } :=
      (State.channel_of_channels (t := t) rfl c).trans (if_pos rfl)
    have hfence : v.fence c .submitFetchError = t.setAgenda [.drainCheck c] :=
      State.fence_plain (s := v) hset hvc hc ho (by decide) hlines hparked
    have hidle : (t.setAgenda []).drainCheck c = t.setAgenda [] := State.drainCheck_busy (.inl (by
      show (t.channel c).inFlight ≠ 0
      rw [htc]
      show x.inFlight - 1 ≠ 0
      omega))
    have hrun : (t.setAgenda [.drainCheck c]).finish = t :=
      (State.RunsTo.idle (w := .drainCheck c) hidle (State.RunsTo.done (s := t) hset)).finish rfl
    rw [exec_fetchEnd_error hf hp hc, State.noteDrain_of_open hopen, hfence, hrun]
    simp only [t, v, State.fetchReturned, SMap.set_set]
    rfl

end Sys2Proof.Proofs
end

section
/-! PROOF. A WRITE opens an episode against the other holders (R37 to R39). -/

namespace Sys2Proof.Machine

variable {s t : State} {c e k n : Nat} {r : Request} {m : Notice}

/-- The first number that a predicate holds of. -/
theorem firstFrom_eq_some {p : Nat → Bool} {i : Nat} : ∀ {n k : Nat}, k ≤ i → i < k + n → p i = true → (∀ j, k ≤ j → j < i → p j = false) →
    firstFrom p n k = some i
  | 0, k, hle, hlt, _, _ => absurd hlt (by omega)
  | n + 1, k, hle, hlt, hi, hfirst => by
    rw [firstFrom]
    by_cases hk : k = i
    · rw [hk, if_pos hi]
    · rw [hfirst k (Nat.le_refl k) (by omega), if_neg Bool.false_ne_true]
      exact firstFrom_eq_some (by omega) (by omega) hi fun j hj hji => hfirst j (by omega) hji

/-- R166: a notice joins the backlog of each of some OPEN data channels with room. -/
theorem State.queueToEach_room : ∀ {cs : List Nat} {s : State}, s.part ≠ .failed → s.agenda = [] → cs.Nodup → 0 ∉ cs →
    (∀ d ∈ cs, (s.channel d).state = .open ∧ (s.channel d).backlog.length < 48) →
    ∃ channels, s.queueToEach cs m = { s with channels }
      ∧ ∀ d, SMap.get {} channels d = if d ∈ cs then { s.channel d with backlog := (s.channel d).backlog ++ [m] } else s.channel d
  | [], s, _, _, _, _, _ => ⟨s.channels, rfl, fun _ => rfl⟩
  | c :: cs, s, hp, ha, hnodup, h0, hroom => by
    obtain ⟨hc, hcs⟩ := List.nodup_cons.1 hnodup
    obtain ⟨hc0, hcs0⟩ : 0 ≠ c ∧ 0 ∉ cs := by simpa using h0
    obtain ⟨hopen, hlt⟩ := hroom c List.mem_cons_self
    let t : State := { s with channels := SMap.set {} s.channels c { s.channel c with backlog := (s.channel c).backlog ++ [m] } }
    have ht (d : Nat) : t.channel d = if d = c then { s.channel c with backlog := (s.channel c).backlog ++ [m] } else s.channel d :=
      channel_of_channels (t := t) rfl d
    have hfirst : s.inOrder (fun t => t.queueNotice c m) = t := by
      rw [inOrder_settled ha]
      exact queueNotice_room hp rfl hopen (by rw [backlogLimit_data hc0.symm]; exact hlt) m
    obtain ⟨channels, hrest, hget⟩ := queueToEach_room (cs := cs) (s := t) hp ha hcs hcs0 fun d hd => by
      have hdc : d ≠ c := fun h => hc (h ▸ hd)
      rw [ht d, if_neg hdc]
      exact hroom d (List.mem_cons_of_mem c hd)
    refine ⟨channels, (congrArg (fun t : State => t.queueToEach cs m) hfirst).trans hrest, fun d => (hget d).trans ?_⟩
    rw [ht d]
    by_cases hd : d = c
    · subst hd
      rw [if_neg hc, if_pos rfl, if_pos List.mem_cons_self]
    · rw [if_neg hd]
      exact if_congr (by simp [hd]) rfl rfl

/-- R37, R38: a writer whose line other channels hold opens an episode on a free record, and tells each of them. -/
theorem State.becomeWriter_recalls {others : List Nat} {p : Params} (hr : t.request e = some r) (hp : t.part ≠ .failed) (ha : t.agenda = [])
    (hothers : (t.line k).holders.filter (· ≠ r.channel) = others) (hne : others ≠ []) (hnodup : others.Nodup) (h0 : 0 ∉ others)
    (hroom : ∀ d ∈ others, (t.channel d).state = .open ∧ (t.channel d).backlog.length < 48) (hfree : t.freeEpisodeRecord = some n)
    (hparams : t.params = some p) : ∃ channels, t.becomeWriter e k = { t with
        channels
        lines := SMap.set {} t.lines k { t.line k with writer := some e, episode := some n }
        table := SMap.set none t.table e (some { r with place := .parked (.episode n), line := some k })
        episodes := SMap.set none t.episodes n (some { key := r.key, line := k, writer := e, writerChannel := r.channel, recalled := others,
                                                       waiting := others, deadline := t.now + p.recallTimeout }) }
      ∧ ∀ d, SMap.get {} channels d
        = if d ∈ others then { t.channel d with backlog := (t.channel d).backlog ++ [.recall r.key n] } else t.channel d := by
  let r' : Request := { r with line := some k }
  let ep : Episode := { key := r.key, line := k, writer := e, writerChannel := r.channel, recalled := others, waiting := others,
                        deadline := t.now + p.recallTimeout }
  let u : State := { t with
    lines := SMap.set {} t.lines k { t.line k with writer := some e }
    table := SMap.set none t.table e (some r') }
  let v : State := { t with
    lines := SMap.set {} t.lines k { t.line k with writer := some e, episode := some n }
    table := SMap.set none t.table e (some { r with place := .parked (.episode n), line := some k })
    episodes := SMap.set none t.episodes n (some ep) }
  have hwriter : (t.updLine k (fun x => { x with writer := some e })).updRequest e (fun r => { r with line := some k }) = u := by
    rw [updRequest_eq (s := t.updLine k (fun x => { x with writer := some e })) hr]
    rfl
  have hu : u.request e = some r' := (request_of_table (t := u) rfl e).trans (if_pos rfl)
  have huk : u.line k = { t.line k with writer := some e } := (line_of_lines (t := u) rfl k).trans (if_pos rfl)
  have hset : u.recallSet k r'.channel = others := by
    rw [recallSet, huk, ← hothers, leaveList]
    exact List.filter_congr fun d _ => Bool.eq_iff_iff.2 (by simp [r'])
  have hopened : ((u.setEpisode n (some ep)).updLine k (fun x => { x with episode := some n })).park e (.episode n) = v := by
    let w : State := { t with
      lines := SMap.set {} t.lines k { t.line k with writer := some e, episode := some n }
      table := SMap.set none t.table e (some r'), episodes := SMap.set none t.episodes n (some ep) }
    have hw : (u.setEpisode n (some ep)).updLine k (fun x => { x with episode := some n }) = w := by
      rw [updLine_eq (s := u.setEpisode n (some ep)) huk]
      simp only [u, w, setEpisode_eq, SMap.set_set]
    have hwr : w.request e = some r' := (request_of_table (t := w) rfl e).trans (if_pos rfl)
    rw [hw, park, updRequest_eq hwr]
    simp only [w, v, r', SMap.set_set]
  obtain ⟨channels, htold, hget⟩ := queueToEach_room (s := v) (m := .recall r.key n) hp ha hnodup h0 hroom
  have htake : u.takeWriter e k = { v with channels } := by
    have hepisode : ({ v with channels } : State).episode n = some ep := (episode_of_episodes (t := { v with channels }) rfl n).trans (if_pos rfl)
    have hnonempty : others.isEmpty = false := by simpa using hne
    have hopen : u.openEpisode e k n r' others = ((v.queueToEach others (.recall r.key n)).episodeCheck n) := by
      unfold openEpisode
      dsimp only
      have htimeout : u.recallTimeout = p.recallTimeout := by rw [recallTimeout, show u.params = some p from hparams]; rfl
      rw [htimeout]
      exact congrArg (fun v : State => (v.queueToEach others (.recall r.key n)).episodeCheck n) hopened
    unfold takeWriter
    rw [hu]
    dsimp only
    rw [hset, hnonempty, if_neg Bool.false_ne_true, show u.freeEpisodeRecord = some n from hfree]
    dsimp only
    rw [hopen, htold, episodeCheck_waiting hepisode hne]
  refine ⟨channels, ?_, hget⟩
  rw [becomeWriter, hwriter, htake]

end Sys2Proof.Machine

namespace Sys2Proof.Proofs

open Sys2Proof Sys2Proof.Machine

/-- Settles O21: the WRITE arrives, becomes the writer and opens the episode. -/
theorem writeRecallsTheOtherHolders : Obligations.WriteRecallsTheOtherHolders := by
  intro s c e k n p tag hold unit surface track sector buffer record others h hv hlook hfilling hloading hlist hwriter hne hnodup h0 hroom hn hfree
    hfirst hparams
  let q := s.newRequest c record
  let t := s.placed c e q
  have hr : t.request e = some q := by simp [t]
  have hc : c ∉ others := by simp [others]
  have hapart : ∀ d ∈ others, d ≠ c := fun d hd h => hc (h ▸ hd)
  have htc (d : Nat) : t.channel d = if d = c then (s.channel c).taken else s.channel d := by simp [t]
  have hpart : t.part ≠ .failed := by
    show s.part ≠ _
    rcases h.part with hp | hp <;> rw [hp] <;> decide
  have hrecord : t.freeEpisodeRecord = some n := by
    refine firstFrom_eq_some (Nat.zero_le n) (by rw [Nat.zero_add]; exact hn) ?_ fun m _ hm => ?_
    · show (s.episode n).isNone = true
      rw [hfree]; rfl
    · show (s.episode m).isNone = false
      rw [Option.isNone_eq_false_iff, Option.isSome_iff_ne_none]
      exact hfirst m hm
  obtain ⟨channels, hopens, hget⟩ := State.becomeWriter_recalls (t := t) (e := e) (k := k) (n := n) hr hpart h.settled rfl hne hnodup h0
    (fun d hd => by rw [htc, if_neg (hapart d hd)]; exact hroom d hd) hrecord hparams
  let u : State := { t with
    channels
    lines := SMap.set {} t.lines k { t.line k with writer := some e, episode := some n }
    table := SMap.set none t.table e (some { q with place := .parked (.episode n), line := some k })
    episodes := SMap.set none t.episodes n (some { key := q.key, line := k, writer := e, writerChannel := q.channel, recalled := others,
                                                   waiting := others, deadline := t.now + p.recallTimeout }) }
  have hstep : exec (.write tag hold unit surface track sector buffer) s = .next u := by
    refine h.step rfl hv rfl ?_ h.settled
    show t.toDirectory e none = _
    rw [State.toDirectory_hit hr hlook, State.arrive_write hr rfl (LineState.loadsData_eq_false hfilling hloading) hlist hwriter]
    exact hopens
  refine ⟨u, hstep, (State.episode_of_episodes (t := u) rfl n).trans (if_pos rfl), (State.line_of_lines (t := u) rfl k).trans (if_pos rfl),
    fun j hj => (State.line_of_lines (t := u) rfl j).trans (if_neg hj), (State.request_of_table (t := u) rfl e).trans (if_pos rfl),
    fun d hd => ?_, ?_, fun d hd hdc => ?_, rfl⟩
  · exact (hget d).trans ((if_pos hd).trans (by rw [htc, if_neg (hapart d hd)]; rfl))
  · exact (hget c).trans ((if_neg hc).trans ((htc c).trans (if_pos rfl)))
  · exact (hget d).trans ((if_neg hd).trans ((htc d).trans (if_neg hdc)))

end Sys2Proof.Proofs
end

section
/-! PROOF. The swap of a WRITE whose host transfer has completed (R6, R7, R30, R65). -/

namespace Sys2Proof.Machine

variable {s t : State} {e k n slot : Nat} {r : Request} {key : Key} {old new : Line} {x : Channel} {c : Completion}

/-! ### The line's new record (R7, R11) -/

/-- R74: a line that enters DIRTY joins its unit's flush list, and the sequencer is told. -/
theorem State.joinFlushList_enters (ho : old.state ≠ .dirty) (hn : new.state = .dirty) (hk : new.key = some key) :
    s.joinFlushList k old new = { s with
      units := SMap.set {} s.units key.unit { s.unit key.unit with
        flushList := insertBy FlushEntry.before ⟨k, key⟩ (s.unit key.unit).flushList }
      agenda := s.agenda ++ [.select key.unit] } := by
  rw [joinFlushList, if_pos ⟨ho, hn⟩, hk]
  dsimp only
  rw [updUnit_def, later_eq]
  rfl

/-- The line states that a swap takes to DIRTY. -/
def LineState.Clears (q : LineState) : Prop := q = .clean ∨ q = .stranded ∨ q = .loading

theorem Line.swapped_clears {ln : Line} {epoch : Epoch} (h : ln.state.Clears) : ln.swapped slot epoch = { ln with
    currentSlot := some slot, mark := .data, state := .dirty, dirtyEpoch := some epoch, failures := 0, flushSource := none } := by
  unfold Line.swapped
  rcases h with h | h | h <;> rw [h]

theorem Line.swapped_key (ln : Line) (slot : Nat) (epoch : Epoch) : (ln.swapped slot epoch).key = ln.key := by
  unfold Line.swapped
  cases ln.state <;> rfl

/-- What a swap's bookkeeping makes of a unit record. -/
def UnitRec.swapped (y : UnitRec) (k : Nat) (key : Key) (q : LineState) : UnitRec := { y with
  flushList := if q = .clean ∨ q = .stranded ∨ q = .loading then insertBy FlushEntry.before ⟨k, key⟩ y.flushList else y.flushList
  stranded := if q = .stranded then y.stranded - 1 else y.stranded }

/-- R80: pressure at a dirty count. -/
def State.pressureAt (s : State) (d : Nat) : Bool :=
  match s.params with
  | none => s.pressure
  | some p => if s.pressure then decide (p.lowMark < d) else decide (p.highMark ≤ d)

theorem State.comparePressure_pressureAt (s : State) : s.comparePressure = s.setPressure (s.pressureAt s.dirtyCount) := by
  unfold pressureAt
  cases hp : s.params with
  | none => rw [comparePressure, hp]; rfl
  | some p => exact comparePressure_eq hp

theorem State.Bookkept.part (h : s.Bookkept t) : t.part = s.part := by
  obtain ⟨_, _, _, _, rfl⟩ := h
  rfl

/-- R11: with no quiesce condition to test, a line record replaced is followed by WB's bookkeeping alone. -/
theorem State.putLine_counted (hp : s.part ≠ .quiescing) (k : Nat) (new : Line) : s.putLine k new
    = ((((s.setLine k new).leaveFlushList k (s.line k) new).joinFlushList k (s.line k) new).countStranded (s.line k) new).countDirty
        (s.line k) new := by
  have hpart := ((((leaveFlushList_bookkept (s.setLine k new) k (s.line k) new).trans (joinFlushList_bookkept _ k (s.line k) new)).trans
    (countStranded_bookkept _ (s.line k) new)).trans (countDirty_bookkept _ (s.line k) new)).part
  unfold putLine
  dsimp only
  rw [noteQuiesce_of_ne (by rw [hpart]; exact hp), ite_self]

/-- R74: a line that stays DIRTY stays on the list. -/
theorem State.leaveFlushList_stays (h : old.state = .dirty → new.state = .dirty) : s.leaveFlushList k old new = s :=
  if_neg fun ⟨ho, hn⟩ => hn (h ho)

theorem State.countDirty_same (h : old.state.inDirtyGroup = new.state.inDirtyGroup) : s.countDirty old new = s := by
  unfold countDirty
  rw [h]
  cases new.state.inDirtyGroup <;> rfl

theorem State.putLine_swapped {epoch : Epoch} (hp : s.part = .running) (hk : (s.line k).key = some key) (hfree : (s.line k).state ≠ .free)
    (hfilling : (s.line k).state ≠ .filling) : ∃ units w,
      s.putLine k ((s.line k).swapped slot epoch) = { s with
        lines := SMap.set {} s.lines k ((s.line k).swapped slot epoch), units
        dirtyCount := if (s.line k).state = .clean then s.dirtyCount + 1 else s.dirtyCount
        pressure := if (s.line k).state = .clean then s.pressureAt (s.dirtyCount + 1) else s.pressure
        agenda := s.agenda ++ w }
      ∧ (w = [] ∨ w = [.select key.unit])
      ∧ ∀ u, SMap.get {} units u = if u = key.unit then (s.unit key.unit).swapped k key (s.line k).state else s.unit u := by
  have hquiesce : s.part ≠ .quiescing := by rw [hp]; decide
  let new := (s.line k).swapped slot epoch
  have hnk : new.key = some key := (Line.swapped_key _ slot epoch).trans hk
  rw [putLine_counted hquiesce]
  show ∃ units w, ((((s.setLine k new).leaveFlushList k (s.line k) new).joinFlushList k (s.line k) new).countStranded (s.line k) new).countDirty
    (s.line k) new = _ ∧ _
  by_cases hc : (s.line k).state.Clears
  · have hn : new.state = .dirty := by rw [show new = _ from Line.swapped_clears hc]
    have hold : (s.line k).state ≠ .dirty := by rcases hc with h | h | h <;> rw [h] <;> decide
    let y : UnitRec := { s.unit key.unit with flushList := insertBy FlushEntry.before ⟨k, key⟩ (s.unit key.unit).flushList }
    let v : State := { s with
      lines := SMap.set {} s.lines k new, units := SMap.set {} s.units key.unit y, agenda := s.agenda ++ [.select key.unit] }
    have hjoin : (s.setLine k new).joinFlushList k (s.line k) new = v := joinFlushList_enters hold hn hnk
    rw [leaveFlushList_stays fun h => absurd h hold, hjoin]
    have hunits (z : UnitRec) (hz : z = (s.unit key.unit).swapped k key (s.line k).state) (u : Nat) :
        SMap.get {} (SMap.set {} s.units key.unit z) u = if u = key.unit then (s.unit key.unit).swapped k key (s.line k).state else s.unit u := by
      rw [SMap.get_set, hz]
      rfl
    rcases hc with h | h | h
    · have hcount : v.countDirty (s.line k) new = { v with dirtyCount := s.dirtyCount + 1, pressure := s.pressureAt (s.dirtyCount + 1) } := by
        rw [countDirty, h, hn]
        exact comparePressure_pressureAt (v.setDirtyCount (s.dirtyCount + 1))
      refine ⟨v.units, [.select key.unit], ?_, .inr rfl, hunits y (by rw [h]; rfl)⟩
      rw [countStranded_other (by rw [h]; decide) (by rw [hn]; decide), hcount, if_pos h, if_pos h]
    · let z : UnitRec := { y with stranded := y.stranded - 1 }
      have hvu : v.unit key.unit = y := (unit_of_units (t := v) rfl key.unit).trans (if_pos rfl)
      have hcount : v.countStranded (s.line k) new = { v with units := SMap.set {} s.units key.unit z } := by
        rw [countStranded, if_pos ⟨h, by rw [hn]; decide⟩, hk]
        dsimp only
        rw [updUnit_def, hvu]
        simp only [v, setUnit_eq, SMap.set_set]
        rfl
      refine ⟨SMap.set {} s.units key.unit z, [.select key.unit], ?_, .inr rfl, hunits z (by rw [h]; rfl)⟩
      rw [hcount, countDirty_same (by rw [h, hn]; rfl), if_neg (by rw [h]; decide), if_neg (by rw [h]; decide)]
    · refine ⟨v.units, [.select key.unit], ?_, .inr rfl, hunits y (by rw [h]; rfl)⟩
      rw [countStranded_other (by rw [h]; decide) (by rw [hn]; decide), countDirty_same (by rw [h, hn]; rfl), if_neg (by rw [h]; decide),
        if_neg (by rw [h]; decide)]
  · have hkept : (s.line k).state = .dirty ∧ new.state = .dirty ∨ (s.line k).state = .flushing ∧ new.state = .reflush
        ∨ (s.line k).state = .reflush ∧ new.state = .reflush := by
      simp only [new, Line.swapped]
      cases h : (s.line k).state <;> simp_all [LineState.Clears]
    have hclean : (s.line k).state ≠ .clean := fun h => hc (.inl h)
    have hsame (u : Nat) : s.unit u = if u = key.unit then (s.unit key.unit).swapped k key (s.line k).state else s.unit u := by
      have hrec : (s.unit key.unit).swapped k key (s.line k).state = s.unit key.unit := by
        rw [UnitRec.swapped, if_neg (show ¬ (_ ∨ _ ∨ _) from hc), if_neg fun h => hc (.inr (.inl h))]
      rw [hrec]
      split
      · next h => rw [h]
      · rfl
    refine ⟨s.units, [], ?_, .inl rfl, hsame⟩
    rw [leaveFlushList_stays (by rcases hkept with ⟨h, h'⟩ | ⟨h, h'⟩ | ⟨h, h'⟩ <;> simp [h, h']),
      joinFlushList_other (by rcases hkept with ⟨h, h'⟩ | ⟨h, h'⟩ | ⟨h, h'⟩ <;> simp [h, h']),
      countStranded_other (fun h => hc (.inr (.inl h))) (by rcases hkept with ⟨h, h'⟩ | ⟨h, h'⟩ | ⟨h, h'⟩ <;> simp [h']),
      countDirty_same (by rcases hkept with ⟨h, h'⟩ | ⟨h, h'⟩ | ⟨h, h'⟩ <;> rw [h, h'] <;> rfl), if_neg hclean, if_neg hclean, List.append_nil]
    rfl

/-- R7, as one table. -/
theorem Line.swapped_eq {ln : Line} {epoch : Epoch} (hfree : ln.state ≠ .free) (hfilling : ln.state ≠ .filling) : ln.swapped slot epoch = { ln with
    currentSlot := some slot, mark := .data
    state := if ln.state = .flushing ∨ ln.state = .reflush then .reflush else .dirty
    dirtyEpoch := if (ln.state = .clean ∨ ln.state = .stranded ∨ ln.state = .loading) ∨ ln.state = .flushing then some epoch else ln.dirtyEpoch
    sourceEpoch := if ln.state = .flushing then ln.dirtyEpoch else ln.sourceEpoch
    flushSource := if ln.state = .clean ∨ ln.state = .stranded ∨ ln.state = .loading then none else ln.flushSource
    failures := if ln.state = .clean ∨ ln.state = .stranded ∨ ln.state = .loading then 0 else ln.failures } := by
  unfold Line.swapped
  cases h : ln.state <;> simp_all

/-! ### The transfer completed (R6, R65) -/

theorem exec_writeTransferComplete (hp : s.part ≠ .failed) (h : s.Completes e r) (ha : r.place = .active) (hk : r.kind = some .write)
    (hl : r.line = some k) (hs : r.staging = some slot) (data : List Byte) :
    exec (.writeTransferComplete e data) s = .next (s.writeComplete e r k slot data).finish := by
  show execWriteTransferComplete e data s = _
  rw [execWriteTransferComplete, State.writeInFlight_eq hp h.held ha hk hl hs]

/-- The references after a swap has installed a staging slot. -/
def State.swapRefs (s : State) (k slot : Nat) : SMap Nat :=
  if (s.line k).state = .loading then SMap.set 0 s.refs slot (s.refCount slot - 1) else refsWithout s.refs (s.line k).currentSlot

theorem State.writeComplete_eq {data : List Byte} (hset : s.agenda = []) (hp : s.part = .running) (hk : (s.line k).key = some r.key)
    (hfree : (s.line k).state ≠ .free) (hfilling : (s.line k).state ≠ .filling) (hw : s.slotWait = []) (hu : (s.unit r.key.unit).unwaited)
    (hlength : data.length = 1024) : ∃ units w,
      s.writeComplete e r k slot data = { s with
        store := Memory.writeBytes s.store (slot * 1024) data
        lines := SMap.set {} s.lines k ((s.line k).swapped slot (s.unit r.key.unit).epoch), units
        dirtyCount := if (s.line k).state = .clean then s.dirtyCount + 1 else s.dirtyCount
        pressure := if (s.line k).state = .clean then s.pressureAt (s.dirtyCount + 1) else s.pressure
        recency := SMap.set [0, 1, 2, 3] s.recency (k / 4) (k % 4 :: (s.order (k / 4)).filter (· != k % 4))
        refs := s.swapRefs k slot, agenda := .afterSwap e :: w }
      ∧ (w = [] ∨ w = [.select r.key.unit])
      ∧ ∀ u, SMap.get {} units u
        = if u = r.key.unit then (s.unit r.key.unit).swapped k r.key (s.line k).state else s.unit u := by
  let epoch := (s.unit r.key.unit).epoch
  let t : State := { s with store := Memory.writeBytes s.store (slot * 1024) data, agenda := [.afterSwap e] }
  obtain ⟨units, w, hput, hwork, hunits⟩ := putLine_swapped (s := t) (slot := slot) (epoch := epoch) hp hk hfree hfilling
  let v : State := { t with
    lines := SMap.set {} s.lines k ((s.line k).swapped slot epoch), units
    dirtyCount := if (s.line k).state = .clean then s.dirtyCount + 1 else s.dirtyCount
    pressure := if (s.line k).state = .clean then s.pressureAt (s.dirtyCount + 1) else s.pressure
    recency := SMap.set [0, 1, 2, 3] s.recency (k / 4) (k % 4 :: (s.order (k / 4)).filter (· != k % 4))
    agenda := .afterSwap e :: w }
  refine ⟨units, w, ?_, hwork, hunits⟩
  have hswap : t.swap k slot epoch = { v with refs := s.swapRefs k slot } := by
    have htouched : (t.putLine k ((t.line k).swapped slot epoch)).touch k = v := by rw [hput]; rfl
    unfold swap swapRefs
    dsimp only
    rw [htouched, dropRef_nil (t := v) hw, dropSlot_eq (t := v) hw]
    show (if (s.line k).state = .loading then _ else _) = _
    split <;> rfl
  have hstart : (s.setStore (Memory.writeBytes s.store (slot * Config.slotBytes) (data.take Config.slotBytes))).soon [.afterSwap e] = t := by
    rw [soon_eq]
    show { s with store := Memory.writeBytes s.store (slot * 1024) (data.take 1024), agenda := [Work.afterSwap e] ++ s.agenda } = t
    rw [hset, List.take_of_length_le hlength.le]
    rfl
  have hnote : ({ v with refs := s.swapRefs k slot } : State).noteTransferEnd e r.key.unit = { v with refs := s.swapRefs k slot } := by
    have hunit : ({ v with refs := s.swapRefs k slot } : State).unit r.key.unit = (s.unit r.key.unit).swapped k r.key (s.line k).state :=
      (hunits r.key.unit).trans (if_pos rfl)
    exact noteTransferEnd_nil (by rw [hunit]; exact hu.1) (by rw [hunit]; exact hu.2)
  unfold writeComplete
  dsimp only
  rw [hstart]
  exact (congrArg (noteTransferEnd · e r.key.unit) hswap).trans hnote

/-! ### The hold of a WRITE (R30) and the end of the write phase -/

/-- R30: what refuses a WRITE's hold on line `k`. -/
def State.RefusesWrite (s : State) (r : Request) (k : Nat) : Prop :=
  (s.channel r.channel).state ≠ .open ∨ (s.unit r.key.unit).discarding = true
    ∨ (r.channel ∉ (s.line k).holders ∧ (s.channel r.channel).holdQuota ≤ (s.channel r.channel).holdCount)

theorem State.writeHold_of_refuses (h : s.RefusesWrite r k) : s.writeHold r k = .refused := by
  unfold writeHold
  split
  · rfl
  · next hopen =>
    split
    · rfl
    · next hkept =>
      obtain ⟨hnot, hquota⟩ := (h.resolve_left hopen).resolve_left hkept
      rw [if_neg (by simpa using hnot), Channel.quotaHold_eq, if_pos hquota]

theorem State.writeHold_of_not_refuses (h : ¬ s.RefusesWrite r k) :
    s.writeHold r k = if r.channel ∈ (s.line k).holders then .confirmed else .granted := by
  simp only [RefusesWrite, not_or, not_and, Decidable.not_not] at h
  obtain ⟨hopen, hkept, hquota⟩ := h
  unfold writeHold
  rw [if_neg (by simp [hopen]), if_neg hkept]
  simp only [List.contains_iff_mem]
  split
  · rfl
  · next hnot => rw [Channel.quotaHold_eq, if_neg (hquota hnot)]

/-- R152: a request that has not ended completes; what is on the agenda stays there. -/
theorem State.complete_held (hr : t.request e = some r) (hd : r.place ≠ .done) (hp : (t.channel r.channel).postError = false)
    (hf : (t.channel r.channel).fetchHold = none) (c : Completion) : t.complete e c = t.completed e r c := by
  rw [complete_plain c hr hd hp hf]
  simp only [setRequest_eq, updChannel, setChannel_eq, completed, channel]

theorem State.serveLine_nil (h : (s.line k).waitList = []) : s.serveLine k = s := by
  unfold serveLine
  dsimp only
  rw [if_pos (by simp [h])]

/-- R65: the hold decided, the completion, and the end of the write phase. -/
theorem State.afterSwap_eq {hold : Hold} (hh : (if r.record.hold then s.writeHold r k else .refused) = hold) (hr : s.request e = some r)
    (hd : r.place ≠ .done) (hp : (s.channel r.channel).postError = false) (hf : (s.channel r.channel).fetchHold = none) (hl : r.line = some k)
    (hlist : (s.line k).waitList = []) : s.afterSwap e = { s with
      lines := SMap.set {} s.lines k { s.line k with
        holders := if hold = .granted then joinSet r.channel (s.line k).holders else (s.line k).holders, writer := none }
      channels := SMap.set {} s.channels r.channel { s.channel r.channel with
        holdCount := if hold = .granted then (s.channel r.channel).holdCount + 1 else (s.channel r.channel).holdCount
        postQueue := (s.channel r.channel).postQueue ++ [e] }
      table := SMap.set none s.table e (some (r.ended { status := .success, flags := r.holdFlags hold { hit := !r.miss } })) } := by
  let c : Completion := { status := .success, flags := r.holdFlags hold { hit := !r.miss } }
  let ln : Line := { s.line k with holders := if hold = .granted then joinSet r.channel (s.line k).holders else (s.line k).holders }
  let x : Channel := { s.channel r.channel with
    holdCount := if hold = .granted then (s.channel r.channel).holdCount + 1 else (s.channel r.channel).holdCount }
  let v : State := { s with
    lines := SMap.set {} s.lines k { ln with writer := none }
    channels := SMap.set {} s.channels r.channel { x with postQueue := (s.channel r.channel).postQueue ++ [e] }
    table := SMap.set none s.table e (some (r.ended c)) }
  have hvk : v.line k = { ln with writer := none } := (line_of_lines (t := v) rfl k).trans (if_pos rfl)
  have hends : ((s.applyHold r.channel k hold).complete e c).updLine k (fun x => { x with writer := none }) = v := by
    have hplain (h : hold ≠ .granted) (ha : s.applyHold r.channel k hold = s) :
        ((s.applyHold r.channel k hold).complete e c).updLine k (fun x => { x with writer := none }) = v := by
      have hln : ln = s.line k := by simp only [ln, if_neg h]
      have hx : x = s.channel r.channel := by simp only [x, if_neg h]
      rw [ha, complete_held hr hd hp hf]
      simp only [v, hln, hx]
      rfl
    cases hold with
    | refused => exact hplain (by decide) rfl
    | confirmed => exact hplain (by decide) rfl
    | granted =>
      let w : State := { s with lines := SMap.set {} s.lines k ln, channels := SMap.set {} s.channels r.channel x }
      have hw : s.applyHold r.channel k .granted = w := rfl
      have hwk : w.line k = ln := (line_of_lines (t := w) rfl k).trans (if_pos rfl)
      have hwc : w.channel r.channel = x := (channel_of_channels (t := w) rfl r.channel).trans (if_pos rfl)
      rw [hw, complete_held (t := w) hr hd (by rw [hwc]; exact hp) (by rw [hwc]; exact hf), updLine_eq (s := w.completed e r c) hwk]
      simp only [completed, hwc]
      simp only [w, v, SMap.set_set]
      rfl
  unfold afterSwap
  rw [hr]
  dsimp only
  rw [hl]
  dsimp only
  rw [hh, hends]
  exact serveLine_nil (by rw [hvk]; exact hlist)

theorem State.writeHold_congr (hc : t.channel r.channel = s.channel r.channel)
    (hu : (t.unit r.key.unit).discarding = (s.unit r.key.unit).discarding) (hl : (t.line k).holders = (s.line k).holders) :
    t.writeHold r k = s.writeHold r k := by
  unfold writeHold
  rw [hc, hu, hl]

/-- R30: the decision on a WRITE's hold. -/
def State.swapHold (s : State) (r : Request) (k : Nat) : Hold := if r.record.hold then s.writeHold r k else .refused

/-- The state after a swap whose WRITE has completed. -/
def State.swapEnds (s : State) (e k slot : Nat) (r : Request) (data : List Byte) (units : SMap UnitRec) : State := { s with
  store := Memory.writeBytes s.store (slot * 1024) data
  lines := SMap.set {} s.lines k { (s.line k).swapped slot (s.unit r.key.unit).epoch with
    holders := if s.swapHold r k = .granted then joinSet r.channel (s.line k).holders else (s.line k).holders, writer := none }
  channels := SMap.set {} s.channels r.channel { s.channel r.channel with
    holdCount := if s.swapHold r k = .granted then (s.channel r.channel).holdCount + 1 else (s.channel r.channel).holdCount
    postQueue := (s.channel r.channel).postQueue ++ [e] }
  table := SMap.set none s.table e (some (r.ended { status := .success, flags := r.holdFlags (s.swapHold r k) { hit := !r.miss } }))
  units
  dirtyCount := if (s.line k).state = .clean then s.dirtyCount + 1 else s.dirtyCount
  pressure := if (s.line k).state = .clean then s.pressureAt (s.dirtyCount + 1) else s.pressure
  recency := SMap.set [0, 1, 2, 3] s.recency (k / 4) (k % 4 :: (s.order (k / 4)).filter (· != k % 4))
  refs := s.swapRefs k slot }

theorem Line.swapped_waiters (ln : Line) (slot : Nat) (epoch : Epoch) :
    (ln.swapped slot epoch).waitList = ln.waitList ∧ (ln.swapped slot epoch).holders = ln.holders := by
  unfold Line.swapped
  cases ln.state <;> exact ⟨rfl, rfl⟩

theorem UnitRec.swapped_keeps (y : UnitRec) (k : Nat) (key : Key) (q : LineState) :
    (y.swapped k key q).op = y.op ∧ (y.swapped k key q).discarding = y.discarding := ⟨rfl, rfl⟩

/-- A swap runs its WRITE to its end; the sequencer, which is at work, selects nothing. -/
theorem State.writeComplete_ends {data : List Byte} (hp : s.part = .running) (h : s.Completes e r) (hl : r.line = some k)
    (hw : s.slotWait = []) (hlist : (s.line k).waitList = []) (hk : (s.line k).key = some r.key) (hop : (s.unit r.key.unit).op ≠ none)
    (hu : (s.unit r.key.unit).unwaited) (hfree : (s.line k).state ≠ .free) (hfilling : (s.line k).state ≠ .filling) (hlength : data.length = 1024) :
    ∃ units, (s.writeComplete e r k slot data).finish = s.swapEnds e k slot r data units
      ∧ ∀ u, SMap.get {} units u = if u = r.key.unit then (s.unit r.key.unit).swapped k r.key (s.line k).state else s.unit u := by
  obtain ⟨units, w, hcomplete, hwork, hunits⟩ := writeComplete_eq (e := e) (slot := slot) h.settled hp hk hfree hfilling hw hu hlength
  refine ⟨units, ?_, hunits⟩
  let new := (s.line k).swapped slot (s.unit r.key.unit).epoch
  let v : State := { s with
    store := Memory.writeBytes s.store (slot * 1024) data
    lines := SMap.set {} s.lines k new, units
    dirtyCount := if (s.line k).state = .clean then s.dirtyCount + 1 else s.dirtyCount
    pressure := if (s.line k).state = .clean then s.pressureAt (s.dirtyCount + 1) else s.pressure
    recency := SMap.set [0, 1, 2, 3] s.recency (k / 4) (k % 4 :: (s.order (k / 4)).filter (· != k % 4))
    refs := s.swapRefs k slot, agenda := w }
  have hvk : v.line k = new := (line_of_lines (t := v) rfl k).trans (if_pos rfl)
  obtain ⟨hnewlist, hnewholders⟩ := Line.swapped_waiters (s.line k) slot (s.unit r.key.unit).epoch
  have hvu : v.unit r.key.unit = (s.unit r.key.unit).swapped k r.key (s.line k).state := (hunits r.key.unit).trans (if_pos rfl)
  have hhold : (if r.record.hold then v.writeHold r k else .refused) = s.swapHold r k := by
    rw [writeHold_congr (s := s) (t := v) rfl (by rw [hvu]; rfl) (by rw [hvk]; exact hnewholders)]
    rfl
  have hafter : v.afterSwap e = (s.swapEnds e k slot r data units).setAgenda w := by
    rw [afterSwap_eq (s := v) hhold h.held h.undone h.posts h.clear hl (by rw [hvk]; exact hnewlist.trans hlist), hvk,
      show new.holders = (s.line k).holders from hnewholders]
    simp only [v, SMap.set_set]
    rfl
  rw [hcomplete]
  have hrun (n : Nat) (hrest : RunsTo n ((s.swapEnds e k slot r data units).setAgenda w) (s.swapEnds e k slot r data units)) :
      RunsTo (n + 1) (v.setAgenda (.afterSwap e :: w)) (s.swapEnds e k slot r data units) := by
    refine .cons ?_
    show RunsTo n (v.afterSwap e) _
    rw [hafter]
    exact hrest
  rcases hwork with rfl | rfl
  · exact (hrun 0 (.done h.settled)).finish rfl
  · have hend : ((s.swapEnds e k slot r data units).unit r.key.unit).op.isSome := by
      show (SMap.get {} units r.key.unit).op.isSome
      rw [hunits, if_pos rfl]
      exact Option.isSome_iff_ne_none.2 hop
    exact (hrun 1 (.idle (select_of_op hend) (.done h.settled))).finish rfl

theorem State.swapHold_granted_iff : s.swapHold r k = .granted
    ↔ (r.record.hold = true ∧ ¬ s.RefusesWrite r k) ∧ r.channel ∉ (s.line k).holders := by
  unfold swapHold
  by_cases hh : r.record.hold = true
  · rw [if_pos hh]
    by_cases href : s.RefusesWrite r k
    · rw [writeHold_of_refuses href]; simp [href]
    · rw [writeHold_of_not_refuses href]
      by_cases hin : r.channel ∈ (s.line k).holders <;> simp [hh, href, hin]
  · simp [hh]

theorem State.swapHold_flags {hit granted refused : Bool} (hg : granted = true ↔ r.record.hold = true ∧ ¬ s.RefusesWrite r k)
    (hr : refused = true ↔ r.record.hold = true ∧ s.RefusesWrite r k) : r.holdFlags (s.swapHold r k) { hit } = { hit, granted, refused } := by
  unfold Request.holdFlags swapHold
  by_cases hh : r.record.hold = true
  · simp only [if_pos hh]
    by_cases href : s.RefusesWrite r k
    · rw [writeHold_of_refuses href, hr.2 ⟨hh, href⟩, Bool.eq_false_iff.2 fun h => (hg.1 h).2 href]
      rfl
    · rw [writeHold_of_not_refuses href, hg.2 ⟨hh, href⟩, Bool.eq_false_iff.2 fun h => href (hr.1 h).2]
      split <;> rfl
  · rw [if_neg hh, Bool.eq_false_iff.2 fun h => hh (hg.1 h).1, Bool.eq_false_iff.2 fun h => hh (hr.1 h).1]

end Sys2Proof.Machine

namespace Sys2Proof.Proofs

open Sys2Proof Sys2Proof.Machine

/-- Settles O41: the swap of R7, then the hold and the completion of R65, each read off the state that the step leaves. -/
theorem writeTransferSwapsTheSlot : Obligations.WriteTransferSwapsTheSlot := by
  intro s e k slot r data hp h hplace hkind hline hstaging hlength hsw hw hlist hkey hop hu hfree hfilling x y ln clears refused granted joins
  have hpart : s.part ≠ .failed := by rw [hp]; decide
  obtain ⟨units, hfinish, hunits⟩ := State.writeComplete_ends (slot := slot) hp h hline hsw hlist hkey hop hu hfree hfilling hlength
  let t := s.swapEnds e k slot r data units
  have hjoins : s.swapHold r k = .granted ↔ joins := State.swapHold_granted_iff
  have hlines := State.line_of_lines (t := t) (m := s.lines) (k := k) rfl
  have htable := State.request_of_table (t := t) (m := s.table) (e := e)
    (x := some (r.ended { status := .success, flags := r.holdFlags (s.swapHold r k) { hit := !r.miss } })) rfl
  have hchannels := State.channel_of_channels (t := t) (m := s.channels) (c := r.channel) rfl
  refine ⟨t, (exec_writeTransferComplete hpart h hplace hkind hline hstaging data).trans (congrArg Host.Outcome.next hfinish), ?_, fun a ha => ?_, ?_,
    fun j hj => (hlines j).trans (if_neg hj), ?_, fun j hj => (htable j).trans (if_neg hj), ?_, fun j hj => (hchannels j).trans (if_neg hj),
    fun hl => ?_, fun hl old ho => ?_, ?_, fun j hj => ?_, fun p hparams => ?_, rfl, ?_, fun u hu => ?_, rfl, rfl, rfl⟩
  · have hread := Memory.readBytes_writeBytes data s.store (slot * 1024)
    rw [hlength] at hread
    exact hread
  · exact Memory.read_writeBytes_out data s.store (slot * 1024) a (by rw [hlength]; exact ha)
  · rw [hlines, if_pos rfl, Line.swapped_eq hfree hfilling]
    simp only [hjoins]
    rfl
  · refine (htable e).trans ((if_pos rfl).trans ?_)
    refine congrArg (fun f => some (r.ended { status := .success, flags := f })) ?_
    exact State.swapHold_flags decide_eq_true_iff decide_eq_true_iff
  · rw [hchannels, if_pos rfl]
    simp only [hjoins]
    rfl
  · have hrefs : t.refs = SMap.set 0 s.refs slot (s.refCount slot - 1) := if_pos hl
    exact ⟨(State.refCount_of_refs hrefs slot).trans (if_pos rfl), fun j hj => (State.refCount_of_refs hrefs j).trans (if_neg hj)⟩
  · have hrefs : t.refs = SMap.set 0 s.refs old (s.refCount old - 1) := by
      have : t.refs = refsWithout s.refs (s.line k).currentSlot := if_neg hl
      rw [this, show (s.line k).currentSlot = some old from ho]
      rfl
    exact ⟨(State.refCount_of_refs hrefs old).trans (if_pos rfl), fun j hj => (State.refCount_of_refs hrefs j).trans (if_neg hj)⟩
  · exact (SMap.get_set ..).trans (if_pos rfl)
  · exact (SMap.get_set ..).trans (if_neg hj)
  · show (if (s.line k).state = .clean then s.pressureAt (s.dirtyCount + 1) else s.pressure) = _
    rw [State.pressureAt, hparams, ite_not]
  · exact (hunits r.key.unit).trans (if_pos rfl)
  · exact (hunits u).trans (if_neg hu)

end Sys2Proof.Proofs
end

section
/-! PROOF. Lines of a unit freed with the holds on them (R10, R32, R48, R49, R180, R183). -/

namespace Sys2Proof.Machine

variable {s t : State} {k u : Nat} {key : Key}

/-! ### One line -/

/-- R74, R79: what the freeing of line `k` makes of its unit's record. -/
def UnitRec.lineFreed (y : UnitRec) (k : Nat) (q : LineState) : UnitRec := { y with
  flushList := y.flushList.filter (fun f => !(f.line == k && q == .dirty))
  stranded := y.stranded - if q = .stranded then 1 else 0 }

theorem UnitRec.lineFreed_other {y : UnitRec} {q : LineState} (hd : q ≠ .dirty) (hs : q ≠ .stranded) : y.lineFreed k q = y := by
  have hflush : y.flushList.filter (fun f => !(f.line == k && q == .dirty)) = y.flushList :=
    List.filter_eq_self.2 fun f _ => by simp [hd]
  rw [lineFreed, hflush, if_neg hs]
  rfl

theorem State.countDirty_leaves (s : State) (old : Line) : ∃ b, s.countDirty old {} = { s with
    dirtyCount := s.dirtyCount - (if old.state.inDirtyGroup then 1 else 0), pressure := b } := by
  unfold countDirty
  cases old.state.inDirtyGroup with
  | false => exact ⟨s.pressure, rfl⟩
  | true =>
    obtain ⟨b, hb⟩ := (s.setDirtyCount (s.dirtyCount - 1)).comparePressure_frame
    exact ⟨b, hb⟩

/-- R10, R74, R79: a line record freed, with no quiesce condition to test. -/
theorem State.putLine_freed (hp : s.part ≠ .quiescing) (hk : (s.line k).key = some key) : ∃ units b,
    s.putLine k {} = { s with
      lines := SMap.set {} s.lines k {}, units, pressure := b
      dirtyCount := s.dirtyCount - (if (s.line k).state.inDirtyGroup then 1 else 0) }
    ∧ ∀ v, SMap.get {} units v = if v = key.unit then (s.unit key.unit).lineFreed k (s.line k).state else s.unit v := by
  have hkeep (y : UnitRec) (hy : y = (s.unit key.unit).lineFreed k (s.line k).state) (v : Nat) :
      SMap.get {} (SMap.set {} s.units key.unit y) v = if v = key.unit then (s.unit key.unit).lineFreed k (s.line k).state else s.unit v := by
    rw [SMap.get_set, hy]
    rfl
  have hbook (y : UnitRec) (hy : y = (s.unit key.unit).lineFreed k (s.line k).state)
      (hcount : ((s.setLine k {}).leaveFlushList k (s.line k) {}).countStranded (s.line k) {} = { s with
        lines := SMap.set {} s.lines k {}, units := SMap.set {} s.units key.unit y }) : ∃ units b,
      s.putLine k {} = { s with
        lines := SMap.set {} s.lines k {}, units, pressure := b
        dirtyCount := s.dirtyCount - (if (s.line k).state.inDirtyGroup then 1 else 0) }
      ∧ ∀ v, SMap.get {} units v = if v = key.unit then (s.unit key.unit).lineFreed k (s.line k).state else s.unit v := by
    obtain ⟨b, hb⟩ := countDirty_leaves { s with lines := SMap.set {} s.lines k {}, units := SMap.set {} s.units key.unit y } (s.line k)
    refine ⟨SMap.set {} s.units key.unit y, b, ?_, hkeep y hy⟩
    rw [putLine_counted hp, joinFlushList_other (.inr (by decide)), hcount]
    exact hb
  by_cases hd : (s.line k).state = .dirty
  · refine hbook _ rfl ?_
    rw [countStranded_other (by rw [hd]; decide) (by decide), leaveFlushList, if_pos ⟨hd, by decide⟩, hk]
    dsimp only
    rw [updUnit_def, hd]
    have hlist : ((s.setLine k {}).unit key.unit).flushList.filter (·.line != k)
        = (s.unit key.unit).flushList.filter (fun f => !(f.line == k && LineState.dirty == .dirty)) :=
      List.filter_congr fun f _ => by simp [bne]
    rw [hlist]
    rfl
  · by_cases hst : (s.line k).state = .stranded
    · refine hbook _ rfl ?_
      rw [leaveFlushList_other hd, countStranded, if_pos ⟨hst, by decide⟩, hk]
      dsimp only
      have hlist : (s.unit key.unit).flushList.filter (fun f => !(f.line == k && LineState.stranded == .dirty)) = (s.unit key.unit).flushList :=
        List.filter_eq_self.2 fun f _ => by simp
      rw [updUnit_def, hst, UnitRec.lineFreed, hlist]
      rfl
    · obtain ⟨b, hb⟩ := countDirty_leaves { s with lines := SMap.set {} s.lines k {} } (s.line k)
      refine ⟨s.units, b, ?_, fun v => ?_⟩
      · rw [putLine_counted hp, joinFlushList_other (.inr (by decide)), leaveFlushList_other hd, countStranded_other hst (by decide)]
        exact hb
      · rw [UnitRec.lineFreed_other hd hst]
        split
        · next h => rw [h]; rfl
        · rfl

/-- R32: the holds of some channels on a line dropped, one after the other, with no episode, no writer and no request waiting. -/
theorem State.dropHolds_eq : ∀ {l : List Nat} {s : State}, s.agenda = [] → s.setWait = [] → (s.line k).episode = none → (s.line k).writer = none →
    ∃ lines channels h, s.forEach l (fun c t => t.dropHold c k) = { s with lines, channels }
      ∧ (∀ j, SMap.get {} lines j = if j = k then { s.line k with holders := h } else s.line j)
      ∧ ∀ d, SMap.get {} channels d = { s.channel d with holdCount := (s.channel d).holdCount - l.count d }
  | [], s, _, _, _, _ => ⟨s.lines, s.channels, (s.line k).holders, rfl, fun j => by
      split
      · next h => rw [h]; rfl
      · rfl, fun _ => rfl⟩
  | c :: l, s, ha, hset, he, hw => by
    let ln : Line := { s.line k with holders := (s.line k).holders.filter (· != c) }
    let t : State := { s with
      lines := SMap.set {} s.lines k ln
      channels := SMap.set {} s.channels c { s.channel c with holdCount := (s.channel c).holdCount - 1 } }
    have hfirst : s.inOrder (fun t => t.dropHold c k) = t := by
      rw [inOrder_settled ha]
      exact dropHold_eq he (.inl hw) (by rw [waiters, hset]; rfl)
    have htk : t.line k = ln := (line_of_lines (t := t) rfl k).trans (if_pos rfl)
    obtain ⟨lines, channels, h, hrest, hlines, hchannels⟩ := dropHolds_eq (l := l) (s := t) ha hset (by rw [htk]; exact he) (by rw [htk]; exact hw)
    refine ⟨lines, channels, h, (congrArg (fun t : State => t.forEach l (fun c t => t.dropHold c k)) hfirst).trans hrest, fun j => ?_, fun d => ?_⟩
    · rw [hlines, htk, line_of_lines (t := t) (m := s.lines) (x := ln) rfl j]
      by_cases hj : j = k
      · rw [if_pos hj, if_pos hj]
      · rw [if_neg hj, if_neg hj, if_neg hj]
        rfl
    · rw [hchannels, channel_of_channels (t := t) (m := s.channels) rfl d]
      by_cases hd : d = c
      · subst hd
        rw [if_pos rfl, List.count_cons_self]
        show { s.channel d with holdCount := (s.channel d).holdCount - 1 - l.count d } = _
        rw [Nat.sub_sub, Nat.add_comm 1]
      · rw [if_neg hd, List.count_cons_of_ne (Ne.symm hd)]
        rfl

/-! ### All the lines of a unit -/

/-- R10, R48, R49: from `s` to `t` the lines `l` of unit `u` have been freed with the holds on them, and nothing was set in motion. -/
def State.Gone (s t : State) (u : Nat) (l : List Nat) : Prop := ∃ lines channels units b refs,
  t = { s with
    lines, channels, units, refs, pressure := b
    dirtyCount := s.dirtyCount - (l.filter (fun k => (s.line k).state.inDirtyGroup)).length }
  ∧ (∀ j, SMap.get {} lines j = if j ∈ l then {} else s.line j)
  ∧ (∀ d, SMap.get {} channels d = { s.channel d with
      holdCount := (s.channel d).holdCount - (l.map (fun k => (s.line k).holders.count d)).sum })
  ∧ ∀ v, SMap.get {} units v = if v = u then { s.unit u with
      flushList := (s.unit u).flushList.filter (fun f => !(l.contains f.line && (s.line f.line).state == .dirty))
      stranded := (s.unit u).stranded - (l.filter (fun k => (s.line k).state == .stranded)).length } else s.unit v

/-- R22: with nothing on the agenda no request goes on. -/
theorem State.continueSlots_nil (h : s.agenda = []) (n : Nat) : State.continueSlots n s = s := by
  cases n with
  | zero => rfl
  | succ n =>
    unfold continueSlots
    rw [h]

/-- R48, R49, R180, R183: the turn of one line. -/
theorem State.freeUnitLine_eq (ha : s.agenda = []) (hp : s.part ≠ .quiescing) (hset : s.setWait = []) (hslot : s.slotWait = [])
    (hu : (s.line k).ofUnit u = true) (he : (s.line k).episode = none) (hw : (s.line k).writer = none) : ∃ lines channels units b refs,
    s.freeUnitLine u k = { s with
      lines, channels, units, refs, pressure := b
      dirtyCount := s.dirtyCount - (if (s.line k).state.inDirtyGroup then 1 else 0) }
    ∧ (∀ j, SMap.get {} lines j = if j = k then {} else s.line j)
    ∧ (∀ d, SMap.get {} channels d = { s.channel d with holdCount := (s.channel d).holdCount - (s.line k).holders.count d })
    ∧ ∀ v, SMap.get {} units v = if v = u then (s.unit u).lineFreed k (s.line k).state else s.unit v := by
  obtain ⟨key, hkey, hunit⟩ : ∃ key, (s.line k).key = some key ∧ key.unit = u := by
    simpa [Line.ofUnit, Option.any_eq_true] using hu
  subst hunit
  obtain ⟨lines, channels, h, hdrop, hlines, hchannels⟩ := dropHolds_eq (l := (s.line k).holders) ha hset he hw
  let v : State := { s with lines, channels }
  have hvk : v.line k = { s.line k with holders := h } := (hlines k).trans (if_pos rfl)
  obtain ⟨units, b, hput, hunits⟩ := putLine_freed (s := v) hp (by rw [hvk]; exact hkey)
  let p : State := { v with
    lines := SMap.set {} lines k {}, units, pressure := b
    dirtyCount := s.dirtyCount - (if (s.line k).state.inDirtyGroup then 1 else 0) }
  have hput' : v.putLine k {} = p := by rw [hput, hvk]
  let w : State := { p with refs := refsWithout (refsWithout s.refs (v.line k).flushSource) (v.line k).currentSlot }
  have hfree : v.freeLine k = w := by
    unfold freeLine
    dsimp only
    rw [hput', dropSlot_eq (t := p) hslot, dropSlot_eq (by exact hslot)]
  have hwaiters : w.waiters (setOfLine k) = [] := by
    show SMap.get [] s.setWait _ = []
    rw [hset]
    rfl
  have hheld : s.freeHeldLine k = w := by
    unfold freeHeldLine
    dsimp only
    rw [hdrop, hfree, hwaiters]
    rfl
  refine ⟨w.lines, channels, units, b, w.refs, ?_, fun j => ?_, hchannels, fun v => ?_⟩
  · rw [freeUnitLine, if_pos hu, hheld, continueSlots_nil (s := w) ha]
  · show SMap.get {} (SMap.set {} lines k {}) j = _
    rw [SMap.get_set, hlines]
    by_cases hj : j = k
    · rw [if_pos hj, if_pos hj]
    · rw [if_neg hj, if_neg hj, if_neg hj]
  · rw [hunits, hvk]
    rfl

theorem State.Gone.nil (s : State) (u : Nat) : s.Gone s u [] := by
  refine ⟨s.lines, s.channels, s.units, s.pressure, s.refs, rfl, fun j => rfl, fun d => rfl, fun v => ?_⟩
  have hflush : (s.unit u).flushList.filter (fun f => !([].contains f.line && (s.line f.line).state == .dirty)) = (s.unit u).flushList :=
    List.filter_eq_self.2 fun f _ => rfl
  rw [hflush]
  split
  · next h => rw [h]; rfl
  · rfl

/-- R48, R49, R180, R183: some lines of a unit freed, one after the other, with nothing waiting for what they set free. -/
theorem State.freeUnitLines_gone : ∀ {l : List Nat} {s : State}, s.agenda = [] → s.part ≠ .quiescing → s.setWait = [] → s.slotWait = [] → l.Nodup →
    (∀ k ∈ l, (s.line k).ofUnit u = true ∧ (s.line k).episode = none ∧ (s.line k).writer = none) →
    s.Gone (s.forEach l (fun k t => t.freeUnitLine u k)) u l
  | [], s, _, _, _, _, _, _ => .nil s u
  | k :: l, s, ha, hp, hset, hslot, hnodup, hlines => by
    obtain ⟨hk, hl⟩ := List.nodup_cons.1 hnodup
    obtain ⟨hu, he, hw⟩ := hlines k List.mem_cons_self
    obtain ⟨lines, channels, units, b, refs, hfirst, hline, hchannel, hunit⟩ := freeUnitLine_eq ha hp hset hslot hu he hw
    let t : State := { s with
      lines, channels, units, refs, pressure := b
      dirtyCount := s.dirtyCount - (if (s.line k).state.inDirtyGroup then 1 else 0) }
    have hstart : s.inOrder (fun t => t.freeUnitLine u k) = t := (inOrder_settled ha _).trans hfirst
    have hother (j : Nat) (hj : j ∈ l) : t.line j = s.line j := (hline j).trans (if_neg fun h : j = k => hk (h ▸ hj))
    obtain ⟨lines', channels', units', b', refs', hrest, hline', hchannel', hunit'⟩ := freeUnitLines_gone (l := l) (s := t) ha hp hset hslot hl
      fun j hj => by rw [hother j hj]; exact hlines j (List.mem_cons_of_mem k hj)
    have hcount (q : Line → Bool) : (l.filter (fun j => q (t.line j))).length = (l.filter (fun j => q (s.line j))).length :=
      congrArg List.length (List.filter_congr fun j hj => by rw [hother j hj])
    have hcons (q : Line → Bool) : ((k :: l).filter (fun j => q (s.line j))).length
        = (if q (s.line k) = true then 1 else 0) + (l.filter (fun j => q (s.line j))).length := by
      rw [List.filter_cons]
      split
      · rw [List.length_cons, Nat.add_comm]
      · rw [Nat.zero_add]
    refine ⟨lines', channels', units', b', refs', ?_, fun j => ?_, fun d => ?_, fun v => ?_⟩
    · refine (congrArg (fun t : State => t.forEach l (fun k t => t.freeUnitLine u k)) hstart).trans (hrest.trans ?_)
      have hd : t.dirtyCount - (l.filter (fun j => (t.line j).state.inDirtyGroup)).length
          = s.dirtyCount - ((k :: l).filter (fun j => (s.line j).state.inDirtyGroup)).length := by
        rw [hcount (fun ln => ln.state.inDirtyGroup), hcons (fun ln => ln.state.inDirtyGroup), ← Nat.sub_sub]
      rw [hd]
    · rw [hline', show t.line j = _ from hline j]
      by_cases hj : j ∈ l
      · rw [if_pos hj, if_pos (List.mem_cons_of_mem k hj)]
      · rw [if_neg hj]
        exact if_congr (by simp [hj]) rfl rfl
    · have hsum : l.map (fun j => (t.line j).holders.count d) = l.map (fun j => (s.line j).holders.count d) :=
        List.map_congr_left fun j hj => by rw [hother j hj]
      rw [hchannel', show t.channel d = _ from hchannel d, hsum, List.map_cons, List.sum_cons, ← Nat.sub_sub]
    · rw [hunit', hcount (fun ln => ln.state == .stranded)]
      have htu : t.unit u = (s.unit u).lineFreed k (s.line k).state := (hunit u).trans (if_pos rfl)
      by_cases hv : v = u
      · rw [if_pos hv, if_pos hv, htu, hcons (fun ln => ln.state == .stranded)]
        have hflush : ((s.unit u).lineFreed k (s.line k).state).flushList.filter (fun f => !(l.contains f.line && (t.line f.line).state == .dirty))
            = (s.unit u).flushList.filter (fun f => !((k :: l).contains f.line && (s.line f.line).state == .dirty)) := by
          rw [UnitRec.lineFreed, List.filter_filter]
          refine List.filter_congr fun f _ => ?_
          by_cases hf : f.line = k
          · simp [hf, hk]
          · rw [show t.line f.line = s.line f.line from (hline f.line).trans (if_neg hf)]
            simp [hf]
        rw [hflush, UnitRec.lineFreed, ← Nat.sub_sub]
        simp only [beq_iff_eq]
      · rw [if_neg hv, if_neg hv]
        exact (hunit v).trans (if_neg hv)

/-! ### The whole unit -/

theorem SMap.lt_of_rising {α : Type} {a : Nat} : ∀ {m : SMap α}, SMap.rising (some a) m = true → ∀ p ∈ m, a < p.1
  | (b, v) :: m, h, p, hp => by
    obtain ⟨hab, hm⟩ := (SMap.rising_cons (some a) b v m).1 h
    have hlt : a < b := hab a rfl
    rcases List.mem_cons.1 hp with rfl | hp
    · exact hlt
    · exact hlt.trans (lt_of_rising hm p hp)

/-- A table lists each number once. -/
theorem SMap.keys_nodup {α : Type} : ∀ {m : SMap α} {low : Option Nat}, SMap.rising low m = true → (m.map (·.1)).Nodup
  | [], _, _ => List.nodup_nil
  | (a, v) :: m, low, h => by
    obtain ⟨-, hm⟩ := (SMap.rising_cons low a v m).1 h
    refine List.nodup_cons.2 ⟨fun hmem => ?_, keys_nodup (low := some a) hm⟩
    obtain ⟨p, hp, heq⟩ := List.mem_map.1 hmem
    exact absurd (lt_of_rising hm p hp) (by rw [heq]; exact Nat.lt_irrefl a)

theorem State.line_of_mem (h : SMap.wf {} s.lines = true) {p : Nat × Line} (hp : p ∈ s.lines) : s.line p.1 = p.2 :=
  ((SMap.mem_iff ({} : Line) h p.1 p.2).1 hp).1

theorem State.mem_linesOf (h : SMap.wf {} s.lines = true) : k ∈ s.linesOf u ↔ (s.line k).ofUnit u = true := by
  rw [linesOf, List.mem_map]
  constructor
  · rintro ⟨p, hp, rfl⟩
    obtain ⟨hmem, hu⟩ := List.mem_filter.1 hp
    rw [line_of_mem h hmem]
    exact hu
  · intro hu
    have hne : s.line k ≠ {} := fun hd => by rw [hd] at hu; cases hu
    exact ⟨(k, s.line k), List.mem_filter.2 ⟨(SMap.mem_iff {} h k (s.line k)).2 ⟨rfl, hne⟩, hu⟩, rfl⟩

theorem State.linesOf_nodup (h : SMap.wf {} s.lines = true) : (s.linesOf u).Nodup := by
  rw [SMap.wf, Bool.and_eq_true] at h
  exact (SMap.keys_nodup (low := none) h.1).sublist (List.filter_sublist.map _)

/-- The lines of a unit by their records. -/
theorem State.linesOf_map {α : Type} (h : SMap.wf {} s.lines = true) (f : Line → α) :
    (s.linesOf u).map (fun k => f (s.line k)) = (s.lines.filter (fun p => p.2.ofUnit u)).map (fun p => f p.2) := by
  rw [linesOf, List.map_map]
  exact List.map_congr_left fun p hp => congrArg f (line_of_mem h (List.mem_of_mem_filter hp))

theorem State.linesOf_filter (h : SMap.wf {} s.lines = true) (q : Line → Bool) :
    ((s.linesOf u).filter (fun k => q (s.line k))).length = (s.lines.filter (fun p => p.2.ofUnit u && q p.2)).length := by
  rw [linesOf, List.filter_map, List.length_map, List.filter_filter]
  refine congrArg List.length (List.filter_congr fun p hp => ?_)
  show (q (s.line p.1) && p.2.ofUnit u) = _
  rw [line_of_mem h hp, Bool.and_comm]

theorem State.mem_holdersOf {d : Nat} : d ∈ s.holdersOf u ↔ d < 16 ∧ s.lines.any (fun p => p.2.ofUnit u && p.2.holders.contains d) = true := by
  rw [holdersOf, List.mem_filter, List.mem_range]
  rfl

theorem State.FreesPlainly.holder (h : s.FreesPlainly u) {d : Nat} (hd : s.lines.any (fun p => p.2.ofUnit u && p.2.holders.contains d) = true) :
    1 ≤ d ∧ d ≤ 15 ∧ (s.channel d).state = .open ∧ (s.channel d).backlog.length < 48 := by
  obtain ⟨p, hp, hq⟩ := List.any_eq_true.1 hd
  obtain ⟨hu, hc⟩ := Bool.and_eq_true_iff.1 hq
  exact h.tellable p hp hu d (List.contains_iff_mem.1 hc)

/-- R48, R49: what the freeing of a unit's lines makes of its record. -/
def State.unitFreed (s : State) (u : Nat) : UnitRec := { s.unit u with
  flushList := (s.unit u).flushList.filter (fun f => !((s.line f.line).ofUnit u && (s.line f.line).state == .dirty))
  stranded := (s.unit u).stranded - (s.lines.filter (fun p => p.2.ofUnit u && p.2.state == .stranded)).length }

/-- R48, R49, R180, R183: every line of a unit freed and each channel that lost a hold told, with nothing waiting for what the lines set free. -/
theorem State.freeUnit_plain (h : s.FreesPlainly u) (ha : s.agenda = []) (hp : s.part = .running) : ∃ lines channels units b refs,
    s.freeUnit u = { s with lines, channels, units, refs, pressure := b, dirtyCount := s.dirtyCount - s.dirtyOf u }
    ∧ s.LinesFreed (s.freeUnit u) u ∧ SMap.get {} channels 0 = s.channel 0
    ∧ ∀ v, SMap.get {} units v = if v = u then s.unitFreed u else s.unit v := by
  have hwf := h.canonical
  have hlines (k : Nat) (hk : k ∈ s.linesOf u) : (s.line k).ofUnit u = true ∧ (s.line k).episode = none ∧ (s.line k).writer = none := by
    obtain ⟨p, hp, rfl⟩ := List.mem_map.1 hk
    obtain ⟨hmem, hu⟩ := List.mem_filter.1 hp
    rw [line_of_mem hwf hmem]
    exact ⟨hu, h.unwritten p hmem hu⟩
  obtain ⟨lines, channels, units, b, refs, hgone, hline, hchannel, hunit⟩ :=
    freeUnitLines_gone ha (by rw [hp]; decide) h.setWait h.slotWait (linesOf_nodup hwf) hlines
  let t : State := { s with lines, channels, units, refs, pressure := b, dirtyCount := s.dirtyCount - s.dirtyOf u }
  have hfreed : s.forEach (s.linesOf u) (fun k t => t.freeUnitLine u k) = t := by
    rw [hgone, linesOf_filter hwf (fun ln => ln.state.inDirtyGroup)]
    rfl
  have h0 (hd : 0 ∈ s.holdersOf u) : False := absurd (h.holder (mem_holdersOf.1 hd).2).1 (by decide)
  obtain ⟨channels', hqueue, hchannel'⟩ := queueToEach_room (m := .holdsDropped u) (cs := s.holdersOf u) (s := t) (by rw [show t.part = _ from hp]; decide) ha
    (List.nodup_range.filter _) h0 fun d hd => by
      obtain ⟨-, -, hopen, hroom⟩ := h.holder (mem_holdersOf.1 hd).2
      rw [show t.channel d = _ from hchannel d]
      exact ⟨hopen, hroom⟩
  have hall : s.freeUnit u = { t with channels := channels' } := by rw [freeUnit, hfreed, hqueue]
  have hcount (d : Nat) : t.channel d = { s.channel d with
      holdCount := (s.channel d).holdCount - ((s.lines.filter (fun p => p.2.ofUnit u)).map (fun p => p.2.holders.count d)).sum } := by
    rw [show t.channel d = _ from hchannel d, linesOf_map hwf (fun ln => ln.holders.count d)]
  refine ⟨lines, channels', units, b, refs, hall, ⟨fun j => ?_, fun d hd => ?_⟩, ?_, fun v => ?_⟩
  · rw [hall]
    exact (hline j).trans (if_congr (mem_linesOf hwf) rfl rfl)
  · rw [hall]
    show SMap.get {} channels' d = _
    rw [hchannel', hcount]
    by_cases hmem : s.lines.any (fun p => p.2.ofUnit u && p.2.holders.contains d) = true
    · obtain ⟨-, hle, -⟩ := h.holder hmem
      rw [if_pos (mem_holdersOf.2 ⟨by omega, hmem⟩), if_pos hmem]
    · rw [if_neg fun hd => hmem (mem_holdersOf.1 hd).2, if_neg hmem]
  · have hnone : ((s.lines.filter (fun p => p.2.ofUnit u)).map (fun p => p.2.holders.count 0)).sum = 0 := by
      refine List.sum_eq_zero fun n hn => ?_
      obtain ⟨p, hp, rfl⟩ := List.mem_map.1 hn
      obtain ⟨hmem, hu⟩ := List.mem_filter.1 hp
      exact List.count_eq_zero.2 fun h0 => absurd (h.tellable p hmem hu 0 h0).1 (by decide)
    rw [hchannel', if_neg h0, hcount, hnone]
    rfl
  · rw [hunit, linesOf_filter hwf (fun ln => ln.state == .stranded)]
    have hflush : (s.unit u).flushList.filter (fun f => !((s.linesOf u).contains f.line && (s.line f.line).state == .dirty))
        = (s.unit u).flushList.filter (fun f => !((s.line f.line).ofUnit u && (s.line f.line).state == .dirty)) := by
      refine List.filter_congr fun f _ => ?_
      have hmem : (s.linesOf u).contains f.line = (s.line f.line).ofUnit u :=
        Bool.eq_iff_iff.2 (List.contains_iff_mem.trans (mem_linesOf hwf))
      rw [hmem]
    rw [hflush]
    rfl

/-- A unit without lines. -/
theorem State.freeUnit_none (h : ∀ p ∈ s.lines, p.2.ofUnit u = false) : s.freeUnit u = s := by
  have hlines : s.linesOf u = [] := by
    rw [linesOf, List.filter_eq_nil_iff.2 fun p hp => by rw [h p hp]; decide]
    rfl
  have hholders : s.holdersOf u = [] := List.filter_eq_nil_iff.2 fun d _ hd => by
    obtain ⟨p, hp, hq⟩ := List.any_eq_true.1 hd
    rw [h p hp] at hq
    cases hq
  rw [freeUnit, hlines, hholders]
  rfl

/-! ### What follows the freeing (R180, R183) -/

/-- R180: a detach carried out, once the lines are freed, with no barrier to test and no quiesce condition. -/
theorem State.carryOutDetach_eq {e : Nat} {r : Request} (hfree : s.freeUnit u = t) (hb : (t.unit u).barriers = []) (hp : t.part ≠ .quiescing)
    (hr : t.Completes e r) : s.carryOutDetach e u = { t.completed e r { status := .success, count := (s.linesOf u).length } with
      units := SMap.set {} t.units u (t.unit u).detached } := by
  let w : State := { t with units := SMap.set {} t.units u (t.unit u).detached }
  have hw : w.Completes e r := hr.after rfl rfl rfl
  unfold carryOutDetach
  dsimp only
  rw [hfree, retest_nil hb, show t.updUnit u UnitRec.detached = w from rfl, hw.complete_eq]
  exact noteQuiesce_of_ne (t := w.completed e r _) hp

/-- R183: the third stage, once the lines are freed, with no barrier to test. -/
theorem State.thirdStage_eq {e : Nat} {r : Request} (hfree : s.freeUnit u = t) (hb : (t.unit u).barriers = []) (hr : t.Completes e r) :
    s.thirdStage e u = ({ t.completed e r { status := .success, count := s.dirtyOf u } with
      units := SMap.set {} t.units u { t.unit u with discarding := false, discard := none } } : State).setAgenda [.select u] := by
  let w : State := { t with units := SMap.set {} t.units u { t.unit u with discarding := false, discard := none }, agenda := [.select u] }
  have hstage : (t.updUnit u (fun x => { x with discarding := false, discard := none })).later [.select u] = w := by
    rw [later_eq, updUnit_def]
    show ({ t with units := w.units, agenda := t.agenda ++ w.agenda } : State) = w
    rw [show t.agenda = [] from hr.settled]
    rfl
  unfold thirdStage
  dsimp only
  rw [hfree, retest_nil hb, hstage, complete_held (t := w) hr.held hr.undone hr.posts hr.clear]
  rfl

end Sys2Proof.Machine
end

section
/-! PROOF. Administration that waits: drains, detaches and the third stage of discards (R171, R172, R179, R182, R183). -/

namespace Sys2Proof.Machine

variable {s t : State} {e u : Nat} {r : Request}

/-- R179: the busy test, by its conditions. -/
theorem State.unitBusy_iff (s : State) (u : Nat) : s.unitBusy u = true ↔
    (s.unit u).discarding = true ∨ (s.unit u).op ≠ none ∨ (s.unit u).fillQueue ≠ [] ∨ (s.unit u).surveyQueue ≠ []
      ∨ (∃ p ∈ s.lines, p.2.ofUnit u = true ∧ p.2.state ≠ .clean ∧ p.2.state ≠ .free)
      ∨ (∃ p ∈ s.held, p.2.names u = true ∧ (p.2.isParked = true
          ∨ p.2.place = .active ∧ (p.2.kind = some .write ∨ p.2.kind = some .survey))) := by
  have hactive (k : Kind) : (!(s.activeOf u k).isEmpty) = true
      ↔ ∃ p ∈ s.held, p.2.place = .active ∧ p.2.kind = some k ∧ p.2.names u = true := by
    rw [Bool.not_eq_true', List.isEmpty_eq_false_iff, activeOf, ne_eq, List.map_eq_nil_iff, List.filter_eq_nil_iff]
    simp [and_assoc]
  have hqueue (l : List Nat) : (!l.isEmpty) = true ↔ l ≠ [] := by simp
  simp only [unitBusy, Bool.or_eq_true, hactive, hqueue, List.any_eq_true, Bool.and_eq_true, bne_iff_ne, Option.isSome_iff_ne_none]
  constructor
  · rintro (((((((h | ⟨p, hp, ⟨hu, hc⟩, hf⟩) | h) | h) | h) | ⟨p, hp, hn, hk⟩) | ⟨p, hp, ha, hk, hn⟩) | ⟨p, hp, ha, hk, hn⟩)
    · exact .inl h
    · exact .inr (.inr (.inr (.inr (.inl ⟨p, hp, hu, hc, hf⟩))))
    · exact .inr (.inr (.inl h))
    · exact .inr (.inr (.inr (.inl h)))
    · exact .inr (.inl h)
    · exact .inr (.inr (.inr (.inr (.inr ⟨p, hp, hn, .inl hk⟩))))
    · exact .inr (.inr (.inr (.inr (.inr ⟨p, hp, hn, .inr ⟨ha, .inl hk⟩⟩))))
    · exact .inr (.inr (.inr (.inr (.inr ⟨p, hp, hn, .inr ⟨ha, .inr hk⟩⟩))))
  · rintro (h | h | h | h | ⟨p, hp, hu, hc, hf⟩ | ⟨p, hp, hn, hk | ⟨ha, hk | hk⟩⟩)
    · exact .inl (.inl (.inl (.inl (.inl (.inl (.inl h))))))
    · exact .inl (.inl (.inl (.inr h)))
    · exact .inl (.inl (.inl (.inl (.inl (.inr h)))))
    · exact .inl (.inl (.inl (.inl (.inr h))))
    · exact .inl (.inl (.inl (.inl (.inl (.inl (.inr ⟨p, hp, ⟨hu, hc⟩, hf⟩))))))
    · exact .inl (.inl (.inr ⟨p, hp, hn, hk⟩))
    · exact .inl (.inr ⟨p, hp, ha, hk, hn⟩)
    · exact .inr ⟨p, hp, ha, hk, hn⟩

theorem State.activeOf_none (h : ∀ p ∈ s.held, p.2.names u = false) (k : Kind) : s.activeOf u k = [] := by
  rw [activeOf, List.filter_eq_nil_iff.2 fun p hp => by rw [h p hp, Bool.and_false]; decide]
  rfl

/-- R179: a detach whose awaited transfers have ended, of a unit with nothing left. -/
theorem State.detachTest_carriedOut (hp : s.part = .running) (hd : (s.unit u).detach = some ⟨e, []⟩) (hdis : (s.unit u).discarding = false)
    (hop : (s.unit u).op = none) (hwork : (s.unit u).workless) (hb : (s.unit u).barriers = []) (hl : ∀ p ∈ s.lines, p.2.ofUnit u = false)
    (hh : ∀ p ∈ s.held, p.2.names u = false) (hr : s.Completes e r) : s.detachTest u = { s.completed e r { status := .success } with
      units := SMap.set {} s.units u (s.unit u).detached } := by
  let y : UnitRec := { s.unit u with detach := none }
  let t : State := { s with units := SMap.set {} s.units u y }
  have htu : t.unit u = y := (unit_of_units (t := t) rfl u).trans (if_pos rfl)
  have hidle : ¬ (t.unitBusy u = true) := by
    rw [unitBusy_iff, htu]
    rintro (h | h | h | h | ⟨p, hp, hu, -⟩ | ⟨p, hp, hn, -⟩)
    · exact absurd (show (s.unit u).discarding = true from h) (by rw [hdis]; decide)
    · exact h hop
    · exact h hwork.2.1
    · exact h hwork.2.2
    · rw [hl p hp] at hu; cases hu
    · rw [hh p hp] at hn; cases hn
  have hbusy : ¬ (s.unitBusy u = true) := by
    rw [unitBusy_iff]
    rintro (h | h | h | h | ⟨p, hp, hu, -⟩ | ⟨p, hp, hn, -⟩)
    · exact absurd h (by rw [hdis]; decide)
    · exact h hop
    · exact h hwork.2.1
    · exact h hwork.2.2
    · rw [hl p hp] at hu; cases hu
    · rw [hh p hp] at hn; cases hn
  have hlines : t.linesOf u = [] := by
    rw [linesOf, List.filter_eq_nil_iff.2 fun p hp => by rw [hl p hp]; decide]
    rfl
  have hcarry := carryOutDetach_eq (u := u) (freeUnit_none (s := t) hl) (by rw [htu]; exact hb) (by rw [show t.part = _ from hp]; decide)
    (hr.after (t := t) rfl rfl rfl)
  unfold detachTest
  rw [hd]
  dsimp only
  rw [if_pos (show ([] : List Nat).isEmpty = true from rfl), if_neg (by rw [activeOf_none hh]; simpa using hbusy)]
  refine hcarry.trans ?_
  rw [hlines, htu]
  simp only [t, SMap.set_set]
  rfl

/-- R182: a discard whose unit is quiet. -/
theorem State.discardTest_quiet (hd : (s.unit u).discard = some e) (hop : (s.unit u).op = none) (hseq : (s.unit u).seq = .idle)
    (hh : ∀ p ∈ s.held, p.2.names u = false) : s.discardTest u = s.thirdStage e u := by
  rw [discardTest, hd]
  dsimp only
  rw [if_pos ⟨by rw [hop]; rfl, hseq, by rw [activeOf_none hh]; rfl, by rw [activeOf_none hh]; rfl⟩]

/-- R183: the third stage of a discard whose unit has no work left once its lines are freed. -/
theorem State.thirdStage_finish (hfree : s.freeUnit u = t) (hb : (t.unit u).barriers = []) (hwork : (t.unit u).workless) (hr : t.Completes e r) :
    (s.thirdStage e u).finish = { t.completed e r { status := .success, count := s.dirtyOf u } with
      units := SMap.set {} t.units u { t.unit u with discarding := false, discard := none } } := by
  let w : State := { t.completed e r { status := .success, count := s.dirtyOf u } with
    units := SMap.set {} t.units u { t.unit u with discarding := false, discard := none } }
  have hwu : w.unit u = { t.unit u with discarding := false, discard := none } := (unit_of_units (t := w) rfl u).trans (if_pos rfl)
  rw [thirdStage_eq hfree hb hr]
  exact (RunsTo.idle (s := w) (w := .select u) (ws := []) (select_workless (s := w.setAgenda []) (by rw [show (w.setAgenda []).unit u = w.unit u from rfl, hwu]; exact hwork))
    (.done hr.settled)).finish rfl

theorem exec_discardThirdStage (hp : s.part = .running) : exec (.discardThirdStage u) s = .next (s.discardTest u).finish :=
  if_neg (by rw [hp]; decide)

theorem exec_detachAwaitedReadsEnd (hp : s.part = .running) : exec (.detachAwaitedReadsEnd u) s = .next (s.detachTest u).finish :=
  if_neg (by rw [hp]; decide)

theorem exec_channelDrain {c : Nat} (hp : s.part = .running) : exec (.channelDrain c) s = .next (s.drainCheck c).finish :=
  if_neg (by rw [hp]; decide)

end Sys2Proof.Machine

namespace Sys2Proof.Proofs

open Sys2Proof Sys2Proof.Machine

/-- Settles O55: each row tests its condition again, and goes on where it holds. -/
theorem waitingAdministrationGoesOn : Obligations.WaitingAdministrationGoesOn := by
  intro s c u e r x y hset hp hc
  have hfailed : s.part ≠ .failed := by rw [hp]; decide
  refine ⟨fun hst hin hw hclose hr hr0 => ?_, fun hst hin hw hclose ho hroom => ?_, fun h => ?_, fun hd hdis hop hwork hb hl hh hr => ?_,
    fun hd hop hseq hwork hb hl hh hr => ?_, fun hd => ?_, fun hd => ?_, fun hd hop hseq hf hs hb hflush hh hr hr0 hplain => ?_⟩
  · let v : State := { s with
      channels := SMap.set {} s.channels c { x with state := .closed, closeEntry := none }, eventSet := s.eventSet.filter (· != c) }
    let t := v.completed e r { status := .success }
    have hstep : exec (.channelDrain c) s = .next t := by
      rw [exec_channelDrain hp, State.drainCheck_closing rfl hst hin hw hclose hr (by rw [hr0]; exact hc.symm)]
      exact congrArg Host.Outcome.next (State.finish_nil t hset)
    have hv := State.channel_of_channels (t := v) (m := s.channels) (c := c) (x := { x with state := .closed, closeEntry := none }) rfl
    have hv0 : v.channel r.channel = s.channel r.channel := (hv _).trans (if_neg (by rw [hr0]; exact hc.symm))
    have ht := State.channel_of_channels (t := t) (m := v.channels) (c := r.channel) rfl
    refine ⟨t, hstep, ?_, rfl, ?_, fun d hd => ?_⟩
    · rw [ht c, if_neg (by rw [hr0]; exact hc)]
      exact (hv c).trans (if_pos rfl)
    · exact (State.request_of_table (t := t) rfl e).trans (if_pos rfl)
    · rw [ht d, hv0, State.channel_of_channels (t := s.completed e r _) rfl d]
      exact if_congr Iff.rfl rfl ((hv d).trans (if_neg hd))
  · let t : State := { s with
      channels := SMap.set {} (SMap.set {} s.channels c { x with state := .fenced }) 0
        { s.channel 0 with backlog := (s.channel 0).backlog ++ [.channelFenced c x.cause] }
      eventSet := s.eventSet.filter (· != c) }
    have hstep : exec (.channelDrain c) s = .next t := by
      rw [exec_channelDrain hp, State.drainCheck_fencing rfl hst hin hw hclose hc hfailed rfl ho hroom]
      exact congrArg Host.Outcome.next (State.finish_nil t hset)
    refine ⟨t, hstep, ?_, (SMap.get_set ..).trans (if_pos rfl), rfl, rfl⟩
    exact (SMap.get_set ..).trans ((if_neg hc).trans ((SMap.get_set ..).trans (if_pos rfl)))
  · have hstays : s.drainCheck c = s := by
      by_cases hbusy : x.inFlight ≠ 0 ∨ x.writing ≠ none
      · exact State.drainCheck_busy hbusy
      · obtain ⟨hin, hw⟩ := not_or.1 hbusy
        unfold State.drainCheck
        dsimp only
        rw [if_pos ⟨not_not.1 hin, not_not.1 hw⟩]
        rcases h with h | h | h | h | h
        · exact absurd h hin
        · exact absurd h hw
        · rw [show (s.channel c).state = _ from h]
        · rw [show (s.channel c).state = _ from h]
        · rw [show (s.channel c).state = _ from h]
    rw [exec_channelDrain hp, hstays, State.finish_nil s hset]
  · rw [exec_detachAwaitedReadsEnd hp, State.detachTest_carriedOut hp hd hdis hop hwork hb hl hh hr]
    exact congrArg Host.Outcome.next (State.finish_nil _ hset)
  · have hdirty : s.dirtyOf u = 0 := by
      rw [State.dirtyOf, List.filter_eq_nil_iff.2 fun p hp => by rw [hl p hp]; exact Bool.false_ne_true]
      rfl
    rw [exec_discardThirdStage hp, State.discardTest_quiet hd hop hseq hh, State.thirdStage_finish (State.freeUnit_none hl) hb hwork hr, hdirty]
  · have hstays : s.detachTest u = s := by rw [State.detachTest, hd]
    rw [exec_detachAwaitedReadsEnd hp, hstays, State.finish_nil s hset]
  · have hstays : s.discardTest u = s := by rw [State.discardTest, hd]
    rw [exec_discardThirdStage hp, hstays, State.finish_nil s hset]
  · intro dirty
    obtain ⟨lines, channels, units, b, refs, hfree, hfreed, h0, hunit⟩ := State.freeUnit_plain hplain hset hp
    let w : State := { s with lines, channels, units, refs, pressure := b, dirtyCount := s.dirtyCount - s.dirtyOf u }
    have hwu : w.unit u = s.unitFreed u := (hunit u).trans (if_pos rfl)
    have hempty : (s.unitFreed u).flushList = [] := List.filter_eq_nil_iff.2 fun f hf => by
      obtain ⟨hu, hdirty⟩ := hflush f hf
      rw [hu, hdirty]
      decide
    have hw0 : w.channel r.channel = s.channel r.channel := by rw [hr0]; exact h0
    have hcompletes : w.Completes e r := ⟨hr.held, hr.undone, by rw [hw0]; exact hr.posts, by rw [hw0]; exact hr.clear, hset⟩
    have hdirty : s.dirtyOf u = dirty := by
      refine congrArg List.length (List.filter_congr fun p _ => ?_)
      have hgroup (q : LineState) : q.inDirtyGroup = (q == .dirty || q == .flushing || q == .reflush || q == .stranded || q == .loading) := by
        cases q <;> rfl
      rw [hgroup]
    let t : State := { w.completed e r { status := .success, count := s.dirtyOf u } with
      units := SMap.set {} w.units u { w.unit u with discarding := false, discard := none } }
    have hstep : exec (.discardThirdStage u) s = .next t := by
      rw [exec_discardThirdStage hp, State.discardTest_quiet hd hop hseq hh, State.thirdStage_finish (t := w) hfree
        (by rw [hwu]; exact hb) (by rw [hwu]; exact ⟨hempty, hf, hs⟩) hcompletes]
    have hchannel := State.channel_of_channels (t := t) (m := w.channels) (c := r.channel) rfl
    have htu : t.unit u = { w.unit u with discarding := false, discard := none } := (State.unit_of_units (t := t) rfl u).trans (if_pos rfl)
    rw [hfree] at hfreed
    refine ⟨t, hstep, ⟨hfreed.1, fun d hd => ?_⟩, congrArg (s.dirtyCount - ·) hdirty, ?_, ?_, ?_⟩
    · rw [hchannel, hr0, if_neg hd]
      exact hfreed.2 d hd
    · rw [hchannel, hw0, hr0, if_pos rfl]
      exact ((State.channel_of_channels (t := s.completed e r _) rfl 0).trans (by rw [hr0, if_pos rfl])).symm
    · show SMap.get none (SMap.set none s.table e (some (r.ended { status := .success, count := s.dirtyOf u }))) e = _
      rw [SMap.get_set, if_pos rfl, hdirty]
    · rw [htu, hwu]
      exact ⟨rfl, rfl, rfl, rfl, hempty, rfl⟩

end Sys2Proof.Proofs
end

section
/-! PROOF. UNIT_DETACH (R179, R180). -/

namespace Sys2Proof.Machine

variable {s t : State} {c e u : Nat} {q r : Request} {rec : Record}

theorem SMap.filterMap_insert {α β : Type} {g : Nat × α → Option β} {f : β → Bool} {k : Nat} {v : α} (m : SMap α)
    (h : ∀ y, g (k, v) = some y → f y = false) : ((SMap.insert k v m).filterMap g).filter f = (m.filterMap g).filter f := by
  have hcons (b : Nat × α) (m m' : SMap α) (hm : (m.filterMap g).filter f = (m'.filterMap g).filter f) :
      ((b :: m).filterMap g).filter f = ((b :: m').filterMap g).filter f := by
    cases hb : g b with
    | none => rw [List.filterMap_cons_none hb, List.filterMap_cons_none hb, hm]
    | some y => rw [List.filterMap_cons_some hb, List.filterMap_cons_some hb, List.filter_cons, List.filter_cons, hm]
  have hnew (m : SMap α) : (((k, v) :: m).filterMap g).filter f = (m.filterMap g).filter f := by
    cases hb : g (k, v) with
    | none => rw [List.filterMap_cons_none hb]
    | some y => rw [List.filterMap_cons_some hb, List.filter_cons_of_neg (by rw [h y hb]; exact Bool.false_ne_true)]
  induction m with
  | nil => exact hnew []
  | cons b m ih =>
    rw [SMap.insert]
    split
    · exact hnew (b :: m)
    · exact hcons b _ m ih

/-- The entries held after a record has been taken into a free entry: those that a predicate does not see the new one in. -/
theorem State.held_placed_filter {f : Nat × Request → Bool} (he : ∀ p ∈ s.table, p.1 ≠ e) (hf : f (e, q) = false) :
    (s.placed c e q).held.filter f = s.held.filter f := by
  have herase : SMap.erase s.table e = s.table := List.filter_eq_self.2 fun p hp => by simpa using he p hp
  have hset : (s.placed c e q).table = SMap.insert e (some q) s.table := by
    show SMap.set none s.table e (some q) = _
    rw [SMap.set, if_neg (Option.some_ne_none q), herase]
  rw [held, held, hset]
  exact SMap.filterMap_insert s.table fun y hy => by
    cases hy
    exact hf

theorem State.mem_held_placed_iff {f : Nat × Request → Bool} {p : Nat × Request} (he : ∀ p ∈ s.table, p.1 ≠ e) (hf : f (e, q) = false)
    (hp : f p = true) : p ∈ (s.placed c e q).held ↔ p ∈ s.held := by
  have h := congrArg (p ∈ ·) (held_placed_filter (c := c) he hf)
  simpa [List.mem_filter, hp] using h

/-- A request just taken, in a place where it has not ended. -/
theorem State.Takes.completes_entered (h : s.Takes c e) (hd : q.place ≠ .done) (hc : q.channel = c) : (s.placed c e q).Completes e q := by
  refine ⟨(s.placed_request q e).trans (if_pos rfl), hd, ?_, ?_, h.settled⟩
  · rw [hc, h.placed_channel_self]; exact h.posts
  · rw [hc, h.placed_channel_self]; exact h.clear

/-- A request of an administration kind just taken completes. -/
theorem State.Takes.completed_active (h : s.Takes c e) (x : Completion) :
    (s.placed c e { s.newRequest c rec with place := .active }).completed e { s.newRequest c rec with place := .active } x = s.answered c e rec x :=
  ((h.completes_entered (q := { s.newRequest c rec with place := .active }) nofun rfl).complete_eq x).symm.trans (h.answers_active rec x)

/-- What the freeing of a unit's lines goes by does not see a record taken on channel 0. -/
theorem State.FreesPlainly.placed (h : s.FreesPlainly u) : (s.placed 0 e q).FreesPlainly u := by
  refine ⟨h.canonical, h.setWait, h.slotWait, h.episodeWait, h.unwritten, fun p hp hu d hd => ?_⟩
  obtain ⟨h1, h15, hopen, hroom⟩ := h.tellable p hp hu d hd
  have hch : (s.placed 0 e q).channel d = s.channel d := (s.placed_channel q d).trans (if_neg (by omega))
  rw [hch]
  exact ⟨h1, h15, hopen, hroom⟩

/-- R179: the busy test does not see the UNIT_DETACH that makes it. -/
theorem State.unitBusy_placed (he : ∀ p ∈ s.table, p.1 ≠ e) (hn : q.names u = false) : (s.placed c e q).unitBusy u = s.unitBusy u := by
  rw [Bool.eq_iff_iff, unitBusy_iff, unitBusy_iff]
  refine or_congr Iff.rfl (or_congr Iff.rfl (or_congr Iff.rfl (or_congr Iff.rfl (or_congr Iff.rfl (exists_congr fun p => ?_)))))
  by_cases hp : p.2.names u = true
  · exact and_congr_left fun _ => mem_held_placed_iff (f := fun p => p.2.names u) he hn hp
  · simp [hp]

theorem State.activeOf_placed {k : Kind} (he : ∀ p ∈ s.table, p.1 ≠ e) (hn : q.names u = false) :
    (s.placed c e q).activeOf u k = s.activeOf u k := by
  rw [activeOf, activeOf, held_placed_filter he (by rw [hn, Bool.and_false])]

end Sys2Proof.Machine

namespace Sys2Proof.Proofs

open Sys2Proof Sys2Proof.Machine

/-- Settles O32: by the unit's state, the busy test and the READs of the unit that are ACTIVE. -/
theorem unitDetachByTheBusyTest : Obligations.UnitDetachByTheBusyTest := by
  intro s e tag unit record u x busy reads h hv he
  let q : Request := { s.newRequest 0 record with place := .active }
  let p := s.placed 0 e q
  have hnames : q.names u = false := Bool.and_false _
  have hroute := State.placed_route_detachUnit (s := s) (c := 0) (e := e) record
  have hbusy : ((p.unit u).detach.isSome = true ∨ p.unitBusy u = true) ↔ busy := by
    rw [State.unitBusy_placed he hnames, State.unitBusy_iff, Option.isSome_iff_ne_none]
    exact or_left_comm
  have hreads : p.activeOf u .read = reads := State.activeOf_placed he hnames
  have hdetach (hx : x.state ≠ .detached) (hb : ¬ busy) : p.detachUnit e record
      = if p.activeOf u .read = [] then p.carryOutDetach e u else p.updUnit u (fun x => { x with detach := some ⟨e, p.activeOf u .read⟩ }) := by
    unfold State.detachUnit
    dsimp only
    rw [if_neg (show ¬ (p.unit record.unit).state = .detached from hx), 
      if_neg (show ¬ ((p.unit record.unit).detach.isSome = true ∨ p.unitBusy record.unit = true) from mt hbusy.1 hb)]
    simp only [List.isEmpty_iff]
    rfl
  have hcarried {w : State} (hx : x.state ≠ .detached) (hb : ¬ busy) (hr : reads = []) (hp : w.part = .running) (hfree : p.freeUnit u = w)
      (hw : w.unit u = x) (hbar : x.barriers = []) (hc : w.Completes e q) : exec (.unitDetach tag unit) s = .next
        { w.completed e q { status := .success, count := (p.linesOf u).length } with units := SMap.set {} w.units u x.detached } := by
    have hcarry := State.carryOutDetach_eq hfree (by rw [hw]; exact hbar) (by rw [hp]; decide) hc
    rw [hw] at hcarry
    exact h.step rfl hv rfl (hroute.trans ((hdetach hx hb).trans ((if_pos (hreads.trans hr)).trans hcarry))) hc.settled
  have hcompletes : p.Completes e q := h.completes_entered nofun rfl
  refine ⟨fun hx => ?_, fun hx hb => ?_, fun hx hb hr => ?_, fun hx hb hr hl hbar hp => ?_, fun hx hb hr hbar hp hplain => ?_⟩
  · exact h.step_answered rfl hv rfl (hroute.trans ((if_pos hx).trans (h.answers_active record _)))
  · exact h.step_answered rfl hv rfl (hroute.trans ((if_neg hx).trans ((if_pos (hbusy.2 hb)).trans (h.answers_active record _))))
  · rw [← hreads] at hr
    rw [← hreads]
    exact h.step rfl hv rfl (hroute.trans ((hdetach hx hb).trans (if_neg hr))) h.settled
  · have hlines : p.linesOf u = [] := by
      rw [State.linesOf, List.filter_eq_nil_iff.2 fun a ha => by rw [hl a ha]; exact Bool.false_ne_true]
      rfl
    rw [hcarried (w := p) hx hb hr hp (State.freeUnit_none hl) rfl hbar hcompletes, hlines, h.completed_active]
    rfl
  · obtain ⟨lines, channels, units, b, refs, hfree, hfreed, h0, hunit⟩ := State.freeUnit_plain (s := p) hplain.placed h.settled hp
    have hidle (k : Nat) (hk : (s.line k).ofUnit u = true) : (s.line k).state = .clean ∨ (s.line k).state = .free := by
      by_contra hno
      obtain ⟨hclean, hfree⟩ := not_or.1 hno
      have hmem : (k, s.line k) ∈ s.lines :=
        (SMap.mem_iff ({} : Line) hplain.canonical k (s.line k)).2 ⟨rfl, fun hd => by rw [hd] at hk; cases hk⟩
      exact hb (.inr (.inr (.inr (.inr (.inr (.inl ⟨_, hmem, hk, hclean, hfree⟩))))))
    have hmem (a : Nat × Line) (ha : a ∈ s.lines) (hu : a.2.ofUnit u = true) : a.2.state = .clean ∨ a.2.state = .free := by
      have hline := State.line_of_mem hplain.canonical ha
      rw [← hline]
      exact hidle a.1 (by rw [hline]; exact hu)
    have hdirty : p.dirtyOf u = 0 := by
      refine congrArg List.length (List.filter_eq_nil_iff.2 fun a ha hq => ?_)
      obtain ⟨hu, hgroup⟩ := Bool.and_eq_true_iff.1 hq
      rcases hmem a ha hu with hst | hst <;> rw [hst] at hgroup <;> cases hgroup
    have hstranded : (s.lines.filter (fun a => a.2.ofUnit u && a.2.state == .stranded)) = [] := List.filter_eq_nil_iff.2 fun a ha hq => by
      obtain ⟨hu, hst⟩ := Bool.and_eq_true_iff.1 hq
      rcases hmem a ha hu with h' | h' <;> rw [h'] at hst <;> cases hst
    have hflush : (x.flushList.filter (fun f => !((s.line f.line).ofUnit u && (s.line f.line).state == .dirty))) = x.flushList :=
      List.filter_eq_self.2 fun f _ => by
        cases hu : (s.line f.line).ofUnit u with
        | false => rfl
        | true => rcases hidle _ hu with hst | hst <;> rw [hst] <;> rfl
    have hfreedUnit : p.unitFreed u = x := by
      show ({ x with
        flushList := x.flushList.filter (fun f => !((s.line f.line).ofUnit u && (s.line f.line).state == .dirty))
        stranded := x.stranded - (s.lines.filter (fun a => a.2.ofUnit u && a.2.state == .stranded)).length } : UnitRec) = x
      rw [hflush, hstranded]
      rfl
    let w : State := { p with lines, channels, units, refs, pressure := b, dirtyCount := p.dirtyCount - p.dirtyOf u }
    have hwu : w.unit u = x := ((hunit u).trans (if_pos rfl)).trans hfreedUnit
    have hw0 : w.channel 0 = (s.channel 0).taken := h0.trans ((s.placed_channel q 0).trans (if_pos rfl))
    have hwc : w.Completes e q :=
      ⟨hcompletes.held, nofun, by rw [show w.channel q.channel = _ from hw0]; exact h.posts,
        by rw [show w.channel q.channel = _ from hw0]; exact h.clear, h.settled⟩
    let n := (p.linesOf u).length
    have hn : n = (s.lines.filter (fun p => p.2.ofUnit u)).length := List.length_map ..
    let t : State := { w.completed e q { status := .success, count := n } with units := SMap.set {} w.units u x.detached }
    have hchannel := State.channel_of_channels (t := t) (m := channels) (c := 0)
      (x := { w.channel 0 with postQueue := (w.channel 0).postQueue ++ [e] }) rfl
    rw [hfree] at hfreed
    refine ⟨t, hcarried (w := w) hx hb hr hp hfree hwu hbar hwc, ⟨hfreed.1, fun d hd => ?_⟩, ?_, ?_, ?_, fun v hv => ?_, ?_, rfl, rfl⟩
    · rw [hchannel, if_neg hd]
      refine (hfreed.2 d hd).trans ?_
      rw [show p.channel d = s.channel d from (s.placed_channel q d).trans (if_neg hd)]
      rfl
    · rw [hchannel, if_pos rfl, hw0]
      exact ((State.channel_of_channels (t := s.answered 0 e record _) rfl 0).trans (if_pos rfl)).symm
    · show SMap.get none (SMap.set none (SMap.set none s.table e (some q)) e (some (q.ended { status := .success, count := n }))) e = _
      rw [SMap.get_set, if_pos rfl, hn]
      rfl
    · exact (State.unit_of_units (t := t) rfl u).trans (if_pos rfl)
    · exact (State.unit_of_units (t := t) rfl v).trans ((if_neg hv).trans ((hunit v).trans (if_neg hv)))
    · show s.dirtyCount - p.dirtyOf u = _
      rw [hdirty]
      rfl

end Sys2Proof.Proofs
end

section
/-! PROOF. PARKED requests ended together (R149): what stays, and what each end leaves. -/

namespace Sys2Proof.Machine

variable {s t p : State} {c d e k n : Nat} {l : List Nat} {r : Request} {status : Status}

/-! ### Checks set in motion change the agenda alone -/

theorem State.noteServe_agenda (s : State) (k : Nat) : ∃ w, s.noteServe k = s.setAgenda w := by
  unfold noteServe
  split
  · exact ⟨s.agenda, rfl⟩
  · exact ⟨_, rfl⟩

theorem State.noteEvictable_agenda (s : State) (k : Nat) : ∃ w, s.noteEvictable k = s.setAgenda w := by
  unfold noteEvictable
  split
  · exact ⟨s.agenda, rfl⟩
  · exact ⟨_, rfl⟩

theorem State.noteDone_agenda (s : State) (c : Nat) : ∃ w, s.noteDone c = s.setAgenda w := by
  unfold noteDone
  split
  · exact ⟨_, rfl⟩
  · exact ⟨s.agenda, rfl⟩

theorem State.noteDrain_agenda (s : State) (c : Nat) : ∃ w, s.noteDrain c = s.setAgenda w := by
  unfold noteDrain
  split
  · exact ⟨_, rfl⟩
  · exact ⟨_, rfl⟩
  all_goals exact ⟨s.agenda, rfl⟩

theorem State.noteQuiesce_agenda (s : State) : ∃ w, s.noteQuiesce = s.setAgenda w := by
  unfold noteQuiesce
  split
  · exact ⟨_, rfl⟩
  · exact ⟨s.agenda, rfl⟩

/-! ### The parts of an end (R149, R152, R170) -/

theorem State.endWritePhase_frame (s : State) (k : Nat) : ∃ w, s.endWritePhase k = { s with
    lines := SMap.set {} s.lines k { s.line k with writer := none }, agenda := w } := by
  unfold endWritePhase
  obtain ⟨w, hserve⟩ := (s.updLine k (fun x => { x with writer := none })).noteServe_agenda k
  rw [hserve]
  obtain ⟨w', hevict⟩ := ((s.updLine k (fun x => { x with writer := none })).setAgenda w).noteEvictable_agenda k
  exact ⟨w', hevict⟩

theorem State.leaveLineList_frame (s : State) (e k : Nat) : ∃ w, s.leaveLineList e k = { s with
    lines := SMap.set {} s.lines k { s.line k with waitList := leaveList e (s.line k).waitList }, agenda := w } := by
  let t := s.updLine k (fun x => { x with waitList := leaveList e x.waitList })
  obtain ⟨w, hserve⟩ : ∃ w, (if (s.line k).waitList.head? == some e then t.noteServe k else t) = t.setAgenda w := by
    split
    · exact t.noteServe_agenda k
    · exact ⟨t.agenda, rfl⟩
  obtain ⟨w', hevict⟩ := (t.setAgenda w).noteEvictable_agenda k
  refine ⟨w', ?_⟩
  unfold leaveLineList
  dsimp only
  exact (congrArg (State.noteEvictable · k) hserve).trans hevict

/-- R40, R41: the unposted RECALLs of an episode withdrawn. -/
theorem State.withdrawRecalls_frame (n : Nat) : ∀ (l : List Nat) (s : State), ∃ channels, s.withdrawRecalls n l = { s with channels }
    ∧ ∀ d, ∃ b, SMap.get {} channels d = { s.channel d with backlog := b } ∧ ∀ m ∈ b, m ∈ (s.channel d).backlog
  | [], s => ⟨s.channels, rfl, fun d => ⟨(s.channel d).backlog, rfl, fun _ h => h⟩⟩
  | c :: l, s => by
    let x : Channel := { s.channel c with backlog := (s.channel c).backlog.filter (fun m => !m.isRecallOf n) }
    let t : State := { s with channels := SMap.set {} s.channels c x }
    obtain ⟨channels, hrest, hget⟩ := withdrawRecalls_frame n l t
    refine ⟨channels, hrest, fun d => ?_⟩
    obtain ⟨b, hb, hsub⟩ := hget d
    rw [channel_of_channels (t := t) (m := s.channels) (x := x) rfl d] at hb hsub
    by_cases hd : d = c
    · subst hd
      rw [if_pos rfl] at hb hsub
      exact ⟨b, hb, fun m hm => List.mem_of_mem_filter (hsub m hm)⟩
    · rw [if_neg hd] at hb hsub
      exact ⟨b, hb, hsub⟩

theorem State.freeEpisode_frame (s : State) (n : Nat) : ∃ lines channels episodes w, s.freeEpisode n = { s with lines, channels, episodes, agenda := w }
    ∧ (∀ j, ∃ o, SMap.get {} lines j = { s.line j with episode := o })
    ∧ (∀ d, ∃ b, SMap.get {} channels d = { s.channel d with backlog := b } ∧ ∀ m ∈ b, m ∈ (s.channel d).backlog)
    ∧ ∀ m, SMap.get none episodes m = if m = n then none else s.episode m := by
  unfold freeEpisode
  cases hn : s.episode n with
  | none =>
    refine ⟨s.lines, s.channels, s.episodes, s.agenda, rfl, fun j => ⟨(s.line j).episode, rfl⟩,
      fun d => ⟨(s.channel d).backlog, rfl, fun _ h => h⟩, fun m => ?_⟩
    split
    · next h => rw [h]; exact hn
    · rfl
  | some ep =>
    let v : State := { s with
      episodes := SMap.set none s.episodes n none
      lines := SMap.set {} s.lines ep.line { s.line ep.line with episode := none } }
    obtain ⟨channels, hwithdraw, hchannels⟩ := v.withdrawRecalls_frame n ep.recalled
    have hw (t : State) : ∃ w, (if t.episodeWait.isEmpty then t else t.later [.episodeFreed]) = t.setAgenda w := by
      split
      · exact ⟨t.agenda, rfl⟩
      · exact ⟨_, rfl⟩
    obtain ⟨w, hfreed⟩ := hw { v with channels }
    refine ⟨v.lines, channels, v.episodes, w, ?_, fun j => ?_, hchannels, fun m => SMap.get_set none s.episodes n m none⟩
    · dsimp only
      rw [show ((s.setEpisode n none).updLine ep.line (fun x => { x with episode := none })).withdrawRecalls n ep.recalled = { v with channels }
        from hwithdraw, hfreed]
      rfl
    · have hline := line_of_lines (t := v) (m := s.lines) (x := { s.line ep.line with episode := none }) rfl j
      refine ⟨(v.line j).episode, ?_⟩
      show v.line j = _
      rw [hline]
      split
      · next h => rw [h]
      · rfl

/-- R169, R170: a record discarded with its entry. -/
theorem State.discardRecord_frame (hr : s.request e = some r) : ∃ w, s.discardRecord e = { s with
    table := SMap.set none s.table e none
    channels := SMap.set {} s.channels r.channel
      { s.channel r.channel with reserved := (s.channel r.channel).reserved - 1, inFlight := (s.channel r.channel).inFlight - 1 }
    agenda := w } := by
  let u : State := { s with
    table := SMap.set none s.table e none
    channels := SMap.set {} s.channels r.channel
      { s.channel r.channel with reserved := (s.channel r.channel).reserved - 1, inFlight := (s.channel r.channel).inFlight - 1 } }
  have hlowered : ((s.updChannel r.channel (fun x => { x with reserved := x.reserved - 1 })).setRequest e none).updChannel r.channel
      (fun x => { x with inFlight := x.inFlight - 1 }) = u := by
    let v : State := { s with
      table := SMap.set none s.table e none
      channels := SMap.set {} s.channels r.channel { s.channel r.channel with reserved := (s.channel r.channel).reserved - 1 } }
    have hvc : v.channel r.channel = { s.channel r.channel with reserved := (s.channel r.channel).reserved - 1 } :=
      (channel_of_channels (t := v) rfl r.channel).trans (if_pos rfl)
    refine (updChannel_eq (s := v) hvc _).trans ?_
    simp only [v, u, SMap.set_set]
  have hends (t : State) : ∃ w, (match r.kind with
      | some k => if k.heldByQuiesce then t.noteQuiesce else t
      | none => t) = t.setAgenda w := by
    split
    · split
      · exact t.noteQuiesce_agenda
      · exact ⟨t.agenda, rfl⟩
    · exact ⟨t.agenda, rfl⟩
  obtain ⟨w, hdrain⟩ := u.noteDrain_agenda r.channel
  obtain ⟨w', hquiesce⟩ := hends (u.setAgenda w)
  refine ⟨w', ?_⟩
  unfold discardRecord
  rw [hr]
  dsimp only
  unfold freeEntry
  rw [show (s.updChannel r.channel _).request e = some r from hr]
  dsimp only
  rw [hlowered, hdrain]
  exact hquiesce

/-- R152: the end of a request on a channel that posts its completion. -/
theorem State.complete_posted (hr : s.request e = some r) (hd : r.place ≠ .done) (hp : (s.channel r.channel).postError = false) (x : Completion) :
    ∃ w, s.complete e x = { s with
      table := SMap.set none s.table e (some (r.ended x))
      channels := SMap.set {} s.channels r.channel { s.channel r.channel with postQueue := (s.channel r.channel).postQueue ++ [e] }
      agenda := w } := by
  let v : State := { s with table := SMap.set none s.table e (some (r.ended x)) }
  obtain ⟨w, hdone⟩ := (v.updChannel r.channel (fun x => { x with postQueue := x.postQueue ++ [e] })).noteDone_agenda r.channel
  refine ⟨w, ?_⟩
  unfold complete
  rw [hr]
  dsimp only
  rw [if_neg hd, show s.setRequest e (some (r.ended x)) = v from rfl,
    if_neg (show ¬ (v.channel r.channel).postError = true from ne_true_of_eq_false hp)]
  exact hdone

/-- R152, R170: the end of a request on a channel that behaves as under COMPLETION_POST_ERROR. -/
theorem State.complete_discarded (hr : s.request e = some r) (hd : r.place ≠ .done) (hp : (s.channel r.channel).postError = true)
    (x : Completion) : ∃ w, s.complete e x = { s with
      table := SMap.set none s.table e none
      channels := SMap.set {} s.channels r.channel
        { s.channel r.channel with reserved := (s.channel r.channel).reserved - 1, inFlight := (s.channel r.channel).inFlight - 1 }
      agenda := w } := by
  let v : State := { s with table := SMap.set none s.table e (some (r.ended x)) }
  obtain ⟨w, hdiscard⟩ := discardRecord_frame (s := v) (r := r.ended x) ((request_of_table (t := v) rfl e).trans (if_pos rfl))
  obtain ⟨w', hdone⟩ := (v.discardRecord e).noteDone_agenda r.channel
  refine ⟨w', ?_⟩
  unfold complete
  rw [hr]
  dsimp only
  rw [if_neg hd, show s.setRequest e (some (r.ended x)) = v from rfl, if_pos (show (v.channel r.channel).postError = true from hp)]
  refine hdone.trans ?_
  rw [hdiscard]
  simp only [v, SMap.set_set]
  rfl

/-! ### What the ends of some requests leave as it was -/

/-- From `x` to `y` only what the ends of requests change of a channel's context has changed. -/
structure Channel.Ends (x y : Channel) : Prop where
  state : y.state = x.state
  cause : y.cause = x.cause
  postError : y.postError = x.postError
  holdCount : y.holdCount = x.holdCount
  backlog : ∀ m ∈ y.backlog, m ∈ x.backlog
  postQueue : ∀ i ∈ x.postQueue, i ∈ y.postQueue
  fetchHold : y.fetchHold = x.fetchHold ∨ y.fetchHold = none

/-- From `x` to `y` only what the ends of the requests `l` change of a unit record has changed. -/
def UnitRec.Ends (l : List Nat) (x y : UnitRec) : Prop := ∃ surveys barriers, y = { x with surveyQueue := surveys, barriers }
  ∧ (∀ i ∈ surveys, i ∈ x.surveyQueue) ∧ ∀ i, i ∉ l → barriers.find? (·.entry == i) = x.barriers.find? (·.entry == i)

/-- From `x` to `y` only what the ends of requests change of a line record has changed. -/
structure Line.Ends (x y : Line) : Prop where
  holders : y.holders = x.holders
  waitList : ∀ i ∈ y.waitList, i ∈ x.waitList
  writer : x.writer = none → y.writer = none

/-- From `s` to `t` only what the ends of the PARKED requests among `l` change has changed. -/
structure State.Ends (l : List Nat) (s t : State) : Prop where
  request : ∀ i, (i ∈ l → ∀ r, s.request i = some r → r.isParked = false) → t.request i = s.request i
  channel : ∀ d, (s.channel d).Ends (t.channel d)
  unit : ∀ u, (s.unit u).Ends l (t.unit u)
  line : ∀ k, (s.line k).Ends (t.line k)
  slotWait : ∀ i ∈ t.slotWait, i ∈ s.slotWait
  episodeWait : ∀ i ∈ t.episodeWait, i ∈ s.episodeWait
  episode : ∀ n, s.episode n = none → t.episode n = none

theorem Channel.Ends.refl (x : Channel) : x.Ends x := ⟨rfl, rfl, rfl, rfl, fun _ h => h, fun _ h => h, .inl rfl⟩

theorem Channel.Ends.trans {x y z : Channel} (h : x.Ends y) (h' : y.Ends z) : x.Ends z where
  state := h'.state.trans h.state
  cause := h'.cause.trans h.cause
  postError := h'.postError.trans h.postError
  holdCount := h'.holdCount.trans h.holdCount
  backlog m hm := h.backlog m (h'.backlog m hm)
  postQueue i hi := h'.postQueue i (h.postQueue i hi)
  fetchHold := h'.fetchHold.elim (fun e => h.fetchHold.imp e.trans e.trans) .inr

theorem UnitRec.Ends.refl (l : List Nat) (x : UnitRec) : x.Ends l x := ⟨x.surveyQueue, x.barriers, rfl, fun _ h => h, fun _ _ => rfl⟩

theorem UnitRec.Ends.trans {l' : List Nat} {x y z : UnitRec} (h : x.Ends l y) (h' : y.Ends l' z) : x.Ends (l ++ l') z := by
  obtain ⟨surveys, barriers, rfl, hs, hb⟩ := h
  obtain ⟨surveys', barriers', rfl, hs', hb'⟩ := h'
  refine ⟨surveys', barriers', rfl, fun i hi => hs i (hs' i hi), fun i hi => ?_⟩
  rw [List.mem_append, not_or] at hi
  exact (hb' i hi.2).trans (hb i hi.1)

theorem Line.Ends.refl (x : Line) : x.Ends x := ⟨rfl, fun _ h => h, fun h => h⟩

theorem Line.Ends.trans {x y z : Line} (h : x.Ends y) (h' : y.Ends z) : x.Ends z :=
  ⟨h'.holders.trans h.holders, fun i hi => h.waitList i (h'.waitList i hi), fun hx => h'.writer (h.writer hx)⟩

theorem State.Ends.refl (l : List Nat) (s : State) : s.Ends l s :=
  ⟨fun _ _ => rfl, fun _ => .refl _, fun _ => .refl l _, fun _ => .refl _, fun _ h => h, fun _ h => h, fun _ h => h⟩

theorem State.Ends.trans {l' : List Nat} (h : State.Ends l s t) (h' : State.Ends l' t p) : State.Ends (l ++ l') s p where
  request i hi := by
    have hst := h.request i fun hl => hi (List.mem_append_left l' hl)
    refine (h'.request i fun hl r hr => hi (List.mem_append_right l hl) r ?_).trans hst
    rw [← hst]
    exact hr
  channel d := (h.channel d).trans (h'.channel d)
  unit u := (h.unit u).trans (h'.unit u)
  line k := (h.line k).trans (h'.line k)
  slotWait i hi := h.slotWait i (h'.slotWait i hi)
  episodeWait i hi := h.episodeWait i (h'.episodeWait i hi)
  episode n hn := h'.episode n (h.episode n hn)

/-- The agenda is no part of it. -/
theorem State.Ends.agenda (h : State.Ends l s t) (w w' : List Work) : State.Ends l (s.setAgenda w) (t.setAgenda w') :=
  ⟨h.request, h.channel, h.unit, h.line, h.slotWait, h.episodeWait, h.episode⟩

theorem State.Ends.channels {l : List Nat} {channels : SMap Channel} (h : ∀ d, (s.channel d).Ends (SMap.get {} channels d)) :
    State.Ends l s { s with channels } := { State.Ends.refl l s with channel := h }

theorem State.Ends.lines {l : List Nat} {lines : SMap Line} (h : ∀ k, (s.line k).Ends (SMap.get {} lines k)) :
    State.Ends l s { s with lines } := { State.Ends.refl l s with line := h }

/-- One channel, one line or one unit changed. -/
theorem State.Ends.setChannel {x : Channel} (h : (s.channel c).Ends x) : State.Ends l s (s.setChannel c x) := .channels fun d => by
  rw [SMap.get_set]
  split
  · next hd => rw [hd]; exact h
  · exact .refl _

theorem State.Ends.setLine {x : Line} (h : (s.line k).Ends x) : State.Ends l s (s.setLine k x) := .lines fun j => by
  rw [SMap.get_set]
  split
  · next hj => rw [hj]; exact h
  · exact .refl _

theorem State.Ends.setUnit {u : Nat} {x : UnitRec} (h : (s.unit u).Ends l x) : State.Ends l s (s.setUnit u x) :=
  { State.Ends.refl l s with
    unit := fun v => by
      rw [setUnit_unit]
      split
      · next hv => rw [hv]; exact h
      · exact .refl l _ }

/-! ### A departure (R149) -/

/-- What the departure of the request `r` of entry `e` from its list leaves behind. -/
structure State.Departed (t : State) (e : Nat) (r : Request) : Prop where
  slotWait : r.place = .parked .slotWait → e ∉ t.slotWait
  episodeWait : r.place = .parked .episodeWait → e ∉ t.episodeWait
  lineWait : ∀ k, r.line = some k → r.place = .parked .lineWait → e ∉ (t.line k).waitList
  episode : ∀ n, r.place = .parked (.episode n) → t.episode n = none
  writer : ∀ k, r.line = some k → (r.place = .parked .slotWait ∨ r.place = .parked .episodeWait ∨ ∃ n, r.place = .parked (.episode n)) →
    (t.line k).writer = none
  fetchHold : r.place = .parked .fetchHold → (t.channel r.channel).fetchHold = none

theorem State.Departed.ends (h : s.Departed e r) (ht : State.Ends l s t) : t.Departed e r where
  slotWait hp hm := h.slotWait hp (ht.slotWait e hm)
  episodeWait hp hm := h.episodeWait hp (ht.episodeWait e hm)
  lineWait k hk hp hm := h.lineWait k hk hp ((ht.line k).waitList e hm)
  episode n hp := ht.episode n (h.episode n hp)
  writer k hk hp := (ht.line k).writer (h.writer k hk hp)
  fetchHold hp := (ht.channel r.channel).fetchHold.elim (fun he => he.trans (h.fetchHold hp)) id

theorem State.endWritePhase_ends (s : State) (k : Nat) : State.Ends l s (s.endWritePhase k) ∧ (s.endWritePhase k).table = s.table
    ∧ ((s.endWritePhase k).line k).writer = none := by
  obtain ⟨w, heq⟩ := s.endWritePhase_frame k
  rw [heq]
  have hset : State.Ends l s (s.setLine k { s.line k with writer := none }) := .setLine ⟨rfl, fun _ h => h, fun _ => rfl⟩
  refine ⟨hset.agenda s.agenda w, rfl, ?_⟩
  show (SMap.get {} (SMap.set {} s.lines k { s.line k with writer := none }) k).writer = none
  rw [SMap.get_set, if_pos rfl]

theorem State.leaveLineList_ends (s : State) (e k : Nat) : State.Ends l s (s.leaveLineList e k) ∧ (s.leaveLineList e k).table = s.table
    ∧ e ∉ ((s.leaveLineList e k).line k).waitList := by
  obtain ⟨w, heq⟩ := s.leaveLineList_frame e k
  rw [heq]
  have hset : State.Ends l s (s.setLine k { s.line k with waitList := leaveList e (s.line k).waitList }) :=
    .setLine ⟨rfl, fun _ h => List.mem_of_mem_filter h, fun h => h⟩
  refine ⟨hset.agenda s.agenda w, rfl, ?_⟩
  show e ∉ (SMap.get {} (SMap.set {} s.lines k { s.line k with waitList := leaveList e (s.line k).waitList }) k).waitList
  rw [SMap.get_set, if_pos rfl]
  simp [leaveList]

theorem State.freeEpisode_ends (s : State) (n : Nat) : State.Ends l s (s.freeEpisode n) ∧ (s.freeEpisode n).table = s.table
    ∧ (s.freeEpisode n).episode n = none := by
  obtain ⟨lines, channels, episodes, w, heq, hlines, hchannels, hepisodes⟩ := s.freeEpisode_frame n
  rw [heq]
  refine ⟨⟨fun _ _ => rfl, fun d => ?_, fun _ => .refl l _, fun k => ?_, fun _ h => h, fun _ h => h, fun m hm => ?_⟩, rfl,
    (hepisodes n).trans (if_pos rfl)⟩
  · obtain ⟨b, hb, hsub⟩ := hchannels d
    show (s.channel d).Ends (SMap.get {} channels d)
    rw [hb]
    exact ⟨rfl, rfl, rfl, rfl, hsub, fun _ h => h, .inl rfl⟩
  · obtain ⟨o, ho⟩ := hlines k
    show (s.line k).Ends (SMap.get {} lines k)
    rw [ho]
    exact ⟨rfl, fun _ h => h, fun h => h⟩
  · refine (hepisodes m).trans ?_
    split
    · rfl
    · exact hm

theorem UnitRec.Ends.survey (x : UnitRec) (e : Nat) : x.Ends l { x with surveyQueue := leaveList e x.surveyQueue } :=
  ⟨_, x.barriers, rfl, fun _ h => List.mem_of_mem_filter h, fun _ _ => rfl⟩

theorem UnitRec.Ends.barrier (x : UnitRec) (e : Nat) : x.Ends [e] { x with barriers := x.barriers.filter (·.entry != e) } := by
  refine ⟨x.surveyQueue, _, rfl, fun _ h => h, fun i hi => ?_⟩
  have hne : i ≠ e := fun h => hi (List.mem_singleton.2 h)
  rw [List.find?_filter]
  refine congrArg (List.find? · x.barriers) (funext fun b => ?_)
  by_cases hb : b.entry = i
  · simp [hb, hne]
  · simp [hb]

theorem State.depart_ends (s : State) (e : Nat) (r : Request) :
    State.Ends [e] s (s.depart e r) ∧ (s.depart e r).table = s.table ∧ (s.depart e r).Departed e r := by
  have hslots (l q : List Nat) (hq : ∀ i ∈ q, i ∈ s.slotWait) : State.Ends l s (s.setSlotWait q) := { State.Ends.refl l s with slotWait := hq }
  have hepisodes (l q : List Nat) (hq : ∀ i ∈ q, i ∈ s.episodeWait) : State.Ends l s (s.setEpisodeWait q) :=
    { State.Ends.refl l s with episodeWait := hq }
  have hsub (q : List Nat) : ∀ i ∈ leaveList e q, i ∈ q := fun _ h => List.mem_of_mem_filter h
  have hleft (q : List Nat) : e ∉ leaveList e q := by simp [leaveList]
  unfold depart
  cases hplace : r.place with
  | routed => exact ⟨.refl _ s, rfl, by constructor <;> simp [hplace]⟩
  | active => exact ⟨.refl _ s, rfl, by constructor <;> simp [hplace]⟩
  | done => exact ⟨.refl _ s, rfl, by constructor <;> simp [hplace]⟩
  | parked w =>
    cases w with
    | setWait => exact ⟨{ State.Ends.refl [e] s with }, rfl, by constructor <;> simp [hplace]⟩
    | slotWait =>
      cases hline : r.line with
      | none => exact ⟨hslots [e] _ (hsub _), rfl, by constructor <;> simp [hplace, hline, leaveList]⟩
      | some k =>
        obtain ⟨hends, htable, hwriter⟩ := (s.setSlotWait (leaveList e s.slotWait)).endWritePhase_ends (l := [e]) k
        exact ⟨(hslots [] _ (hsub _)).trans hends, htable, fun _ h => hleft _ (hends.slotWait e h), by simp [hplace], by simp [hplace],
          by simp [hplace], fun j hj _ => by cases hline.symm.trans hj; exact hwriter, by simp [hplace]⟩
    | lineWait =>
      cases hline : r.line with
      | none => exact ⟨.refl _ s, rfl, by constructor <;> simp [hplace, hline]⟩
      | some k =>
        obtain ⟨hends, htable, hwait⟩ := s.leaveLineList_ends (l := [e]) e k
        exact ⟨hends, htable, by simp [hplace], by simp [hplace], fun j hj _ => by cases hline.symm.trans hj; exact hwait, by simp [hplace],
          by simp [hplace], by simp [hplace]⟩
    | episode n =>
      obtain ⟨hfree, hfreeTable, hgone⟩ := s.freeEpisode_ends (l := []) n
      cases hline : r.line with
      | none =>
        obtain ⟨hends, -, -⟩ := s.freeEpisode_ends (l := [e]) n
        exact ⟨hends, hfreeTable, by simp [hplace], by simp [hplace], by simp [hline],
          fun m hm => by cases hplace.symm.trans hm; exact hgone, by simp [hline], by simp [hplace]⟩
      | some k =>
        obtain ⟨hends, htable, hwriter⟩ := (s.freeEpisode n).endWritePhase_ends (l := [e]) k
        exact ⟨hfree.trans hends, htable.trans hfreeTable, by simp [hplace], by simp [hplace], by simp [hplace],
          fun m hm => by cases hplace.symm.trans hm; exact hends.episode n hgone,
          fun j hj _ => by cases hline.symm.trans hj; exact hwriter, by simp [hplace]⟩
    | episodeWait =>
      cases hline : r.line with
      | none => exact ⟨hepisodes [e] _ (hsub _), rfl, by constructor <;> simp [hplace, hline, leaveList]⟩
      | some k =>
        obtain ⟨hends, htable, hwriter⟩ := (s.setEpisodeWait (leaveList e s.episodeWait)).endWritePhase_ends (l := [e]) k
        exact ⟨(hepisodes [] _ (hsub _)).trans hends, htable, by simp [hplace], fun _ h => hleft _ (hends.episodeWait e h), by simp [hplace],
          by simp [hplace], fun j hj _ => by cases hline.symm.trans hj; exact hwriter, by simp [hplace]⟩
    | surveyQueue => exact ⟨.setUnit (.survey _ e), rfl, by constructor <;> simp [hplace]⟩
    | barrierList => exact ⟨.setUnit (.barrier _ e), rfl, by constructor <;> simp [hplace]⟩
    | fetchHold =>
      refine ⟨.setChannel ⟨rfl, rfl, rfl, rfl, fun _ h => h, fun _ h => h, .inr rfl⟩, rfl, by simp [hplace], by simp [hplace], by simp [hplace],
        by simp [hplace], by simp [hplace], fun _ => ?_⟩
      show (SMap.get {} (SMap.set {} s.channels r.channel { s.channel r.channel with fetchHold := none }) r.channel).fetchHold = none
      rw [SMap.get_set, if_pos rfl]

/-! ### One request ended, and all of some (R149) -/

/-- What the end of the PARKED request `r` of entry `e`, as it stood in `s`, leaves in `t`. -/
structure State.EndedIn (s t : State) (e : Nat) (r : Request) (status : Status) : Prop where
  departed : t.Departed e r
  posted : (s.channel r.channel).postError = false → t.request e = some (r.ended { status, epoch := s.barrierEpoch e r })
    ∧ e ∈ (t.channel r.channel).postQueue
  discarded : (s.channel r.channel).postError = true → t.request e = none

theorem State.endParked_unparked (h : ∀ r, s.request e = some r → r.isParked = false) (status : Status) : s.endParked e status = s := by
  unfold endParked
  split
  · rfl
  · next r hr => rw [if_neg (ne_true_of_eq_false (h r hr))]

/-- One PARKED request's entry and its channel changed. -/
theorem State.Ends.entry {o : Option Request} {y : Channel} {w : List Work} (hr : s.request e = some r) (hp : r.isParked = true)
    (ht : t = { s with table := SMap.set none s.table e o, channels := SMap.set {} s.channels c y, agenda := w }) (hy : (s.channel c).Ends y) :
    State.Ends [e] s t ∧ t.request e = o ∧ t.channel c = y := by
  have hrequest := request_of_table (t := t) (m := s.table) (e := e) (x := o) (by rw [ht])
  have hchannel := channel_of_channels (t := t) (m := s.channels) (c := c) (x := y) (by rw [ht])
  refine ⟨⟨fun i hi => (hrequest i).trans (if_neg fun h => ?_), fun d => ?_, ?_, ?_, ?_, ?_, ?_⟩, (hrequest e).trans (if_pos rfl),
    (hchannel c).trans (if_pos rfl)⟩
  · have := hi (List.mem_singleton.2 h) r (by rw [h]; exact hr)
    rw [hp] at this
    cases this
  · rw [hchannel]
    split
    · next hd => rw [hd]; exact hy
    · exact .refl _
  all_goals subst ht
  · exact fun u => .refl [e] _
  · exact fun k => .refl _
  · exact fun i h => h
  · exact fun i h => h
  · exact fun n h => h

theorem State.complete_ends (hr : s.request e = some r) (hp : r.isParked = true) (x : Completion) : State.Ends [e] s (s.complete e x)
    ∧ ((s.channel r.channel).postError = false → (s.complete e x).request e = some (r.ended x) ∧ e ∈ ((s.complete e x).channel r.channel).postQueue)
    ∧ ((s.channel r.channel).postError = true → (s.complete e x).request e = none) := by
  have hd : r.place ≠ .done := fun h => by rw [Request.isParked, h] at hp; cases hp
  cases hpost : (s.channel r.channel).postError with
  | false =>
    obtain ⟨w, heq⟩ := complete_posted hr hd hpost x
    obtain ⟨hends, hrequest, hchannel⟩ := Ends.entry hr hp heq
      ⟨rfl, rfl, rfl, rfl, fun _ h => h, fun _ h => List.mem_append_left _ h, .inl rfl⟩
    exact ⟨hends, fun _ => ⟨hrequest, by rw [hchannel]; exact List.mem_append_right _ (List.mem_singleton.2 rfl)⟩, nofun⟩
  | true =>
    obtain ⟨w, heq⟩ := complete_discarded hr hd hpost x
    obtain ⟨hends, hrequest, -⟩ := Ends.entry hr hp heq ⟨rfl, rfl, rfl, rfl, fun _ h => h, fun _ h => h, .inl rfl⟩
    exact ⟨hends, nofun, fun _ => hrequest⟩

theorem State.endParked_ended (hr : s.request e = some r) (hp : r.isParked = true) (status : Status) :
    State.Ends [e] s (s.endParked e status) ∧ s.EndedIn (s.endParked e status) e r status := by
  obtain ⟨hdepart, htable, hdeparted⟩ := s.depart_ends e r
  have hend : s.endParked e status = (s.depart e r).complete e { status, epoch := s.barrierEpoch e r } := by
    unfold endParked
    rw [hr]
    exact if_pos hp
  obtain ⟨hends, hposted, hdiscarded⟩ := complete_ends (s := s.depart e r) (e := e) (by rw [request, htable]; exact hr) hp
    { status, epoch := s.barrierEpoch e r }
  have herr : ((s.depart e r).channel r.channel).postError = (s.channel r.channel).postError := (hdepart.channel r.channel).postError
  rw [hend]
  have hall := hdepart.trans hends
  refine ⟨{ hall with request := fun i hi => hall.request i fun h => hi ?_, unit := fun u => ?_ }, hdeparted.ends hends,
    fun h => hposted (herr.trans h), fun h => hdiscarded (herr.trans h)⟩
  · exact List.mem_singleton.2 ((List.mem_append.1 h).elim List.mem_singleton.1 List.mem_singleton.1)
  · obtain ⟨surveys, barriers, hu, hs, hb⟩ := hall.unit u
    exact ⟨surveys, barriers, hu, hs, fun i hi => hb i fun h => hi
      (List.mem_singleton.2 ((List.mem_append.1 h).elim List.mem_singleton.1 List.mem_singleton.1))⟩

/-- A barrier's epoch is not lost by the ends of other requests. -/
theorem State.Ends.barrierEpoch (h : State.Ends l s t) (he : e ∉ l) (r : Request) : t.barrierEpoch e r = s.barrierEpoch e r := by
  obtain ⟨surveys, barriers, hu, -, hb⟩ := h.unit r.record.unit
  unfold State.barrierEpoch
  rw [hu]
  dsimp only
  rw [hb e he]

theorem State.EndedIn.agenda (h : s.EndedIn t e r status) (w w' : List Work) : (s.setAgenda w).EndedIn (t.setAgenda w') e r status :=
  ⟨⟨h.departed.slotWait, h.departed.episodeWait, h.departed.lineWait, h.departed.episode, h.departed.writer, h.departed.fetchHold⟩,
    h.posted, h.discarded⟩

/-- R149: the turn of one request. -/
theorem State.endTurn_ended (s : State) (e : Nat) (status : Status) : State.Ends [e] s (s.inOrder (fun t => t.endParked e status))
    ∧ ∀ r, s.request e = some r → r.isParked = true → s.EndedIn (s.inOrder (fun t => t.endParked e status)) e r status := by
  by_cases hp : ∃ r, s.request e = some r ∧ r.isParked = true
  · obtain ⟨r, hr, hparked⟩ := hp
    obtain ⟨hends, hin⟩ := endParked_ended (s := s.setAgenda []) hr hparked status
    refine ⟨hends.agenda s.agenda _, fun q hq _ => ?_⟩
    cases hr.symm.trans hq
    exact hin.agenda s.agenda _
  · have hunparked (r : Request) (hr : s.request e = some r) : r.isParked = false := Bool.eq_false_iff.2 fun h => hp ⟨r, hr, h⟩
    have hsame : s.inOrder (fun t => t.endParked e status) = s.setAgenda (s.agenda ++ []) := by
      rw [inOrder, endParked_unparked (s := s.setAgenda []) hunparked]
      rfl
    rw [hsame]
    exact ⟨(State.Ends.refl [e] s).agenda s.agenda _, fun r hr h => absurd h (ne_true_of_eq_false (hunparked r hr))⟩

/-- R149: the requests of a list ended one after the other. Each that is PARKED is ended as it stood. -/
theorem State.endEach_ended (status : Status) (l : List Nat) (s : State) :
    State.Ends l s (s.forEach l (fun e t => t.endParked e status))
    ∧ ∀ e r, e ∈ l → s.request e = some r → r.isParked = true → s.EndedIn (s.forEach l (fun e t => t.endParked e status)) e r status := by
  induction l generalizing s with
  | nil => exact ⟨.refl [] s, fun _ _ h => absurd h List.not_mem_nil⟩
  | cons a l ih =>
    obtain ⟨hfirst, hturn⟩ := s.endTurn_ended a status
    obtain ⟨hrest, hended⟩ := ih (s.inOrder (fun t => t.endParked a status))
    rw [forEach, List.foldl_cons]
    rw [forEach] at hrest hended
    refine ⟨hfirst.trans hrest, fun e r he hr hp => ?_⟩
    by_cases hea : e = a
    · subst hea
      obtain ⟨hdeparted, hposted, hdiscarded⟩ := hturn r hr hp
      refine ⟨hdeparted.ends hrest, fun h => ?_, fun h => ?_⟩
      · obtain ⟨hv, hqueue⟩ := hposted h
        refine ⟨(hrest.request e fun _ q hq => ?_).trans hv, (hrest.channel r.channel).postQueue e hqueue⟩
        cases hv.symm.trans hq
        rfl
      · have hv := hdiscarded h
        exact (hrest.request e fun _ q hq => by cases hv.symm.trans hq).trans hv
    · have hnot : e ∉ [a] := fun h => hea (List.mem_singleton.1 h)
      have hv := (hfirst.request e fun h => absurd h hnot).trans hr
      obtain ⟨hdeparted, hposted, hdiscarded⟩ := hended e r (List.mem_of_ne_of_mem hea he) hv hp
      have herr := (hfirst.channel r.channel).postError
      rw [hfirst.barrierEpoch hnot] at hposted
      exact ⟨hdeparted, fun h => hposted (herr.trans h), fun h => hdiscarded (herr.trans h)⟩

/-! ### Who is ended (R149) -/

theorem insertBy_perm {α : Type} (before : α → α → Bool) (a : α) (l : List α) : (insertBy before a l).Perm (a :: l) := by
  induction l with
  | nil => exact .refl _
  | cons b l ih =>
    rw [insertBy]
    split
    · exact .refl _
    · exact (ih.cons b).trans (.swap a b l)

theorem sortBy_perm {α : Type} (before : α → α → Bool) (l : List α) : (sortBy before l).Perm l := by
  induction l with
  | nil => exact .refl _
  | cons a l ih => exact (insertBy_perm before a (sortBy before l)).trans (ih.cons a)

/-- An entry that the table holds is among the entries held. -/
theorem State.held_of_request (hr : s.request e = some r) : (e, r) ∈ s.held := by
  have hget : ∀ m : SMap (Option Request), SMap.get none m e = some r → (e, some r) ∈ m := fun m h => by
    induction m with
    | nil => cases h
    | cons b m ih =>
      by_cases hb : e = b.1
      · have : b.2 = some r := (if_pos hb).symm.trans h
        rw [hb, ← this]
        exact List.mem_cons_self
      · exact List.mem_cons_of_mem b (ih ((if_neg hb).symm.trans h))
  exact List.mem_filterMap.2 ⟨(e, some r), hget s.table hr, rfl⟩

theorem State.mem_parkedWhere {q : Request → Bool} (hr : s.request e = some r) (hp : r.isParked = true) (hq : q r = true) :
    e ∈ s.parkedWhere q := by
  refine List.mem_map.2 ⟨(e, r), (sortBy_perm ..).mem_iff.2 (List.mem_filter.2 ⟨held_of_request hr, ?_⟩), rfl⟩
  rw [hp, hq]
  rfl

end Sys2Proof.Machine
end

section
/-! PROOF. A fence of an OPEN data channel (R169, R170). -/

namespace Sys2Proof.Machine

variable {s t : State} {c d e k : Nat} {r : Request} {cause : FenceCause}

/-- A request that has been ended is PARKED no more. -/
theorem State.EndedIn.unparked {q : Request} {status : Status} (h : s.EndedIn t e r status) (hq : t.request e = some q) : q.isParked = false := by
  cases herr : (s.channel r.channel).postError with
  | false =>
    cases (h.posted herr).1.symm.trans hq
    rfl
  | true => cases (h.discarded herr).symm.trans hq

/-! ### Holds dropped, whatever waits (R32, R46) -/

theorem State.leavePending_frame (s : State) (c : Nat) (o : Option Nat) : ∃ episodes w, s.leavePending c o = { s with episodes, agenda := w } := by
  unfold leavePending
  split
  · exact ⟨s.episodes, s.agenda, rfl⟩
  · split
    · exact ⟨s.episodes, s.agenda, rfl⟩
    · split
      · exact ⟨_, _, rfl⟩
      · exact ⟨s.episodes, s.agenda, rfl⟩

theorem State.dropHold_frame (s : State) (c k : Nat) : ∃ episodes w, s.dropHold c k = { s with
    lines := SMap.set {} s.lines k { s.line k with holders := leaveList c (s.line k).holders }
    channels := SMap.set {} s.channels c { s.channel c with holdCount := (s.channel c).holdCount - 1 }, episodes, agenda := w } := by
  let t : State := { s with
    lines := SMap.set {} s.lines k { s.line k with holders := leaveList c (s.line k).holders }
    channels := SMap.set {} s.channels c { s.channel c with holdCount := (s.channel c).holdCount - 1 } }
  obtain ⟨episodes, w, hpending⟩ := t.leavePending_frame c (s.line k).episode
  have hevict (v : State) (hv : ∃ w, v = ({ t with episodes, agenda := w } : State)) :
      ∃ episodes w, v.noteEvictable k = { t with episodes, agenda := w } := by
    obtain ⟨w, rfl⟩ := hv
    obtain ⟨w', hw'⟩ := ({ t with episodes, agenda := w } : State).noteEvictable_agenda k
    exact ⟨episodes, w', hw'⟩
  unfold dropHold
  dsimp only
  rw [show ((s.updLine k (fun x => { x with holders := leaveList c x.holders })).updChannel c
    (fun x => { x with holdCount := x.holdCount - 1 })).leavePending c (s.line k).episode = { t with episodes, agenda := w } from hpending]
  refine hevict _ ?_
  split
  · split
    · exact ⟨_, rfl⟩
    · exact ⟨w, rfl⟩
  · exact ⟨w, rfl⟩

/-- R46: the holds of a channel on some lines dropped, one after the other. -/
theorem State.dropEach_frame (c : Nat) (ks : List Nat) (s : State) : ∃ lines channels episodes w,
    s.forEach ks (fun k t => t.dropHold c k) = { s with lines, channels, episodes, agenda := w }
    ∧ (∀ j, ∃ h, SMap.get {} lines j = { s.line j with holders := h } ∧ (c ∈ h → c ∈ (s.line j).holders ∧ j ∉ ks))
    ∧ ∀ d, SMap.get {} channels d = if d = c then { s.channel c with holdCount := (s.channel c).holdCount - ks.length } else s.channel d := by
  induction ks generalizing s with
  | nil =>
    refine ⟨s.lines, s.channels, s.episodes, s.agenda, rfl, fun j => ⟨(s.line j).holders, rfl, fun h => ⟨h, List.not_mem_nil⟩⟩, fun d => ?_⟩
    split
    · next h => rw [h]; rfl
    · rfl
  | cons k ks ih =>
    obtain ⟨episodes, w, hdrop⟩ := (s.setAgenda []).dropHold_frame c k
    let x : Channel := { s.channel c with holdCount := (s.channel c).holdCount - 1 }
    let ln : Line := { s.line k with holders := leaveList c (s.line k).holders }
    let t : State := { s with
      lines := SMap.set {} s.lines k ln, channels := SMap.set {} s.channels c x, episodes, agenda := s.agenda ++ w }
    have hfirst : s.inOrder (fun t => t.dropHold c k) = t := by rw [inOrder, hdrop]; rfl
    obtain ⟨lines, channels, episodes', w', hrest, hlines, hchannels⟩ := ih t
    refine ⟨lines, channels, episodes', w', ?_, fun j => ?_, fun d => ?_⟩
    · rw [forEach, List.foldl_cons, hfirst]
      exact hrest
    · obtain ⟨h, hj, hc⟩ := hlines j
      rw [line_of_lines (t := t) (m := s.lines) (k := k) (x := ln) rfl j] at hj hc
      by_cases hjk : j = k
      · subst hjk
        rw [if_pos rfl] at hj hc
        refine ⟨h, hj, fun hmem => absurd (hc hmem).1 ?_⟩
        simp [ln, leaveList]
      · rw [if_neg hjk] at hj hc
        refine ⟨h, hj, fun hmem => ⟨(hc hmem).1, fun hin => ?_⟩⟩
        exact (hc hmem).2 (List.mem_of_ne_of_mem hjk hin)
    · rw [hchannels, channel_of_channels (t := t) (m := s.channels) (c := c) (x := x) rfl c,
        channel_of_channels (t := t) (m := s.channels) (c := c) (x := x) rfl d, if_pos rfl]
      by_cases hd : d = c
      · rw [if_pos hd, if_pos hd, List.length_cons, Nat.add_comm, ← Nat.sub_sub]
      · rw [if_neg hd, if_neg hd, if_neg hd]
        rfl

/-- R46: every hold of a channel dropped. -/
theorem State.dropAllHolds_frame (s : State) (c : Nat) : ∃ lines channels episodes w,
    s.dropAllHolds c = { s with lines, channels, episodes, agenda := w }
    ∧ (∀ j, c ∉ (SMap.get {} lines j).holders)
    ∧ ∀ d, SMap.get {} channels d = if d = c then { s.channel c with
        holdCount := (s.channel c).holdCount - (s.lines.filter (fun p => p.2.holders.contains c)).length } else s.channel d := by
  obtain ⟨lines, channels, episodes, w, heq, hlines, hchannels⟩ :=
    s.dropEach_frame c ((s.lines.filter (fun p => p.2.holders.contains c)).map (·.1))
  rw [List.length_map] at hchannels
  refine ⟨lines, channels, episodes, w, heq, fun j hc => ?_, hchannels⟩
  obtain ⟨h, hj, hkept⟩ := hlines j
  rw [hj] at hc
  obtain ⟨hold, hnot⟩ := hkept hc
  have hget : ∀ m : SMap Line, c ∈ (SMap.get {} m j).holders → (j, SMap.get {} m j) ∈ m := fun m hm => by
    induction m with
    | nil => exact absurd hm List.not_mem_nil
    | cons b m ih =>
      by_cases hb : j = b.1
      · have hval : SMap.get {} (b :: m) j = b.2 := if_pos hb
        rw [hval, hb]
        exact List.mem_cons_self
      · have hval : SMap.get {} (b :: m) j = SMap.get {} m j := if_neg hb
        rw [hval] at hm ⊢
        exact List.mem_cons_of_mem b (ih hm)
  exact hnot (List.mem_map.2 ⟨_, List.mem_filter.2 ⟨hget s.lines hold, List.contains_iff_mem.2 hold⟩, rfl⟩)

/-! ### Records discarded (R169, step 5; R170) -/

theorem State.discardEach_frame (queue : List Nat) (s : State) : ∃ table channels w,
    s.forEach queue (fun e t => t.discardRecord e) = { s with table, channels, agenda := w }
    ∧ (∀ i, SMap.get none table i = s.request i ∨ SMap.get none table i = none)
    ∧ ∀ d, ∃ a b, SMap.get {} channels d = { s.channel d with reserved := a, inFlight := b } := by
  induction queue generalizing s with
  | nil => exact ⟨s.table, s.channels, s.agenda, rfl, fun i => .inl rfl, fun d => ⟨(s.channel d).reserved, (s.channel d).inFlight, rfl⟩⟩
  | cons e queue ih =>
    rw [forEach, List.foldl_cons]
    cases hr : s.request e with
    | none =>
      have hfirst : s.inOrder (fun t => t.discardRecord e) = s.setAgenda (s.agenda ++ []) := by
        have hsame : (s.setAgenda []).discardRecord e = s.setAgenda [] := by
          unfold discardRecord
          rw [show (s.setAgenda []).request e = none from hr]
        rw [inOrder, hsame]
        rfl
      rw [hfirst]
      exact ih (s.setAgenda (s.agenda ++ []))
    | some r =>
      obtain ⟨w, hdiscard⟩ := discardRecord_frame (s := s.setAgenda []) hr
      let x : Channel := { s.channel r.channel with
        reserved := (s.channel r.channel).reserved - 1, inFlight := (s.channel r.channel).inFlight - 1 }
      let t : State := { s with
        table := SMap.set none s.table e none, channels := SMap.set {} s.channels r.channel x, agenda := s.agenda ++ w }
      have hfirst : s.inOrder (fun t => t.discardRecord e) = t := by rw [inOrder, hdiscard]; rfl
      obtain ⟨table, channels, w', hrest, htable, hchannels⟩ := ih t
      rw [hfirst]
      refine ⟨table, channels, w', hrest, fun i => ?_, fun d => ?_⟩
      · have hi := htable i
        rw [request_of_table (t := t) (m := s.table) (e := e) (x := none) rfl i] at hi
        split at hi
        · exact .inr (hi.elim id id)
        · exact hi
      · obtain ⟨a, b, hd⟩ := hchannels d
        rw [channel_of_channels (t := t) (m := s.channels) (c := r.channel) (x := x) rfl d] at hd
        by_cases hdr : d = r.channel
        · rw [if_pos hdr] at hd
          exact ⟨a, b, by rw [hd, hdr]⟩
        · rw [if_neg hdr] at hd
          exact ⟨a, b, hd⟩

theorem State.enterPostError_frame (s : State) (c : Nat) : ∃ table channels w,
    s.enterPostError c = { s with table, channels, agenda := w }
    ∧ (∀ i, SMap.get none table i = s.request i ∨ SMap.get none table i = none)
    ∧ ∃ a b, SMap.get {} channels c = { s.channel c with reserved := a, inFlight := b, postError := true, postQueue := [] } := by
  let x : Channel := { s.channel c with postError := true, postQueue := [] }
  let t : State := { s with channels := SMap.set {} s.channels c x }
  obtain ⟨table, channels, w, heq, htable, hchannels⟩ := t.discardEach_frame (s.channel c).postQueue
  obtain ⟨a, b, hc⟩ := hchannels c
  rw [channel_of_channels (t := t) (m := s.channels) (c := c) (x := x) rfl c, if_pos rfl] at hc
  exact ⟨table, channels, w, heq, htable, a, b, hc⟩

/-! ### The fence (R169) -/

/-- R169, steps 1 to 3: the channel FENCING, its holds dropped and its backlog emptied. -/
theorem State.fence_stopped (s : State) (c : Nat) (cause : FenceCause) : ∃ t : State,
    (s.updChannel c (fun x => { x with state := .fencing, cause })).stopService c .fenced = t.endAllParked (fun r => r.channel == c) .fenced
    ∧ t.table = s.table ∧ t.units = s.units ∧ (∀ j, c ∉ (t.line j).holders)
    ∧ t.channel c = { s.channel c with
        state := .fencing, cause, backlog := []
        holdCount := (s.channel c).holdCount - (s.lines.filter (fun p => p.2.holders.contains c)).length } := by
  let x : Channel := { s.channel c with state := .fencing, cause }
  let v : State := { s with channels := SMap.set {} s.channels c x }
  obtain ⟨lines, channels, episodes, w, hdrop, hlines, hchannels⟩ := v.dropAllHolds_frame c
  have hc := hchannels c
  rw [if_pos rfl, channel_of_channels (t := v) (m := s.channels) (c := c) (x := x) rfl c, if_pos rfl] at hc
  refine ⟨(v.dropAllHolds c).updChannel c (fun x => { x with backlog := [] }), rfl, ?_, ?_, ?_, ?_⟩
  · rw [hdrop]; rfl
  · rw [hdrop]; rfl
  · rw [hdrop]; exact hlines
  · have hdropped : (v.dropAllHolds c).channel c = _ := (congrArg (fun t : State => t.channel c) hdrop).trans hc
    rw [updChannel_channel, if_pos rfl, hdropped]

end Sys2Proof.Machine

namespace Sys2Proof.Proofs

open Sys2Proof Sys2Proof.Machine

/-- Settles O11: the holds and the backlog first, then the ends of the PARKED requests, then the post queue under COMPLETION_POST_ERROR. -/
theorem fenceTakesChannelOutOfService : Obligations.FenceTakesChannelOutOfService := by
  intro s c cause x t
  refine ⟨if_pos rfl, fun hc ho => ?_⟩
  obtain ⟨u, hstop, htable, hunits, hlines, hchannel⟩ := s.fence_stopped c cause
  let parked := u.parkedWhere (fun r => r.channel == c)
  obtain ⟨hends, hended⟩ := State.endEach_ended .fenced parked u
  obtain ⟨v, hv⟩ : ∃ v, u.forEach parked (fun e t => t.endParked e .fenced) = v := ⟨_, rfl⟩
  rw [hv] at hends hended
  have hfence : t = (if cause = .completionPostError then v.enterPostError c else v).noteDrain c := by
    show s.fence c cause = _
    unfold State.fence
    rw [if_neg hc, show (s.channel c).state = _ from ho]
    dsimp only
    rw [hstop, ← hv]
    rfl
  have hrequest (i : Nat) : u.request i = s.request i := by rw [State.request, htable]; rfl
  have hepoch (e : Nat) (r : Request) : u.barrierEpoch e r = s.barrierEpoch e r := by
    unfold State.barrierEpoch State.unit
    rw [hunits]
  obtain ⟨hlinesEq, hcontext, hentries, hkept, hpost⟩ : t.lines = v.lines
      ∧ (∃ a b p q, t.channel c = { v.channel c with reserved := a, inFlight := b, postError := p, postQueue := q })
      ∧ (∀ i, t.request i = v.request i ∨ t.request i = none)
      ∧ (cause ≠ .completionPostError → ∀ i, t.request i = v.request i)
      ∧ (cause = .completionPostError → (t.channel c).postQueue = []) := by
    rw [hfence]
    by_cases hcause : cause = .completionPostError
    · rw [if_pos hcause]
      obtain ⟨table, channels, w, heq, hentry, a, b, hcc⟩ := v.enterPostError_frame c
      obtain ⟨w', hdrain⟩ := (v.enterPostError c).noteDrain_agenda c
      rw [hdrain, heq]
      exact ⟨rfl, ⟨a, b, true, [], hcc⟩, hentry, fun h => absurd hcause h, fun _ => congrArg Channel.postQueue hcc⟩
    · rw [if_neg hcause]
      obtain ⟨w, hdrain⟩ := v.noteDrain_agenda c
      rw [hdrain]
      exact ⟨rfl, ⟨_, _, _, _, rfl⟩, fun _ => .inl rfl, fun _ _ => rfl, fun h => absurd h hcause⟩
  obtain ⟨a, b, p, q, hcontext⟩ := hcontext
  have hchan := hends.channel c
  rw [hchannel] at hchan
  have hgone (e : Nat) (r : Request) (hr : s.request e = some r) (hrc : r.channel = c) (hp : r.isParked = true) :
      u.EndedIn v e r .fenced := by
    have hru : u.request e = some r := (hrequest e).trans hr
    exact hended e r (State.mem_parkedWhere hru hp (by simpa using hrc)) hru hp
  have hline (j : Nat) : t.line j = v.line j := by rw [State.line, hlinesEq]; rfl
  rw [hcontext]
  refine ⟨hchan.state, hchan.cause, fun k => ?_, List.eq_nil_iff_forall_not_mem.2 fun m hm => List.not_mem_nil (hchan.backlog m hm), fun hcount => ?_, fun hhold => ?_,
    fun e r hr hrc => ?_, fun e r hr hrc hp herr hcause => ?_, fun hcause => ?_⟩
  · rw [hline, (hends.line k).holders]
    exact hlines k
  · refine hchan.holdCount.trans ?_
    show x.holdCount - _ = 0
    rw [hcount, Nat.sub_self]
  · refine hchan.fetchHold.elim (fun h => h.trans ?_) id
    show x.fetchHold = none
    cases hx : x.fetchHold with
    | none => rfl
    | some i =>
      obtain ⟨r, hr, hrc, hplace⟩ := hhold i hx
      have hin := hgone i r hr hrc (by rw [Request.isParked, hplace])
      have hnone := hin.departed.fetchHold hplace
      rw [hrc, h] at hnone
      exact hx.symm.trans hnone
  · have hv : v.request e = some r := (hentries e).elim (fun h => h.symm.trans hr) fun h => absurd (h.symm.trans hr) nofun
    refine Bool.eq_false_iff.2 fun hp => ?_
    have hsame : u.request e = some r := (hends.request e fun he q hq => Bool.eq_false_iff.2 fun hqp => ?_).symm.trans hv
    · have hin := hended e r (State.mem_parkedWhere hsame hp (by simpa using hrc)) hsame hp
      exact absurd hp (ne_true_of_eq_false (hin.unparked hv))
    · exact absurd hp (ne_true_of_eq_false ((hended e q he hq hqp).unparked hv))
  · rw [hkept hcause]
    have hposted := (hgone e r hr hrc hp).posted (by rw [hrc, hchannel]; exact herr)
    rw [hposted.1, hepoch]
  · exact hcontext ▸ hpost hcause

end Sys2Proof.Proofs
end

section
/-! PROOF. UNIT_DISCARD, first stage (R181). -/

namespace Sys2Proof.Machine

variable {s t : State} {c e i u : Nat} {q r : Request} {status : Status}

/-! ### The order of ending (R149) -/

/-- A list in which no member should come before an earlier one. -/
def Ordered {α : Type} (before : α → α → Bool) (l : List α) : Prop := l.Pairwise (fun a b => before b a = false)

theorem insertBy_ordered {α : Type} {before : α → α → Bool} (hasymm : ∀ a b, before a b = true → before b a = false)
    (htrans : ∀ a b c, before a b = true → before b c = true → before a c = true) {l : List α} (h : Ordered before l) (a : α) :
    Ordered before (insertBy before a l) := by
  induction l with
  | nil => exact List.pairwise_singleton _ a
  | cons b l ih =>
    obtain ⟨hb, hl⟩ := List.pairwise_cons.1 h
    rw [insertBy]
    split
    · next hab =>
      refine List.pairwise_cons.2 ⟨fun c hc => ?_, h⟩
      rcases List.mem_cons.1 hc with rfl | hc
      · exact hasymm a c hab
      · exact Bool.eq_false_iff.2 fun hca => absurd (htrans c a b hca hab) (ne_true_of_eq_false (hb c hc))
    · next hab =>
      refine List.pairwise_cons.2 ⟨fun c hc => ?_, ih hl⟩
      rcases List.mem_cons.1 ((insertBy_perm before a l).mem_iff.1 hc) with rfl | hc
      · exact Bool.eq_false_iff.2 hab
      · exact hb c hc

theorem sortBy_ordered {α : Type} {before : α → α → Bool} (hasymm : ∀ a b, before a b = true → before b a = false)
    (htrans : ∀ a b c, before a b = true → before b c = true → before a c = true) (l : List α) : Ordered before (sortBy before l) := by
  induction l with
  | nil => exact List.Pairwise.nil
  | cons a l ih => exact insertBy_ordered hasymm htrans ih a

theorem endsBefore_iff {a b : Nat × Request} : endsBefore a b = true
    ↔ a.2.channel < b.2.channel ∨ a.2.channel = b.2.channel ∧ a.2.arrival < b.2.arrival := decide_eq_true_iff

/-- R149: the requests ended together, each listed once, by channel and arrival. -/
theorem State.parkedWhere_spec (hwf : SMap.wf none s.table = true) (p : Request → Bool) : (s.parkedWhere p).Nodup
    ∧ (∀ i, i ∈ s.parkedWhere p ↔ ∃ q, s.request i = some q ∧ q.isParked = true ∧ p q = true)
    ∧ (s.parkedWhere p).Pairwise (fun i j => ∀ y z, s.request i = some y → s.request j = some z → y.channel = z.channel → y.arrival ≤ z.arrival) := by
  let l := s.held.filter (fun x => x.2.isParked && p x.2)
  have hmem (x : Nat × Request) : x ∈ sortBy endsBefore l ↔ s.request x.1 = some x.2 ∧ x.2.isParked = true ∧ p x.2 = true := by
    rw [(sortBy_perm endsBefore l).mem_iff, List.mem_filter, mem_held hwf, Bool.and_eq_true]
  have hkeys : (s.held.map (·.1)).Nodup := by
    have hrising := (Bool.and_eq_true_iff.1 hwf).1
    refine (SMap.keys_nodup hrising).sublist ?_
    have hsub : ∀ m : SMap (Option Request), List.Sublist ((m.filterMap (fun p => p.2.map (fun r => (p.1, r)))).map (·.1)) (m.map (·.1)) := fun m => by
      induction m with
      | nil => exact .slnil
      | cons b m ih =>
        obtain ⟨k, o⟩ := b
        cases o with
        | none => exact ih.cons k
        | some r => exact ih.cons_cons k
    exact hsub s.table
  have hordered := sortBy_ordered (before := endsBefore) (fun a b h => Bool.eq_false_iff.2 fun h' => by
      rw [endsBefore_iff] at h h'
      omega) (fun a b c h h' => by
      rw [endsBefore_iff] at h h' ⊢
      omega) l
  refine ⟨?_, fun i => ?_, ?_⟩
  · exact ((sortBy_perm endsBefore l).map (·.1)).nodup_iff.2 (hkeys.sublist (List.filter_sublist.map _))
  · rw [parkedWhere, List.mem_map]
    constructor
    · rintro ⟨x, hx, rfl⟩
      exact ⟨x.2, (hmem x).1 hx⟩
    · rintro ⟨q, hq⟩
      exact ⟨(i, q), (hmem (i, q)).2 hq, rfl⟩
  · rw [parkedWhere, List.pairwise_map]
    refine hordered.imp_of_mem fun {a b} ha hb hab y z hy hz hch => ?_
    cases hy.symm.trans ((hmem a).1 ha).1
    cases hz.symm.trans ((hmem b).1 hb).1
    have hnot := mt endsBefore_iff.2 (ne_true_of_eq_false hab)
    omega

/-! ### Requests ended on set wait lists, survey queues and barrier lists -/

/-- The request `q` of entry `i` names unit `u`, is PARKED on a list whose departures set nothing in motion, and can complete. -/
structure State.Leaves (s : State) (u i : Nat) (q : Request) : Prop where
  held : s.request i = some q
  unit : q.record.unit = u
  place : q.place = .parked .setWait ∨ q.place = .parked .surveyQueue ∨ q.place = .parked .barrierList
  posts : (s.channel q.channel).postError = false
  clear : (s.channel q.channel).fetchHold = none

theorem State.Leaves.parked (h : s.Leaves u i q) : q.isParked = true := by
  rw [Request.isParked]
  rcases h.place with h | h | h <;> rw [h]

/-- R149: a departure from such a list. -/
theorem State.Leaves.depart (h : s.Leaves u i q) (hs : (s.unit u).surveyQueue = []) : ∃ setWait units,
    s.depart i q = { s with setWait, units }
    ∧ (∀ n, SMap.get [] setWait n = (s.waiters n).filter (fun j => !(j == i && q.place == .parked .setWait && s.setOfKey q.key == n)))
    ∧ ∀ w, SMap.get {} units w = if w = u then { s.unit u with
        barriers := (s.unit u).barriers.filter (fun b => !(b.entry == i && q.place == .parked .barrierList)) } else s.unit w := by
  have hwaiters (hp : q.place ≠ .parked .setWait) (n : Nat) :
      s.waiters n = (s.waiters n).filter (fun j => !(j == i && q.place == .parked .setWait && s.setOfKey q.key == n)) :=
    (List.filter_eq_self.2 fun j _ => by simp [hp]).symm
  have hbarriers (hp : q.place ≠ .parked .barrierList) :
      (s.unit u).barriers = (s.unit u).barriers.filter (fun b => !(b.entry == i && q.place == .parked .barrierList)) :=
    (List.filter_eq_self.2 fun b _ => by simp [hp]).symm
  obtain rfl := h.unit
  unfold State.depart
  rcases h.place with hp | hp | hp
  · refine ⟨SMap.set [] s.setWait (s.setOfKey q.key) (leaveList i (s.waiters (s.setOfKey q.key))), s.units, by rw [hp]; rfl, fun n => ?_, fun w => ?_⟩
    · rw [SMap.get_set]
      by_cases hn : n = s.setOfKey q.key
      · rw [if_pos hn, hn]
        exact List.filter_congr fun j _ => by simp [hp, bne]
      · rw [if_neg hn]
        exact (List.filter_eq_self.2 fun j _ => by simp [Ne.symm hn]).symm
    · rw [← hbarriers (by rw [hp]; nofun)]
      split
      · next hw => rw [hw]; rfl
      · rfl
  · refine ⟨s.setWait, SMap.set {} s.units q.record.unit { s.unit q.record.unit with surveyQueue := leaveList i (s.unit q.record.unit).surveyQueue },
      by rw [hp]; rfl, hwaiters (by rw [hp]; nofun), fun w => ?_⟩
    rw [SMap.get_set, ← hbarriers (by rw [hp]; nofun)]
    refine if_congr Iff.rfl ?_ rfl
    rw [hs]
    show ({ s.unit q.record.unit with surveyQueue := [] } : UnitRec) = _
    rw [← hs]
  · refine ⟨s.setWait, SMap.set {} s.units q.record.unit
      { s.unit q.record.unit with barriers := (s.unit q.record.unit).barriers.filter (·.entry != i) },
      by rw [hp]; rfl, hwaiters (by rw [hp]; nofun), fun w => ?_⟩
    rw [SMap.get_set]
    refine if_congr Iff.rfl ?_ rfl
    have hlist : (s.unit q.record.unit).barriers.filter (·.entry != i)
        = (s.unit q.record.unit).barriers.filter (fun b => !(b.entry == i && q.place == .parked .barrierList)) :=
      List.filter_congr fun b _ => by simp [hp, bne]
    rw [hlist]

/-- R149: the turn of such a request. -/
theorem State.Leaves.turn (h : s.Leaves u i q) (ha : s.agenda = []) (hs : (s.unit u).surveyQueue = []) (status : Status) :
    ∃ setWait units, s.inOrder (fun t => t.endParked i status) = { s with
        setWait, units
        table := SMap.set none s.table i (some (q.ended { status, epoch := s.barrierEpoch i q }))
        channels := SMap.set {} s.channels q.channel { s.channel q.channel with postQueue := (s.channel q.channel).postQueue ++ [i] } }
      ∧ (∀ n, SMap.get [] setWait n = (s.waiters n).filter (fun j => !(j == i && q.place == .parked .setWait && s.setOfKey q.key == n)))
      ∧ ∀ w, SMap.get {} units w = if w = u then { s.unit u with
          barriers := (s.unit u).barriers.filter (fun b => !(b.entry == i && q.place == .parked .barrierList)) } else s.unit w := by
  obtain ⟨setWait, units, hdepart, hwaiters, hunits⟩ := h.depart hs
  refine ⟨setWait, units, ?_, hwaiters, hunits⟩
  have hd : q.place ≠ .done := by rcases h.place with hp | hp | hp <;> rw [hp] <;> nofun
  rw [inOrder_settled ha]
  unfold endParked
  rw [h.held]
  dsimp only
  rw [if_pos h.parked, hdepart]
  exact complete_held (t := { s with setWait, units }) h.held hd h.posts h.clear _

/-- The set of a key goes by the geometry of its unit. -/
theorem State.setOfKey_congr {key : Key} (h : (t.unit key.unit).geometry = (s.unit key.unit).geometry) : t.setOfKey key = s.setOfKey key := by
  unfold setOfKey
  rw [h]

/-- R149: such requests ended one after the other. -/
theorem State.endEach_leaves (status : Status) (l : List Nat) (s : State) (ha : s.agenda = []) (hs : (s.unit u).surveyQueue = []) (hl : l.Nodup)
    (h : ∀ i ∈ l, ∃ q, s.Leaves u i q) : ∃ table channels setWait units,
    s.forEach l (fun i t => t.endParked i status) = { s with table, channels, setWait, units }
    ∧ (∀ d, SMap.get {} channels d = { s.channel d with
        postQueue := (s.channel d).postQueue ++ l.filter (fun i => (s.request i).any (fun q => q.channel == d)) })
    ∧ (∀ n, SMap.get [] setWait n = (s.waiters n).filter
        (fun j => !(l.contains j && (s.request j).any (fun q => q.place == .parked .setWait && s.setOfKey q.key == n))))
    ∧ ∀ w, SMap.get {} units w = if w = u then { s.unit u with
        barriers := (s.unit u).barriers.filter
          (fun b => !(l.contains b.entry && (s.request b.entry).any (fun q => q.place == .parked .barrierList))) } else s.unit w := by
  induction l generalizing s with
  | nil =>
    refine ⟨s.table, s.channels, s.setWait, s.units, rfl, fun d => ?_, fun n => ?_, fun w => ?_⟩
    · rw [List.filter_nil, List.append_nil]
      rfl
    · exact (List.filter_eq_self.2 fun _ _ => rfl).symm
    · have hall : (s.unit u).barriers.filter (fun b => !(([] : List Nat).contains b.entry
          && (s.request b.entry).any (fun q => q.place == .parked .barrierList))) = (s.unit u).barriers := List.filter_eq_self.2 fun _ _ => rfl
      rw [hall]
      split
      · next hw => rw [hw]; rfl
      · rfl
  | cons i l ih =>
    obtain ⟨hi, hl⟩ := List.nodup_cons.1 hl
    obtain ⟨q, hq⟩ := h i List.mem_cons_self
    obtain ⟨setWait, units, hturn, hwaiters, hunits⟩ := hq.turn ha hs status
    let o := some (q.ended { status, epoch := s.barrierEpoch i q })
    let x : Channel := { s.channel q.channel with postQueue := (s.channel q.channel).postQueue ++ [i] }
    let v : State := { s with setWait, units, table := SMap.set none s.table i o, channels := SMap.set {} s.channels q.channel x }
    have hvr := request_of_table (t := v) (m := s.table) (e := i) (x := o) rfl
    have hvc := channel_of_channels (t := v) (m := s.channels) (c := q.channel) (x := x) rfl
    have hvu : v.unit u = { s.unit u with
      barriers := (s.unit u).barriers.filter (fun b => !(b.entry == i && q.place == .parked .barrierList)) } := (hunits u).trans (if_pos rfl)
    have hne (j : Nat) (hj : j ∈ l) : j ≠ i := fun h => hi (h ▸ hj)
    have hkept (j : Nat) (hj : j ∈ l) : v.request j = s.request j := (hvr j).trans (if_neg (hne j hj))
    have hsame (d : Nat) : (v.channel d).postError = (s.channel d).postError ∧ (v.channel d).fetchHold = (s.channel d).fetchHold := by
      rw [hvc]
      split
      · next hd => rw [hd]; exact ⟨rfl, rfl⟩
      · exact ⟨rfl, rfl⟩
    have hset (key : Key) : v.setOfKey key = s.setOfKey key := by
      refine setOfKey_congr (t := v) ?_
      rw [show v.unit key.unit = _ from hunits key.unit]
      split
      · next hk => rw [hk]
      · rfl
    have hleaves (j : Nat) (hj : j ∈ l) : ∃ q, v.Leaves u j q := by
      obtain ⟨y, hy⟩ := h j (List.mem_cons_of_mem i hj)
      exact ⟨y, (hkept j hj).trans hy.held, hy.unit, hy.place, (hsame _).1.trans hy.posts, (hsame _).2.trans hy.clear⟩
    obtain ⟨table, channels, setWait', units', hrest, hchannels, hwaiters', hunits'⟩ := ih v ha (by rw [hvu]; exact hs) hl hleaves
    have hcontains (j : Nat) (f : Request → Bool) : (l.contains j && (v.request j).any f) = (l.contains j && (s.request j).any f) := by
      by_cases hj : j ∈ l
      · rw [hkept j hj]
      · rw [Bool.eq_false_iff.2 fun h => hj (List.contains_iff_mem.1 h), Bool.false_and, Bool.false_and]
    have hfilter (j : Nat) (f : Request → Bool) : ((i :: l).contains j && (s.request j).any f)
        = ((j == i && f q) || (l.contains j && (s.request j).any f)) := by
      by_cases hj : j = i
      · subst hj
        rw [List.contains_cons, beq_self_eq_true, Bool.true_or, Bool.true_and, Bool.true_and, hq.held,
          Bool.eq_false_iff.2 fun h => hi (List.contains_iff_mem.1 h), Bool.false_and, Bool.or_false]
        rfl
      · rw [List.contains_cons, beq_eq_false_iff_ne.2 hj, Bool.false_or, Bool.false_and, Bool.false_or]
    refine ⟨table, channels, setWait', units', ?_, fun d => ?_, fun n => ?_, fun w => ?_⟩
    · rw [forEach, List.foldl_cons, hturn]
      exact hrest
    · have hlist : l.filter (fun j => (v.request j).any (fun q => q.channel == d)) = l.filter (fun j => (s.request j).any (fun q => q.channel == d)) :=
        List.filter_congr fun j hj => by rw [hkept j hj]
      rw [hchannels, hlist, hvc, List.filter_cons, hq.held]
      by_cases hd : d = q.channel
      · rw [if_pos hd, if_pos (by simp [hd])]
        simp only [x, hd, List.append_assoc, List.singleton_append]
      · rw [if_neg hd, if_neg (by simpa using Ne.symm hd)]
        rfl
    · rw [hwaiters', show v.waiters n = _ from hwaiters n, List.filter_filter]
      refine List.filter_congr fun j _ => ?_
      simp only [hset]
      rw [hcontains, hfilter, Bool.not_or, Bool.and_comm, Bool.and_assoc]
    · rw [hunits', hvu]
      have hlist : ((s.unit u).barriers.filter (fun b => !(b.entry == i && q.place == .parked .barrierList))).filter
            (fun b => !(l.contains b.entry && (v.request b.entry).any (fun q => q.place == .parked .barrierList)))
          = (s.unit u).barriers.filter (fun b => !((i :: l).contains b.entry
            && (s.request b.entry).any (fun q => q.place == .parked .barrierList))) := by
        rw [List.filter_filter]
        refine List.filter_congr fun b _ => ?_
        rw [hcontains, hfilter, Bool.not_or, Bool.and_comm]
      dsimp only
      rw [hlist]
      by_cases hw : w = u
      · rw [if_pos hw, if_pos hw]
      · rw [if_neg hw, if_neg hw]
        exact (hunits w).trans (if_neg hw)

/-! ### The detach that a discard refuses (R181, step 1) -/

/-- R181, step 1: what the refusal of a waiting detach leaves, where that request is not PARKED. -/
theorem State.refuseDetach_frame (s : State) (u : Nat) (h : ∀ d q, (s.unit u).detach = some d → s.request d.entry = some q → q.isParked = false) :
    ∃ table channels units w, s.refuseDetach u = { s with table, channels, units, agenda := w }
    ∧ (∀ i q, s.request i = some q → q.isParked = true → SMap.get none table i = some q)
    ∧ (∀ d, (SMap.get {} channels d).postError = (s.channel d).postError)
    ∧ ∀ v, SMap.get {} units v = if v = u then { s.unit u with detach := none } else s.unit v := by
  unfold refuseDetach
  cases hd : (s.unit u).detach with
  | none =>
    refine ⟨s.table, s.channels, s.units, s.agenda, rfl, fun i q hi _ => hi, fun d => rfl, fun v => ?_⟩
    split
    · next hv =>
      rw [hv]
      show s.unit u = { s.unit u with detach := none }
      rw [← hd]
    · rfl
  | some d =>
    let p : State := { s with units := SMap.set {} s.units u { s.unit u with detach := none } }
    have hunits (v : Nat) : SMap.get {} p.units v = if v = u then { s.unit u with detach := none } else s.unit v :=
      SMap.get_set ({} : UnitRec) s.units u v { s.unit u with detach := none }
    have hp : s.updUnit u (fun x => { x with detach := none }) = p := rfl
    dsimp only
    rw [hp]
    by_cases hends : ∃ r, s.request d.entry = some r ∧ r.place ≠ .done
    · obtain ⟨r, hr, hdone⟩ := hends
      have hother {o : Option Request} (i : Nat) (q : Request) (hi : s.request i = some q) (hq : q.isParked = true) :
          SMap.get none (SMap.set none s.table d.entry o) i = some q := by
        rw [SMap.get_set, if_neg fun hie => ?_]
        · exact hi
        · rw [hie] at hi
          exact absurd hq (ne_true_of_eq_false (h d q hd hi))
      have herr {x : Channel} (hx : x.postError = (s.channel r.channel).postError) (c : Nat) :
          (SMap.get {} (SMap.set {} s.channels r.channel x) c).postError = (s.channel c).postError := by
        rw [SMap.get_set]
        split
        · next hc => rw [hc]; exact hx
        · rfl
      cases hpost : (s.channel r.channel).postError with
      | false =>
        obtain ⟨w, heq⟩ := complete_posted (s := p) hr hdone hpost { status := .unitBusy }
        exact ⟨_, _, p.units, w, heq, hother, herr rfl, hunits⟩
      | true =>
        obtain ⟨w, heq⟩ := complete_discarded (s := p) hr hdone hpost { status := .unitBusy }
        exact ⟨_, _, p.units, w, heq, hother, herr rfl, hunits⟩
    · have hsame : p.complete d.entry { status := .unitBusy } = p := by
        unfold complete
        split
        · rfl
        · next r hr => exact if_pos (by_contra fun hdone => hends ⟨r, hr, hdone⟩)
      exact ⟨s.table, s.channels, p.units, s.agenda, hsame, fun i q hi _ => hi, fun d => rfl, hunits⟩

/-- A barrier's epoch goes by the barrier list. -/
theorem State.barrierEpoch_congr (h : (t.unit q.record.unit).barriers = (s.unit q.record.unit).barriers) (i : Nat) :
    t.barrierEpoch i q = s.barrierEpoch i q := by
  unfold State.barrierEpoch
  rw [h]

/-- R181: UNIT_DISCARD of an attached unit that is not being discarded. -/
theorem State.discardUnit_eq {rec : Record} (hx : (s.unit rec.unit).state ≠ .detached) (hd : (s.unit rec.unit).discarding = false) :
    s.discardUnit e rec = (((s.refuseDetach rec.unit).updUnit rec.unit
      (fun x => { x with discarding := true, fillQueue := [], surveyQueue := [], discard := some e })).endAllParked
        (fun r => r.names rec.unit) .discarded).later [.discardTest rec.unit] := by
  unfold discardUnit
  dsimp only
  rw [if_neg (by simp [hx, hd])]

theorem Request.unit_of_names (h : q.names u = true) : q.record.unit = u := by
  unfold Request.names at h
  exact beq_iff_eq.1 (Bool.and_eq_true_iff.1 h).1

/-- R181: the operation that takes a discard, by the ends of the PARKED requests of the unit. -/
theorem State.discardUnit_ends {rec : Record} (hx : (s.unit rec.unit).state ≠ .detached) (hd : (s.unit rec.unit).discarding = false)
    (h : ∀ d q, (s.unit rec.unit).detach = some d → s.request d.entry = some q → q.isParked = false) : ∃ v l,
    State.Ends l v (s.discardUnit e rec)
    ∧ v.unit rec.unit = { s.unit rec.unit with
        discarding := true, fillQueue := [], surveyQueue := [], discard := some e, detach := none }
    ∧ ∀ i q, s.request i = some q → q.names rec.unit = true → q.isParked = true →
        (v.channel q.channel).postError = (s.channel q.channel).postError ∧ v.barrierEpoch i q = s.barrierEpoch i q
        ∧ v.EndedIn (s.discardUnit e rec) i q .discarded := by
  obtain ⟨table, channels, units, w, hrefuse, htable, herr, hunits⟩ := s.refuseDetach_frame rec.unit h
  let p : State := { s with table, channels, units, agenda := w }
  let y : UnitRec := { p.unit rec.unit with discarding := true, fillQueue := [], surveyQueue := [], discard := some e }
  let v : State := { p with units := SMap.set {} units rec.unit y }
  have hpu : p.unit rec.unit = { s.unit rec.unit with detach := none } := (hunits rec.unit).trans (if_pos rfl)
  have hvu : v.unit rec.unit = { s.unit rec.unit with
      discarding := true, fillQueue := [], surveyQueue := [], discard := some e, detach := none } := by
    rw [unit_of_units (t := v) (m := units) (x := y) rfl rec.unit, if_pos rfl]
    simp only [y, hpu]
  obtain ⟨hends, hended⟩ := endEach_ended .discarded (v.parkedWhere (fun r => r.names rec.unit)) v
  have heq : s.discardUnit e rec = (v.endAllParked (fun r => r.names rec.unit) .discarded).later [.discardTest rec.unit] := by
    rw [discardUnit_eq hx hd, hrefuse]
    rfl
  have hagenda : s.discardUnit e rec = (v.endAllParked (fun r => r.names rec.unit) .discarded).setAgenda
      ((v.endAllParked (fun r => r.names rec.unit) .discarded).agenda ++ [.discardTest rec.unit]) := heq
  refine ⟨v, v.parkedWhere (fun r => r.names rec.unit), ?_, hvu, fun i q hi hn hp => ⟨herr q.channel, ?_, ?_⟩⟩
  · rw [hagenda]
    exact hends.agenda v.agenda _
  · obtain hu := Request.unit_of_names hn
    exact barrierEpoch_congr (by rw [hu, hvu]) i
  · have hv : v.request i = some q := htable i q hi hp
    rw [hagenda]
    exact (hended i q (mem_parkedWhere hv hp hn) hv hp).agenda v.agenda _

/-! ### The whole first stage -/

/-- R182: while an operation is in flight a discard waits. -/
theorem State.discardTest_busy (h : (s.unit u).op ≠ none) : s.discardTest u = s := by
  unfold discardTest
  split
  · rfl
  · exact if_neg fun hquiet => h (Option.isNone_iff_eq_none.1 hquiet.1)

/-- The entries held after an entry has been filled. -/
theorem State.mem_held_of_set {p : Nat × Request} (ht : t.table = SMap.set none s.table e (some q)) (h : p ∈ t.held) : p = (e, q) ∨ p ∈ s.held := by
  rw [held, ht, List.mem_filterMap] at h
  obtain ⟨⟨i, x⟩, hmem, hx⟩ := h
  rcases SMap.mem_set hmem with heq | hmem
  · cases heq
    exact .inl (Option.some.inj hx).symm
  · exact .inr (List.mem_filterMap.2 ⟨(i, x), hmem, hx⟩)

/-- A unit record whose discard has been taken, with no detach waiting. -/
def UnitRec.discardTaken (x : UnitRec) (e : Nat) : UnitRec :=
  { x with discarding := true, fillQueue := [], surveyQueue := [], discard := some e, detach := none }

theorem State.refuseDetach_none (h : (s.unit u).detach = none) : s.refuseDetach u = s := by rw [refuseDetach, h]

theorem State.placed_posts {d : Nat} : ((s.placed c e q).channel d).postError = (s.channel d).postError
    ∧ ((s.placed c e q).channel d).fetchHold = (s.channel d).fetchHold ∧ ((s.placed c e q).channel d).postQueue = (s.channel d).postQueue := by
  rw [State.placed_channel]
  split
  · next h => rw [h]; exact ⟨rfl, rfl, rfl⟩
  · exact ⟨rfl, rfl, rfl⟩

/-- R181: a discard taken with no detach waiting: the unit's record first, then the ends of its PARKED requests. -/
theorem State.discardUnit_unwaited {rec : Record} (hx : (s.unit rec.unit).state ≠ .detached) (hd : (s.unit rec.unit).discarding = false)
    (hn : (s.unit rec.unit).detach = none) : s.discardUnit e rec
      = (({ s with units := SMap.set {} s.units rec.unit ((s.unit rec.unit).discardTaken e) } : State).endAllParked
          (fun r => r.names rec.unit) .discarded).later [.discardTest rec.unit] := by
  have hrec : ({ s.unit rec.unit with discarding := true, fillQueue := [], surveyQueue := [], discard := some e } : UnitRec)
      = (s.unit rec.unit).discardTaken e := by
    rw [UnitRec.discardTaken, ← hn]
  rw [discardUnit_eq hx hd, refuseDetach_none hn, updUnit_def, hrec]
  rfl

/-- R181: a discard taken with a detach waiting. -/
theorem State.discardUnit_waited {rec : Record} {d : Detach} (hx : (s.unit rec.unit).state ≠ .detached)
    (hd : (s.unit rec.unit).discarding = false) (hn : (s.unit rec.unit).detach = some d) (hq : s.Completes d.entry q) : s.discardUnit e rec
      = (({ s.completed d.entry q { status := .unitBusy } with
          units := SMap.set {} s.units rec.unit ((s.unit rec.unit).discardTaken e) } : State).endAllParked
          (fun r => r.names rec.unit) .discarded).later [.discardTest rec.unit] := by
  let p : State := { s with units := SMap.set {} s.units rec.unit { s.unit rec.unit with detach := none } }
  have hp : p.Completes d.entry q := hq.after rfl rfl rfl
  have hrefuse : s.refuseDetach rec.unit = p.completed d.entry q { status := .unitBusy } := by
    rw [refuseDetach, hn]
    exact hp.complete_eq _
  have hpu : (p.completed d.entry q { status := .unitBusy }).unit rec.unit = { s.unit rec.unit with detach := none } :=
    (unit_of_units (t := p) rfl rec.unit).trans (if_pos rfl)
  rw [discardUnit_eq hx hd, hrefuse, updUnit_def, hpu, setUnit_eq]
  simp only [completed, p, SMap.set_set]
  rfl

end Sys2Proof.Machine

namespace Sys2Proof.Proofs

open Sys2Proof Sys2Proof.Machine

/-- Settles O33: the flag and the queues, the detach that waits, and the ends of the PARKED requests, whole and by their entries. -/
theorem unitDiscardSetsItsFlag : Obligations.UnitDiscardSetsItsFlag := by
  refine ⟨?_, ?_⟩
  · intro s e tag unit record u x active taken h hv
    let p := s.placed 0 e active
    have hroute := State.placed_route_discardUnit (s := s) (c := 0) (e := e) record
    have hpr (i : Nat) : p.request i = if i = e then some active else s.request i := s.placed_request active i
    have hstep {t : State} (hdiscard : p.discardUnit e record = t.setAgenda [.discardTest u]) (hop : (t.unit u).op ≠ none) (ha : t.agenda = []) :
        exec (.unitDiscard tag unit) s = .next t :=
      h.step_idle rfl hv rfl (hroute.trans hdiscard) (State.discardTest_busy hop) ha
    have hlater {w : State} (ha : w.agenda = []) : w.later [.discardTest u] = w.setAgenda [.discardTest u] := by
      rw [State.later_eq, ha]
      rfl
    have htaken : ∀ t : State, (SMap.get {} (SMap.set {} s.units u (x.discardTaken e)) u).op ≠ none ↔ x.op ≠ none := fun _ => by
      rw [SMap.get_set, if_pos rfl]
      rfl
    have hset : s.agenda = [] := h.settled
    refine ⟨fun hx => ?_, fun hx hd hop hparked => ⟨fun hn => ?_, fun d q hn hne hq hq0 => ?_⟩, fun hx hd hop hn hwf he hleaves hbarriers => ?_⟩
    · exact h.step_answered rfl hv rfl (hroute.trans ((if_pos hx).trans (h.answers_active record _)))
    · let t : State := { p with units := SMap.set {} s.units u (x.discardTaken e) }
      have hrec : x.discardTaken e = taken := by
        show _ = ({ x with discarding := true, fillQueue := [], surveyQueue := [], discard := some e } : UnitRec)
        rw [UnitRec.discardTaken, ← hn]
      have hnone : t.endAllParked (fun r => r.names u) .discarded = t := State.endAllParked_none fun a ha hnames => by
        rcases State.mem_held_placed (s := s) (c := 0) (e := e) (q := active) ha with rfl | ha
        · rfl
        · exact hparked a ha hnames
      rw [← hrec]
      refine hstep (t := t) ?_ ((htaken t).2 hop) hset
      exact (State.discardUnit_unwaited (s := p) (rec := record) hx hd hn).trans ((congrArg (State.later · [.discardTest u]) hnone).trans (hlater hset))
    · let w := p.completed d.entry q { status := .unitBusy }
      let t : State := { w with units := SMap.set {} s.units u (x.discardTaken e) }
      have hpq : p.Completes d.entry q := by
        obtain ⟨hpost, hclear, -⟩ := State.placed_posts (s := s) (c := 0) (e := e) (q := active) (d := q.channel)
        exact ⟨(hpr d.entry).trans ((if_neg hne).trans hq.held), hq.undone, hpost.trans hq.posts, hclear.trans hq.clear, h.settled⟩
      have hnone : t.endAllParked (fun r => r.names u) .discarded = t := State.endAllParked_none fun a ha hnames => by
        rcases State.mem_held_of_set (s := p) (t := t) rfl ha with rfl | ha
        · rfl
        · rcases State.mem_held_placed (s := s) (c := 0) (e := e) (q := active) ha with rfl | ha
          · rfl
          · exact hparked a ha hnames
      have hch : p.channel q.channel = (s.channel 0).taken := by rw [hq0]; exact h.placed_channel_self
      have hall := hstep (t := t) ((State.discardUnit_waited (s := p) (rec := record) hx hd hn hpq).trans
        ((congrArg (State.later · [.discardTest u]) hnone).trans (hlater hset))) ((htaken t).2 hop) hset
      have hw : w = { p with
          table := SMap.set none p.table d.entry (some (q.ended { status := .unitBusy }))
          channels := SMap.set {} s.channels 0 { (s.channel 0).taken with postQueue := (s.channel 0).postQueue ++ [d.entry] } } := by
        show p.completed d.entry q _ = _
        rw [State.completed, hch, hq0]
        simp only [p, State.placed, SMap.set_set]
        rfl
      rw [hall]
      show Host.Outcome.next { w with units := SMap.set {} s.units u (x.discardTaken e) } = _
      rw [hw]
      rfl
    · let v : State := { p with units := SMap.set {} s.units u (x.discardTaken e) }
      let l := v.parkedWhere (fun r => r.names u)
      have hvr (i : Nat) : v.request i = if i = e then some active else s.request i := hpr i
      have hvu : v.unit u = x.discardTaken e := (State.unit_of_units (t := v) rfl u).trans (if_pos rfl)
      have hold {i : Nat} {q : Request} (hi : s.request i = some q) : i ≠ e := fun h => by rw [h, he] at hi; cases hi
      have hkept {i : Nat} {q : Request} (hi : s.request i = some q) : v.request i = some q := (hvr i).trans ((if_neg (hold hi)).trans hi)
      obtain ⟨hnodup, hmem, hordered⟩ := State.parkedWhere_spec (s := v) (SMap.wf_set none s.table e (some active) hwf) (fun r => r.names u)
      have hin (i : Nat) : i ∈ l ↔ ∃ q, s.request i = some q ∧ q.names u = true ∧ q.isParked = true := by
        rw [hmem]
        constructor
        · rintro ⟨q, hq, hparked, hnames⟩
          rw [hvr] at hq
          split at hq
          · cases hq
            cases hparked
          · exact ⟨q, hq, hnames, hparked⟩
        · rintro ⟨q, hq, hnames, hparked⟩
          exact ⟨q, hkept hq, hparked, hnames⟩
      have hall (i : Nat) (hi : i ∈ l) : ∃ q, v.Leaves u i q := by
        obtain ⟨q, hq, hnames, hparked⟩ := (hin i).1 hi
        obtain ⟨hcompletes, hplace⟩ := hleaves i q hq hnames hparked
        obtain ⟨hpost, hclear, -⟩ := State.placed_posts (s := s) (c := 0) (e := e) (q := active) (d := q.channel)
        exact ⟨q, hkept hq, Request.unit_of_names hnames, hplace, hpost.trans hcompletes.posts, hclear.trans hcompletes.clear⟩
      obtain ⟨table, channels, setWait, units, hends, hchannels, hwaiters, hunits⟩ :=
        State.endEach_leaves .discarded l v hset (by rw [hvu]; rfl) hnodup hall
      obtain ⟨hkeeps, hended⟩ := State.endEach_ended .discarded l v
      let t : State := { v with table, channels, setWait, units }
      rw [hends] at hkeeps hended
      have hbarrier (i : Nat) (q : Request) (hq : q.names u = true) : v.barrierEpoch i q = s.barrierEpoch i q :=
        State.barrierEpoch_congr (by rw [Request.unit_of_names hq, hvu]; rfl) i
      have htu : t.unit u = { taken with barriers := [] } := by
        have hnil : (x.discardTaken e).barriers.filter
            (fun b => !(l.contains b.entry && (v.request b.entry).any (fun q => q.place == .parked .barrierList))) = [] := by
          refine List.filter_eq_nil_iff.2 fun b hb => ?_
          obtain ⟨q, hq, hnames, hplace⟩ := hbarriers b hb
          have hparked : q.isParked = true := by rw [Request.isParked, hplace]
          rw [List.contains_iff_mem.2 ((hin b.entry).2 ⟨q, hq, hnames, hparked⟩), hkept hq]
          simp [hplace]
        refine (hunits u).trans ((if_pos rfl).trans ?_)
        rw [hvu, hnil, UnitRec.discardTaken, ← hn]
      have hgone (i : Nat) (q : Request) (hq : s.request i = some q) (hnames : q.names u = true) (hparked : q.isParked = true) :
          t.request i = some (q.ended { status := .discarded, epoch := s.barrierEpoch i q }) := by
        obtain ⟨hpost, -⟩ := State.placed_posts (s := s) (c := 0) (e := e) (q := active) (d := q.channel)
        obtain ⟨hcompletes, -⟩ := hleaves i q hq hnames hparked
        have hposted := (hended i q ((hin i).2 ⟨q, hq, hnames, hparked⟩) (hkept hq) hparked).posted (hpost.trans hcompletes.posts)
        rw [hbarrier i q hnames] at hposted
        exact hposted.1
      refine ⟨t, hstep (t := t) ?_ ?_ hset, ?_, htu, fun i q hq => ?_, fun i hi hnone => ?_, fun d => ?_, fun n => ?_, rfl, rfl, rfl, rfl, rfl⟩
      · exact (State.discardUnit_unwaited (s := p) (rec := record) hx hd hn).trans ((congrArg (State.later · [.discardTest u]) hends).trans (hlater hset))
      · rw [htu]
        exact hop
      · refine (hkeeps.request e fun hi => ?_).trans ((hvr e).trans (if_pos rfl))
        obtain ⟨q, hq, -⟩ := (hin e).1 hi
        exact absurd rfl (hold hq)
      · split
        · next hq' => exact hgone i q hq hq'.1 hq'.2
        · next hq' =>
          refine (hkeeps.request i fun hi => ?_).trans (hkept hq)
          obtain ⟨y, hy, hnames, hparked⟩ := (hin i).1 hi
          cases hy.symm.trans hq
          exact absurd ⟨hnames, hparked⟩ hq'
      · refine (hkeeps.request i fun hmem => ?_).trans ((hvr i).trans ((if_neg hi).trans hnone))
        obtain ⟨y, hy, -⟩ := (hin i).1 hmem
        exact absurd (hy.symm.trans hnone) nofun
      · obtain ⟨-, -, hqueue⟩ := State.placed_posts (s := s) (c := 0) (e := e) (q := active) (d := d)
        let m := l.filter (fun i => (v.request i).any (fun q => q.channel == d))
        have hm (i : Nat) : i ∈ m ↔ ∃ q, s.request i = some q ∧ q.channel = d ∧ q.names u = true ∧ q.isParked = true := by
          rw [List.mem_filter, hin]
          constructor
          · rintro ⟨⟨q, hq, hnames, hparked⟩, hch⟩
            rw [hkept hq] at hch
            exact ⟨q, hq, by simpa using hch, hnames, hparked⟩
          · rintro ⟨q, hq, hch, hnames, hparked⟩
            exact ⟨⟨q, hq, hnames, hparked⟩, by rw [hkept hq]; simpa using hch⟩
        refine ⟨m, ?_, hnodup.filter _, hm, ?_⟩
        · rw [show t.channel d = _ from hchannels d]
          exact congrArg (· ++ m) hqueue
        · refine (hordered.filter _).imp_of_mem fun {i j} hi hj hij y z hy hz => ?_
          obtain ⟨y', hy', hyd, -⟩ := (hm i).1 hi
          obtain ⟨z', hz', hzd, -⟩ := (hm j).1 hj
          cases hy'.symm.trans hy
          cases hz'.symm.trans hz
          exact hij y z (hkept hy) (hkept hz) (hyd.trans hzd.symm)
      · have hgeo (key : Key) : v.setOfKey key = s.setOfKey key := by
          refine State.setOfKey_congr (t := v) ?_
          rw [State.unit_of_units (t := v) (m := s.units) (x := x.discardTaken e) rfl key.unit]
          split
          · next hk => rw [hk]; rfl
          · rfl
        refine (hwaiters n).trans (List.filter_congr fun i _ => congrArg (!·) ?_)
        simp only [hgeo]
        cases hq : s.request i with
        | none =>
          have hnot : l.contains i = false := Bool.eq_false_iff.2 fun h => by
            obtain ⟨y, hy, -⟩ := (hin i).1 (List.contains_iff_mem.1 h)
            exact absurd (hq.symm.trans hy) nofun
          rw [hnot]
          rfl
        | some q =>
          have hcontains : l.contains i = (q.names u && q.isParked) := Bool.eq_iff_iff.2 (by
            rw [List.contains_iff_mem, hin, Bool.and_eq_true]
            exact ⟨fun ⟨y, hy, h⟩ => by cases hy.symm.trans hq; exact h, fun h => ⟨q, hq, h⟩⟩)
          rw [hkept hq, hcontains]
          show (q.names u && q.isParked && (q.place == .parked .setWait && _)) = (q.names u && q.place == .parked .setWait && _)
          by_cases hp : q.place = .parked .setWait
          · rw [Request.isParked, hp, Bool.and_true, Bool.and_assoc]
          · rw [beq_eq_false_iff_ne.2 hp, Bool.false_and, Bool.and_false, Bool.and_false, Bool.false_and]
  · intro s e record u t hx hd hwf hdetach
    obtain ⟨v, l, hends, hvu, hended⟩ := State.discardUnit_ends (e := e) hx hd hdetach
    obtain ⟨surveys, barriers, hunit, hsurveys, -⟩ := hends.unit u
    rw [hvu] at hunit hsurveys
    have htu : t.unit u = _ := hunit
    rw [htu]
    refine ⟨rfl, rfl, rfl, List.eq_nil_iff_forall_not_mem.2 fun i hi => List.not_mem_nil (hsurveys i hi), rfl, fun i q hi hn hp herr => ?_⟩
    obtain ⟨hpost, hepoch, hin⟩ := hended i q hi hn hp
    obtain ⟨hrequest, hqueue⟩ := hin.posted (hpost.trans herr)
    rw [hepoch] at hrequest
    obtain ⟨hslot, hepisodeWait, hline, hepisode, hwriter, -⟩ := hin.departed
    exact ⟨hrequest, hqueue, hslot, hepisodeWait, hline, hepisode, hwriter⟩

end Sys2Proof.Proofs
end

section
/-! PROOF. Requests that wait for a way or a slot go on (R17, R19, R20, R22). -/

namespace Sys2Proof.Machine

variable {s t u : State} {a c e k n slot : Nat} {q r : Request} {key : Key} {rest : List Nat}

/-! ### The requests of a key move to its new line (R20) -/

/-- A request that has moved from its set's wait list to the new line of its key. -/
def Request.moved (y : Request) (k : Nat) (filling : Bool) : Request :=
  { y with place := .parked .lineWait, line := some k, miss := y.miss || filling, deadline := none }

/-- R20: one request joins the new line. -/
theorem State.moveOne_frame (s : State) (e k : Nat) : ∃ table, ((s.joinLine e k).updRequest e (fun r => { r with deadline := none })) = { s with
    lines := SMap.set {} s.lines k { s.line k with waitList := (s.line k).waitList ++ [e] }, table }
    ∧ ∀ i, SMap.get none table i = if i = e then (s.request e).map (·.moved k ((s.line k).state == .filling)) else s.request i := by
  refine ⟨((s.joinLine e k).updRequest e (fun r => { r with deadline := none })).table, rfl, fun i => ?_⟩
  show ((s.joinLine e k).updRequest e (fun r => { r with deadline := none })).request i = _
  rw [updRequest_request, joinLine, updRequest_request, updRequest_request, if_pos rfl, Option.map_map]
  by_cases hi : i = e
  · rw [if_pos hi, if_pos hi]
    rfl
  · rw [if_neg hi, if_neg hi, if_neg hi]
    rfl

theorem State.moveEach_frame (k : Nat) (l : List Nat) (s : State) (hl : l.Nodup) : ∃ lines table,
    l.foldl (fun t e => (t.joinLine e k).updRequest e (fun r => { r with deadline := none })) s = { s with lines, table }
    ∧ (∀ j, SMap.get {} lines j = if j = k then { s.line k with waitList := (s.line k).waitList ++ l } else s.line j)
    ∧ ∀ i, SMap.get none table i = if i ∈ l then (s.request i).map (·.moved k ((s.line k).state == .filling)) else s.request i := by
  induction l generalizing s with
  | nil =>
    refine ⟨s.lines, s.table, rfl, fun j => ?_, fun i => rfl⟩
    rw [List.append_nil]
    split
    · next h => rw [h]; rfl
    · rfl
  | cons e l ih =>
    obtain ⟨he, hl⟩ := List.nodup_cons.1 hl
    obtain ⟨table, hfirst, htable⟩ := s.moveOne_frame e k
    let x : Line := { s.line k with waitList := (s.line k).waitList ++ [e] }
    let v : State := { s with lines := SMap.set {} s.lines k x, table }
    have hvl := line_of_lines (t := v) (m := s.lines) (k := k) (x := x) rfl
    obtain ⟨lines, table', hrest, hlines, htable'⟩ := ih v hl
    refine ⟨lines, table', ?_, fun j => ?_, fun i => ?_⟩
    · rw [List.foldl_cons, hfirst]
      exact hrest
    · rw [hlines, hvl k, if_pos rfl, hvl j]
      by_cases hj : j = k
      · rw [if_pos hj, if_pos hj]
        simp only [x, List.append_assoc, List.singleton_append]
      · rw [if_neg hj, if_neg hj, if_neg hj]
        rfl
    · rw [htable', hvl k, if_pos rfl, show v.request i = _ from htable i]
      by_cases hi : i = e
      · subst hi
        rw [if_neg he, if_pos rfl, if_pos List.mem_cons_self]
      · rw [if_neg hi]
        exact if_congr (by simp [hi]) rfl rfl

theorem State.moveSameKey_frame (s : State) (set k : Nat) (key : Key) (hl : (s.waiters set).Nodup) : ∃ lines table,
    s.moveSameKey set k key = { s with
      lines, table, setWait := SMap.set [] s.setWait set ((s.waiters set).filter (fun e => !(s.request e).any (fun r => r.key == key))) }
    ∧ (∀ j, SMap.get {} lines j = if j = k then { s.line k with
        waitList := (s.line k).waitList ++ (s.waiters set).filter (fun e => (s.request e).any (fun r => r.key == key)) } else s.line j)
    ∧ ∀ i, SMap.get none table i = if i ∈ s.waiters set ∧ (s.request i).any (fun r => r.key == key) = true
        then (s.request i).map (·.moved k ((s.line k).state == .filling)) else s.request i := by
  obtain ⟨lines, table, heq, hlines, htable⟩ := moveEach_frame k ((s.waiters set).filter (fun e => (s.request e).any (fun r => r.key == key)))
    (s.setWaiters set ((s.waiters set).filter (fun e => !(s.request e).any (fun r => r.key == key)))) (hl.filter _)
  refine ⟨lines, table, heq, hlines, fun i => (htable i).trans ?_⟩
  exact if_congr List.mem_filter rfl rfl

/-! ### A way and a slot claimed while other requests of the set wait (R17, R20) -/

/-- The line that a claim makes, before the requests of its key join it. -/
def Request.newLine (q : Request) (a slot : Nat) : Line :=
  if q.kind = some .read then { state := .filling, key := some q.key, currentSlot := some slot, waitList := [a] }
  else { state := .loading, key := some q.key, currentSlot := some slot, writer := some a }

/-- The request that has claimed a way and a slot. -/
def Request.claimed (q : Request) (k slot : Nat) : Request :=
  if q.kind = some .read then { q with place := .parked .lineWait, line := some k, miss := true, deadline := none }
  else { q with place := .active, line := some k, miss := true, deadline := none, staging := some slot }

/-- What a claim of line `k` and slot `slot` for the request `q` of entry `a` leaves, the requests `rest` waiting for the set. -/
def State.Claims (s t : State) (a k slot : Nat) (q : Request) (rest : List Nat) : Prop :=
  ∃ lines table units d b w, t = { s with
    lines, table, units, dirtyCount := d, pressure := b, agenda := s.agenda ++ w
    refs := SMap.set 0 s.refs slot (if q.kind = some .read then 1 else 2)
    recency := SMap.set [0, 1, 2, 3] s.recency (k / 4) (k % 4 :: (s.order (k / 4)).filter (· != k % 4))
    setWait := SMap.set [] s.setWait (k / 4) (rest.filter (fun j => !(s.request j).any (fun y => y.key == q.key)))
    outbox := if q.kind = some .read then s.outbox else .hostRead q.record.buffer.toNat 1024 :: s.outbox }
  ∧ (∀ j, SMap.get {} lines j = if j = k then { q.newLine a slot with
      waitList := (q.newLine a slot).waitList ++ rest.filter (fun j => (s.request j).any (fun y => y.key == q.key)) } else s.line j)
  ∧ (∀ i, SMap.get none table i = if i = a then some (q.claimed k slot)
      else if i ∈ rest ∧ (s.request i).any (fun y => y.key == q.key) = true
        then (s.request i).map (·.moved k (q.kind == some .read)) else s.request i)
  ∧ (w = [] ∨ w = [.select q.key.unit])
  ∧ ∀ v, SMap.get {} units v = if v = q.key.unit ∧ q.kind = some .read
      then { s.unit v with fillQueue := (s.unit v).fillQueue ++ [k] } else s.unit v

/-- R5, R6, R17, R20: a claim. -/
theorem State.claim_claims (hr : s.request a = some q) (hl : s.line k = {}) (hw : s.waiters (k / 4) = rest) (ha : a ∉ rest) (hn : rest.Nodup) :
    s.Claims (s.claim a k slot q) a k slot q rest := by
  have hold : (s.line k).state = .free := by rw [hl]
  have hmoves (v : State) (hvw : v.setWait = s.setWait) (hvr : ∀ i, i ≠ a → v.request i = s.request i) : ∃ lines table,
      v.moveSameKey (k / 4) k q.key = { v with
        lines, table, setWait := SMap.set [] s.setWait (k / 4) (rest.filter (fun e => !(s.request e).any (fun r => r.key == q.key))) }
      ∧ (∀ j, SMap.get {} lines j = if j = k then { v.line k with
          waitList := (v.line k).waitList ++ rest.filter (fun e => (s.request e).any (fun r => r.key == q.key)) } else v.line j)
      ∧ ∀ i, SMap.get none table i = if i ∈ rest ∧ (s.request i).any (fun r => r.key == q.key) = true
          then (s.request i).map (·.moved k ((v.line k).state == .filling)) else v.request i := by
    have hwait : v.waiters (k / 4) = rest := by rw [← hw, waiters, hvw]; rfl
    have hreq (i : Nat) (hi : i ∈ rest) : v.request i = s.request i := hvr i fun h => ha (h ▸ hi)
    obtain ⟨lines, table, heq, hlines, htable⟩ := v.moveSameKey_frame (k / 4) k q.key (by rw [hwait]; exact hn)
    rw [hwait, hvw] at heq
    rw [hwait] at hlines htable
    have hpos : rest.filter (fun e => (v.request e).any (fun r => r.key == q.key)) = rest.filter (fun e => (s.request e).any (fun r => r.key == q.key)) :=
      List.filter_congr fun i hi => by rw [hreq i hi]
    have hneg : rest.filter (fun e => !(v.request e).any (fun r => r.key == q.key)) = rest.filter (fun e => !(s.request e).any (fun r => r.key == q.key)) :=
      List.filter_congr fun i hi => by rw [hreq i hi]
    rw [hneg] at heq
    rw [hpos] at hlines
    refine ⟨lines, table, heq, hlines, fun i => (htable i).trans ?_⟩
    by_cases hi : i ∈ rest
    · rw [hreq i hi]
    · rw [if_neg fun h => hi h.1, if_neg fun h => hi h.1]
  by_cases hk : q.kind = some .read
  · let x : Line := { state := .filling, key := some q.key, currentSlot := some slot, waitList := [a] }
    let y : UnitRec := { s.unit q.key.unit with fillQueue := (s.unit q.key.unit).fillQueue ++ [k] }
    let v : State := { s with
      lines := SMap.set {} s.lines k x
      refs := SMap.set 0 s.refs slot 1
      table := SMap.set none s.table a (some { q with place := .parked .lineWait, line := some k, miss := true, deadline := none })
      recency := SMap.set [0, 1, 2, 3] s.recency (k / 4) (k % 4 :: (s.order (k / 4)).filter (· != k % 4))
      units := SMap.set {} s.units q.key.unit y
      agenda := s.agenda ++ [Work.select q.key.unit] }
    have hput : s.putLine k x = s.setLine k x := by
      rw [putLine_plain (new := x) (by rw [hold]; decide) ⟨nofun, nofun⟩ (.inr (.inl (by rw [hold]; rfl))), countDirty, hold]
      rfl
    have hvk : v.line k = x := (line_of_lines (t := v) rfl k).trans (if_pos rfl)
    have hvr := request_of_table (t := v) (m := s.table) (e := a)
      (x := some { q with place := .parked .lineWait, line := some k, miss := true, deadline := none }) rfl
    obtain ⟨lines, table, heq, hlines, htable⟩ := hmoves v rfl fun i hi => (hvr i).trans (if_neg hi)
    rw [hvk] at hlines htable
    have hall : s.claim a k slot q = v.moveSameKey (k / 4) k q.key := by
      rw [claim_read hk]
      unfold claimFill
      dsimp only
      rw [hput]
      simp only [v, x, y, setLine_eq, setRef_eq, setRequest_eq, touch_eq, updUnit, setUnit_eq, later_eq, State.unit, State.order]
      rfl
    refine ⟨lines, table, v.units, s.dirtyCount, s.pressure, [.select q.key.unit], ?_, fun j => ?_, fun i => ?_, .inr rfl, fun w => ?_⟩
    · rw [hall, heq, if_pos hk, if_pos hk]
    · rw [hlines, Request.newLine, if_pos hk]
      by_cases hj : j = k
      · rw [if_pos hj, if_pos hj]
      · rw [if_neg hj, if_neg hj]
        exact (line_of_lines (t := v) (x := x) rfl j).trans (if_neg hj)
    · rw [htable, Request.claimed, if_pos hk, hvr i, hk]
      by_cases hi : i = a
      · subst hi
        rw [if_neg fun h => ha h.1, if_pos rfl, if_pos rfl]
      · rw [if_neg hi, if_neg hi]
        rfl
    · refine (unit_of_units (t := v) (m := s.units) (x := y) rfl w).trans ?_
      by_cases hw : w = q.key.unit
      · subst hw
        rw [if_pos rfl, if_pos ⟨rfl, hk⟩]
      · rw [if_neg hw, if_neg fun h => hw h.1]
        rfl
  · let x : Line := { state := .loading, key := some q.key, currentSlot := some slot, writer := some a }
    obtain ⟨b, hb⟩ := ((s.setLine k x).setDirtyCount (s.dirtyCount + 1)).comparePressure_frame
    let o : Request := { q with place := .active, line := some k, miss := true, deadline := none, staging := some slot }
    let v : State := { s with
      lines := SMap.set {} s.lines k x
      refs := SMap.set 0 s.refs slot 2
      table := SMap.set none s.table a (some o)
      recency := SMap.set [0, 1, 2, 3] s.recency (k / 4) (k % 4 :: (s.order (k / 4)).filter (· != k % 4))
      dirtyCount := s.dirtyCount + 1
      pressure := b
      outbox := .hostRead q.record.buffer.toNat 1024 :: s.outbox }
    have hput : s.putLine k x = ((s.setLine k x).setDirtyCount (s.dirtyCount + 1)).setPressure b := by
      rw [putLine_plain (new := x) (by rw [hold]; decide) ⟨nofun, nofun⟩ (.inr (.inl (by rw [hold]; rfl))), countDirty, hold]
      exact hb
    have hvk : v.line k = x := (line_of_lines (t := v) rfl k).trans (if_pos rfl)
    have hvr := request_of_table (t := v) (m := s.table) (e := a) (x := some o) rfl
    obtain ⟨lines, table, heq, hlines, htable⟩ := hmoves v rfl fun i hi => (hvr i).trans (if_neg hi)
    rw [hvk] at hlines htable
    let started : Request := { q with line := some k, miss := true, deadline := none }
    have hall : s.claim a k slot q = v.moveSameKey (k / 4) k q.key := by
      rw [claim, if_neg hk]
      unfold claimLoad
      dsimp only
      rw [hput, startWriteTransfer_eq (r := started) (by simp [started])]
      simp only [v, x, o, started, setLine_eq, setRef_eq, setDirtyCount_eq, setPressure_eq, setRequest_eq, touch_eq, State.order, SMap.set_set]
      rfl
    have hread : (q.kind == some .read) = false := beq_eq_false_iff_ne.2 hk
    refine ⟨lines, table, s.units, s.dirtyCount + 1, b, [], ?_, fun j => ?_, fun i => ?_, .inl rfl, fun w => (if_neg fun h => hk h.2).symm⟩
    · rw [hall, heq, if_neg hk, if_neg hk, List.append_nil]
    · rw [hlines, Request.newLine, if_neg hk]
      by_cases hj : j = k
      · rw [if_pos hj, if_pos hj]
      · rw [if_neg hj, if_neg hj]
        exact (line_of_lines (t := v) (x := x) rfl j).trans (if_neg hj)
    · rw [htable, Request.claimed, if_neg hk, hvr i, hread]
      by_cases hi : i = a
      · subst hi
        rw [if_neg fun h => ha h.1, if_pos rfl, if_pos rfl]
      · rw [if_neg hi, if_neg hi]
        rfl

/-! ### The head of a set's wait list takes a line that has become evictable (R19) -/

theorem State.leastRecent_eq_none {set : Nat} {p : Nat → Bool} : t.leastRecent set p = none ↔ ∀ w ∈ t.order set, p (lineAt set w) = false := by
  simp [leastRecent]

/-- The one way of a set that satisfies a condition is the least recent one that does. -/
theorem State.leastRecent_only {set : Nat} {p : Nat → Bool} (hk : k % 4 ∈ t.order (k / 4)) (hset : k / 4 = set) (hp : p k = true)
    (hothers : ∀ w ∈ t.order set, lineAt set w ≠ k → p (lineAt set w) = false) : t.leastRecent set p = some k := by
  subst hset
  have hat : lineAt (k / 4) (k % 4) = k := Nat.div_add_mod k 4
  cases hfind : t.leastRecent (k / 4) p with
  | none =>
    rw [leastRecent_eq_none] at hfind
    have := hfind _ hk
    rw [hat, hp] at this
    cases this
  | some j =>
    obtain ⟨w, hw, rfl⟩ : ∃ w ∈ t.order (k / 4), lineAt (k / 4) w = j := by
      have hmem := List.mem_of_find?_eq_some hfind
      simpa using hmem
    by_contra hne
    have hj := hothers w hw fun h => hne (by rw [h])
    rw [leastRecent_spec hfind] at hj
    cases hj

/-- R16: the conditions of an evictable line. -/
theorem State.evictable_of (hclean : (t.line k).state = .clean) (hholders : (t.line k).holders = []) (hlist : (t.line k).waitList = [])
    (hep : (t.line k).episode = none) (hw : (t.line k).writer = none) (hslot : (t.line k).currentSlot = some slot) (href : t.refCount slot = 1) :
    t.evictable k = true := by
  simp [evictable, hclean, hholders, hlist, hep, hw, hslot, href]

/-- R17, R19: the only evictable line of a set without a FREE way goes to the head of the set's wait list. -/
theorem State.evictCheck_claims (hev : t.evictable k = true) (hk : k % 4 ∈ t.order (k / 4)) (hslot : (t.line k).currentSlot = some slot)
    (hfree : ∀ w ∈ t.order (k / 4), (t.line (lineAt (k / 4) w)).state ≠ .free)
    (hothers : ∀ w ∈ t.order (k / 4), lineAt (k / 4) w ≠ k → t.evictable (lineAt (k / 4) w) = false)
    (hw : t.waiters (k / 4) = a :: rest) (hr : t.request a = some q) (hset : t.setOfKey q.key = k / 4) (hneeds : t.needsUnit q = false)
    (hn : (a :: rest).Nodup) (ha : t.agenda = []) :
    (((t.setWaiters (k / 4) rest).setLine k {}).setAgenda [.reattempt (k / 4)]).Claims (t.evictCheck k) a k slot q rest := by
  have hleast : t.leastRecent (k / 4) t.evictable = some k := leastRecent_only hk rfl hev hothers
  let v := (t.setWaiters (k / 4) rest).soon [.reattempt (k / 4)]
  have hv : v.setLine k {} = ((t.setWaiters (k / 4) rest).setLine k {}).setAgenda [.reattempt (k / 4)] := by
    simp only [v, soon_eq]
    show ({ t with setWait := _, lines := _, agenda := _ ++ t.agenda } : State) = _
    rw [ha]
    rfl
  have hevict : t.evictCheck k = (v.setLine k {}).claim a k slot q := by
    have hfreeNone : v.leastRecent (v.setOfKey q.key) (fun j => (v.line j).state == .free) = none := by
      rw [show v.setOfKey q.key = k / 4 from hset]
      exact leastRecent_eq_none.2 fun w hw => beq_eq_false_iff_ne.2 (hfree w hw)
    have hleastv : v.leastRecent (v.setOfKey q.key) v.evictable = some k := by
      rw [show v.setOfKey q.key = k / 4 from hset]
      exact hleast
    rw [evictCheck, if_pos hev, show setOfLine k = k / 4 from rfl, reattempt, hw]
    dsimp only
    rw [hr]
    dsimp only
    rw [if_pos (.inr (.inr (by rw [hleast]; rfl)))]
    exact allocate_evict (t := v) hneeds (.inl hfreeNone) hleastv hslot
  obtain ⟨hnot, hnodup⟩ := List.nodup_cons.1 hn
  rw [hevict, hv]
  refine claim_claims hr ?_ ?_ hnot hnodup
  · show SMap.get {} (SMap.set {} t.lines k {}) k = {}
    rw [SMap.get_set, if_pos rfl]
  · show SMap.get [] (SMap.set [] t.setWait (k / 4) rest) (k / 4) = rest
    rw [SMap.get_set, if_pos rfl]

/-- R19: a set whose first waiter still finds neither a FREE nor an evictable way. -/
theorem State.reattempt_blocked {set : Nat} (hr : ∀ b ∈ t.waiters set, ∃ y, t.request b = some y ∧ t.needsUnit y = false)
    (hfree : t.leastRecent set (fun j => (t.line j).state == .free) = none) (hev : t.leastRecent set t.evictable = none) :
    t.reattempt set = t := by
  unfold reattempt
  cases hw : t.waiters set with
  | nil => rfl
  | cons b l =>
    obtain ⟨y, hy, hneeds⟩ := hr b (by rw [hw]; exact List.mem_cons_self)
    dsimp only
    rw [hy]
    dsimp only
    rw [if_neg (by rw [hneeds, hfree, hev]; simp)]

/-- After a claim the set has no FREE way and no evictable one, if no other way was either. -/
theorem State.Claims.blocked (h : s.Claims t a k slot q rest) (href : s.refCount slot = 1)
    (hfree : ∀ w ∈ s.order (k / 4), lineAt (k / 4) w ≠ k → (s.line (lineAt (k / 4) w)).state ≠ .free)
    (hothers : ∀ w ∈ s.order (k / 4), lineAt (k / 4) w ≠ k → s.evictable (lineAt (k / 4) w) = false) :
    t.leastRecent (k / 4) (fun j => (t.line j).state == .free) = none ∧ t.leastRecent (k / 4) t.evictable = none := by
  obtain ⟨lines, table, units, d, b, w, rfl, hlines, -⟩ := h
  let t : State := { s with
    lines, table, units, dirtyCount := d, pressure := b, agenda := s.agenda ++ w
    refs := SMap.set 0 s.refs slot (if q.kind = some .read then 1 else 2)
    recency := SMap.set [0, 1, 2, 3] s.recency (k / 4) (k % 4 :: (s.order (k / 4)).filter (· != k % 4))
    setWait := SMap.set [] s.setWait (k / 4) (rest.filter (fun j => !(s.request j).any (fun y => y.key == q.key)))
    outbox := if q.kind = some .read then s.outbox else .hostRead q.record.buffer.toNat 1024 :: s.outbox }
  have hline (j : Nat) : t.line j = _ := hlines j
  have horder : t.order (k / 4) = k % 4 :: (s.order (k / 4)).filter (· != k % 4) := (SMap.get_set ..).trans (if_pos rfl)
  have hnew : (t.line k).state = .filling ∨ (t.line k).state = .loading := by
    rw [hline, if_pos rfl, Request.newLine]
    by_cases hk : q.kind = some .read
    · rw [if_pos hk]; exact .inl rfl
    · rw [if_neg hk]; exact .inr rfl
  have hway (v : Nat) (hv : v ∈ t.order (k / 4)) : lineAt (k / 4) v = k ∨ v ∈ s.order (k / 4) ∧ lineAt (k / 4) v ≠ k := by
    by_cases hvk : lineAt (k / 4) v = k
    · exact .inl hvk
    · rw [horder] at hv
      rcases List.mem_cons.1 hv with rfl | hv
      · exact absurd (Nat.div_add_mod k 4) hvk
      · exact .inr ⟨List.mem_of_mem_filter hv, hvk⟩
  have hcount (j : Nat) : t.refCount j = if j = slot then if q.kind = some .read then 1 else 2 else s.refCount j :=
    refCount_of_refs (t := t) rfl j
  refine ⟨leastRecent_eq_none.2 fun v hv => ?_, leastRecent_eq_none.2 fun v hv => ?_⟩
  · rcases hway v hv with hvk | ⟨hmem, hne⟩
    · rw [hvk]
      exact beq_eq_false_iff_ne.2 (by rcases hnew with h | h <;> rw [show State.line _ k = t.line k from rfl, h] <;> decide)
    · refine beq_eq_false_iff_ne.2 ?_
      show (t.line (lineAt (k / 4) v)).state ≠ .free
      rw [hline, if_neg hne]
      exact hfree v hmem hne
  · refine Bool.eq_false_iff.2 fun hev => ?_
    rw [evictable_eq] at hev
    simp only [Bool.and_eq_true, beq_iff_eq] at hev
    obtain ⟨⟨⟨⟨⟨hclean, hholders⟩, hlist⟩, hep⟩, hw⟩, hslot⟩ := hev
    rcases hway v hv with hvk | ⟨hmem, hne⟩
    · rw [hvk] at hclean
      rcases hnew with h | h <;> rw [show State.line _ k = t.line k from rfl, h] at hclean <;> cases hclean
    · refine absurd ?_ (ne_true_of_eq_false (hothers v hmem hne))
      have hsame : t.line (lineAt (k / 4) v) = s.line (lineAt (k / 4) v) := (hline _).trans (if_neg hne)
      rw [show State.line _ (lineAt (k / 4) v) = s.line (lineAt (k / 4) v) from hsame] at hclean hholders hlist hep hw hslot
      obtain ⟨j, hj, hone⟩ : ∃ j, (s.line (lineAt (k / 4) v)).currentSlot = some j ∧ t.refCount j = 1 := by
        simpa [Option.any_eq_true] using hslot
      refine evictable_of hclean (List.isEmpty_iff.1 hholders) (List.isEmpty_iff.1 hlist) (Option.isNone_iff_eq_none.1 hep)
        (Option.isNone_iff_eq_none.1 hw) hj ?_
      rw [hcount] at hone
      split at hone
      · next hjs => rw [hjs]; exact href
      · exact hone

theorem State.evictable_congr (hl : t.line k = s.line k) (hr : t.refs = s.refs) : t.evictable k = s.evictable k := by
  have hcount (j : Nat) : t.refCount j = s.refCount j := by rw [refCount, hr]; rfl
  unfold evictable
  dsimp only
  rw [hl]
  split <;> simp [hcount]

/-- Line `k`, whose current slot is `slot`, is evictable, and no other way of its set is FREE or evictable. -/
structure State.Sole (t : State) (k slot : Nat) : Prop where
  evictable : t.evictable k = true
  ordered : k % 4 ∈ t.order (k / 4)
  current : (t.line k).currentSlot = some slot
  count : t.refCount slot = 1
  others : ∀ w ∈ t.order (k / 4), lineAt (k / 4) w ≠ k → (t.line (lineAt (k / 4) w)).state ≠ .free ∧ t.evictable (lineAt (k / 4) w) = false

theorem State.Sole.taken (h : t.Sole k slot) (w : Nat) (hw : w ∈ t.order (k / 4)) : (t.line (lineAt (k / 4) w)).state ≠ .free := by
  by_cases hk : lineAt (k / 4) w = k
  · have hev := h.evictable
    rw [evictable_eq] at hev
    simp only [Bool.and_eq_true, beq_iff_eq] at hev
    obtain ⟨⟨⟨⟨⟨hclean, -⟩, -⟩, -⟩, -⟩, -⟩ := hev
    rw [hk, hclean]
    decide
  · exact (h.others w hw hk).1

/-- R19: the step goes on with the head of the wait list, and ends there: the next waiter finds no way. -/
theorem State.Sole.finish (h : t.Sole k slot) (hw : t.waiters (k / 4) = a :: rest) (hr : t.request a = some q) (hset : t.setOfKey q.key = k / 4)
    (hop : (t.unit q.key.unit).op.isSome) (hn : (a :: rest).Nodup) (ha : t.agenda = [])
    (hready : ∀ j ∈ a :: rest, ∃ y, t.request j = some y ∧ t.needsUnit y = false) : ∃ v,
    (((t.setWaiters (k / 4) rest).setLine k {}).setAgenda [.reattempt (k / 4)]).Claims v a k slot q rest
    ∧ (t.setAgenda [.evictCheck k]).finish = v.setAgenda [] := by
  have hneeds : t.needsUnit q = false := by
    obtain ⟨y, hy, hneeds⟩ := hready a List.mem_cons_self
    cases hr.symm.trans hy
    exact hneeds
  have hclaims := evictCheck_claims h.evictable h.ordered h.current h.taken (fun w hw hk => (h.others w hw hk).2) hw hr hset hneeds hn ha
  let u := ((t.setWaiters (k / 4) rest).setLine k {}).setAgenda [.reattempt (k / 4)]
  have huline (j : Nat) (hj : j ≠ k) : u.line j = t.line j := (line_of_lines (t := u) (x := {}) rfl j).trans (if_neg hj)
  obtain ⟨hfreeNone, hevNone⟩ := State.Claims.blocked hclaims h.count
    (fun w hw hk => by rw [huline _ hk]; exact (h.others w hw hk).1)
    (fun w hw hk => by rw [evictable_congr (s := t) (huline _ hk) rfl]; exact (h.others w hw hk).2)
  refine ⟨t.evictCheck k, hclaims, ?_⟩
  obtain ⟨lines, table, units, d, b, w, heq, -, htable, hwork, hunits⟩ := hclaims
  obtain ⟨v, hv⟩ : ∃ v, t.evictCheck k = v := ⟨_, rfl⟩
  rw [hv] at heq hfreeNone hevNone ⊢
  have hagenda : v.agenda = .reattempt (k / 4) :: w := by rw [heq]; rfl
  have hrequest (j : Nat) : v.request j = _ := (congrArg (fun v : State => v.request j) heq).trans (htable j)
  have hunit (n : Nat) : v.unit n = _ := (congrArg (fun v : State => v.unit n) heq).trans (hunits n)
  have hstate (n : Nat) : (v.unit n).state = (t.unit n).state ∧ (v.unit n).op = (t.unit n).op := by
    rw [hunit]
    split <;> exact ⟨rfl, rfl⟩
  have hwaiters : v.waiters (k / 4) = rest.filter (fun j => !(t.request j).any (fun y => y.key == q.key)) := by
    rw [heq]
    exact (SMap.get_set ..).trans (if_pos rfl)
  have hblocked (ws : List Work) : (v.setAgenda ws).reattempt (k / 4) = v.setAgenda ws := by
    refine reattempt_blocked (t := v.setAgenda ws) (fun i hi => ?_) hfreeNone hevNone
    have hi' : i ∈ rest.filter (fun j => !(t.request j).any (fun y => y.key == q.key)) := by rw [← hwaiters]; exact hi
    obtain ⟨hmem, hother⟩ := List.mem_filter.1 hi'
    obtain ⟨y, hy, hneedsY⟩ := hready i (List.mem_cons_of_mem a hmem)
    have hia : i ≠ a := fun h => (List.nodup_cons.1 hn).1 (h ▸ hmem)
    refine ⟨y, ?_, ?_⟩
    · show v.request i = some y
      rw [hrequest, if_neg hia, if_neg fun h => ?_]
      · exact hy
      · have hsame : (t.request i).any (fun y => y.key == q.key) = true := h.2
        rw [hsame] at hother
        cases hother
    · unfold needsUnit
      show (_ && (v.unit y.key.unit).state != .ready) = false
      rw [(hstate _).1]
      exact hneedsY
  have hself : v = (v.setAgenda []).setAgenda v.agenda := rfl
  have hrun (m : Nat) (hrest : RunsTo m ((v.setAgenda []).setAgenda w) (v.setAgenda [])) :
      RunsTo (m + 1 + 1) (t.setAgenda [.evictCheck k]) (v.setAgenda []) := by
    refine .cons ?_
    show RunsTo (m + 1) ((t.setAgenda []).evictCheck k) _
    rw [setAgenda_self ha, hv, hself, hagenda]
    exact .idle (hblocked w) hrest
  rcases hwork with rfl | rfl
  · exact (hrun 0 (.done rfl)).finish rfl
  · exact (hrun 1 (.idle (select_of_op (s := v.setAgenda []) (by
      show ((v.unit q.key.unit).op).isSome = true
      rw [(hstate _).2]
      exact hop)) (.done rfl))).finish rfl

end Sys2Proof.Machine
end

section
/-! PROOF. A RELEASE whose line goes to a waiter of its set, and a read transfer whose slot goes to a waiter for a slot (R16, R19, R22, R60). -/

namespace Sys2Proof.Machine

variable {s t : State} {a c e j k slot other : Nat} {q r : Request} {rest : List Nat}

/-! ### A hold dropped while requests of the set wait (R32) -/

/-- R32: the line is offered to the set's waiters once the step's other work is done. -/
theorem State.dropHold_offers (he : (s.line k).episode = none) (hw : (s.line k).writer = none) (hset : s.waiters (k / 4) ≠ []) :
    s.dropHold c k = { s with
      lines := SMap.set {} s.lines k { s.line k with holders := (s.line k).holders.filter (· != c) }
      channels := SMap.set {} s.channels c { s.channel c with holdCount := (s.channel c).holdCount - 1 }
      agenda := s.agenda ++ [Work.evictCheck k] } := by
  let v : State := { s with
    lines := SMap.set {} s.lines k { s.line k with holders := (s.line k).holders.filter (· != c) }
    channels := SMap.set {} s.channels c { s.channel c with holdCount := (s.channel c).holdCount - 1 } }
  have hoffer : v.noteEvictable k = v.later [.evictCheck k] := if_neg fun h => hset (List.isEmpty_iff.1 h)
  have hdrop : s.dropHold c k = v.noteEvictable k := by
    unfold dropHold
    dsimp only
    rw [he, hw]
    rfl
  exact hdrop.trans hoffer

/-- The part after a RELEASE by the line's last holder: the hold is gone and the RELEASE has completed. -/
def State.emptied (s : State) (c e k : Nat) (record : Record) : State := { s.placed c e (s.newRequest c record) with
  lines := SMap.set {} s.lines k { s.line k with holders := [] }
  channels := SMap.set {} s.channels c
    { (s.channel c).taken with holdCount := (s.channel c).holdCount - 1, postQueue := (s.channel c).postQueue ++ [e] }
  table := SMap.set none s.table e (some ((s.newRequest c record).ended { status := .success })) }

theorem State.emptied_request (record : Record) (j : Nat) : (s.emptied c e k record).request j =
    if j = e then some ((s.newRequest c record).ended { status := .success }) else s.request j :=
  request_of_table (t := s.emptied c e k record) rfl j

theorem State.emptied_line (record : Record) (j : Nat) :
    (s.emptied c e k record).line j = if j = k then { s.line k with holders := [] } else s.line j :=
  line_of_lines (t := s.emptied c e k record) rfl j

/-- R32: a RELEASE of the last hold on a line that requests of its set wait for completes, and the line is offered to them. -/
theorem State.Takes.release_last {record : Record} (h : s.Takes c e) (hvalid : record.episodeValid = false)
    (hlook : s.lookup record.key = some k) (hholders : (s.line k).holders = [c]) (hep : (s.line k).episode = none)
    (hwriter : (s.line k).writer = none) (hwait : s.waiters (k / 4) ≠ []) :
    (s.placed c e (s.newRequest c record)).route e (s.newRequest c record) .release
      = (s.emptied c e k record).setAgenda [.evictCheck k] := by
  let p := s.placed c e (s.newRequest c record)
  let z : Channel := { (s.channel c).taken with holdCount := (s.channel c).holdCount - 1 }
  have hkey : p.route e (s.newRequest c record) .release = p.releaseKey e c record.key := by
    show p.takeRelease e c record = _
    exact if_neg (by rw [hvalid]; decide)
  have hheld : (p.line k).holders.contains c = true := by
    show (s.line k).holders.contains c = true
    rw [hholders]
    exact List.contains_iff_mem.2 List.mem_cons_self
  have hleft : (s.line k).holders.filter (· != c) = [] := by rw [hholders]; simp
  let d : State := { p with
    lines := SMap.set {} s.lines k { s.line k with holders := [] }, channels := SMap.set {} p.channels c z, agenda := [.evictCheck k] }
  have hdrop : p.dropHold c k = d := by
    have hoffers := State.dropHold_offers (s := p) (c := c) (k := k) hep hwriter hwait
    rw [h.placed_channel_self, show (p.line k).holders.filter (· != c) = [] from hleft, show p.agenda = [] from h.settled] at hoffers
    exact hoffers
  have hdc : d.channel c = z := (State.channel_of_channels (t := d) rfl c).trans (if_pos rfl)
  rw [hkey, State.releaseKey, show p.lookup record.key = some k from hlook]
  dsimp only
  rw [if_pos hheld, hdrop, State.complete_held (t := d) (r := s.newRequest c record) ((s.placed_request (c := c) _ e).trans (if_pos rfl)) nofun
    (by rw [State.newRequest_channel, hdc]; exact h.posts) (by rw [State.newRequest_channel, hdc]; exact h.clear), State.completed,
    State.newRequest_channel, hdc]
  simp only [d, p, State.placed, SMap.set_set]
  rfl

/-- What a claim leaves of the lines, the entries, the set's wait list, the slot's references and the output. -/
theorem State.Claims.spec (h : s.Claims t a k slot q rest) :
    (∀ j, t.line j = if j = k then { q.newLine a slot with
      waitList := (q.newLine a slot).waitList ++ rest.filter (fun j => (s.request j).any (fun y => y.key == q.key)) } else s.line j)
    ∧ (∀ i, t.request i = if i = a then some (q.claimed k slot)
        else if i ∈ rest ∧ (s.request i).any (fun y => y.key == q.key) = true
          then (s.request i).map (·.moved k (q.kind == some .read)) else s.request i)
    ∧ t.waiters (k / 4) = rest.filter (fun j => !(s.request j).any (fun y => y.key == q.key))
    ∧ t.refCount slot = (if q.kind = some .read then 1 else 2)
    ∧ t.outbox = if q.kind = some .read then s.outbox else .hostRead q.record.buffer.toNat 1024 :: s.outbox := by
  obtain ⟨lines, table, units, d, b, w, rfl, hlines, htable, -, -⟩ := h
  exact ⟨hlines, htable, (SMap.get_set ..).trans (if_pos rfl), (SMap.get_set ..).trans (if_pos rfl), rfl⟩

/-- The same of a claim of a line just freed, over the part that freed it. -/
theorem State.Claims.spec_freed {v : State} {ws : List Work}
    (h : (((t.setWaiters (k / 4) rest).setLine k {}).setAgenda ws).Claims v a k slot q rest) :
    v.line k = { q.newLine a slot with
      waitList := (q.newLine a slot).waitList ++ rest.filter (fun j => (t.request j).any (fun y => y.key == q.key)) }
    ∧ (∀ j, j ≠ k → v.line j = t.line j)
    ∧ (∀ i, v.request i = if i = a then some (q.claimed k slot)
        else if i ∈ rest ∧ (t.request i).any (fun y => y.key == q.key) = true
          then (t.request i).map (·.moved k (q.kind == some .read)) else t.request i)
    ∧ v.waiters (k / 4) = rest.filter (fun j => !(t.request j).any (fun y => y.key == q.key))
    ∧ v.refCount slot = (if q.kind = some .read then 1 else 2)
    ∧ v.outbox = if q.kind = some .read then t.outbox else .hostRead q.record.buffer.toNat 1024 :: t.outbox := by
  obtain ⟨hlines, htable, hwaiters, hcount, hout⟩ := h.spec
  refine ⟨(hlines k).trans (if_pos rfl), fun j hj => ?_, htable, hwaiters, hcount, hout⟩
  exact (hlines j).trans ((if_neg hj).trans ((SMap.get_set ({} : Line) t.lines k j {}).trans (if_neg hj)))

/-! ### A slot given to a waiter (R22) -/

theorem exec_readTransferComplete (hp : s.part ≠ .failed) (h : s.Completes e r) (ha : r.place = .active) (hk : r.kind = some .read)
    (hl : r.line = some k) (hd : r.delivered = some slot) : exec (.readTransferComplete e) s = .next
      ((s.emit (.hostWrite r.record.buffer.toNat (Memory.readBytes s.store (slot * 1024) 1024))).readComplete e r k slot).finish := by
  show execReadTransferComplete e s = _
  rw [execReadTransferComplete, State.readInFlight_eq (fun hf => absurd hf hp) h.held ha hk hl hd]
  dsimp only
  rw [State.deliver_all]
  show Host.Outcome.next ((s.emit _).afterWrites e (fun t => t.readComplete e r k slot)) = _
  rw [State.afterWrites_running (t := s.emit _) hp]
  rfl

/-- R14, R60: the last reference of a slot dropped while a request waits for one. -/
theorem State.readComplete_given (ha : t.agenda = []) (hs : t.slotWait = a :: rest) (href : t.refCount slot = 1)
    (hu : (t.unit r.key.unit).unwaited) (hh : r.record.hold = false) : t.readComplete e r k slot = ({ t with
      slotWait := rest, refs := SMap.set 0 t.refs slot 1 } : State).setAgenda
        [.slotGiven a slot, .complete e { status := .success, flags := r.successFlags }, .evictCheck k] := by
  let ws : List Work := [.complete e { status := .success, flags := r.successFlags }, .evictCheck k]
  have hflags : r.holdFlags .refused r.successFlags = r.successFlags := if_neg (by rw [hh]; decide)
  have hsoon : t.soon ws = t.setAgenda ws := by rw [soon_eq, ha]; rfl
  have hdrop : (t.setAgenda ws).dropRef slot = ({ t with slotWait := rest, refs := SMap.set 0 t.refs slot 1 } : State).setAgenda
      (.slotGiven a slot :: ws) := by
    unfold dropRef
    rw [if_pos (show (t.setAgenda ws).refCount slot ≤ 1 from href.le), show (t.setAgenda ws).slotWait = a :: rest from hs]
    rfl
  unfold readComplete
  dsimp only
  rw [hh, if_neg Bool.false_ne_true, hflags, show t.applyHold r.channel k .refused = t from rfl]
  show ((t.soon ws).dropRef slot).noteTransferEnd e r.key.unit = _
  rw [hsoon, hdrop]
  exact noteTransferEnd_nil (by exact hu.1) (by exact hu.2)

/-- The part with the bytes of a read transfer put out and its slot in the hands of the next waiter. -/
def State.slotPassed (s : State) (r : Request) (slot : Nat) (rest : List Nat) : State := { s with
  slotWait := rest
  refs := SMap.set 0 s.refs slot 1
  outbox := .hostWrite r.record.buffer.toNat (Memory.readBytes s.store (slot * 1024) 1024) :: s.outbox }

/-- R22, R60: a read transfer that passes its slot on: what the slot's new holder does comes first, then the READ completes. -/
theorem State.Completes.passes {v : State} {ws : List Work} (h : s.Completes e r) (hp : s.part ≠ .failed) (ha : r.place = .active)
    (hk : r.kind = some .read) (hl : r.line = some k) (hd : r.delivered = some slot) (hh : r.record.hold = false) (href : s.refCount slot = 1)
    (hu : (s.unit r.key.unit).unwaited) (hs : s.slotWait = a :: rest)
    (hgiven : ((s.slotPassed r slot rest).setAgenda [.complete e { status := .success, flags := r.successFlags }, .evictCheck k]).slotGiven a slot
      = v.setAgenda (.complete e { status := .success, flags := r.successFlags } :: .evictCheck k :: ws))
    (hv : v.Completes e r) (hw : v.waiters (k / 4) = []) (hws : ws = [] ∨ ∃ u, ws = [.select u] ∧ (v.unit u).op.isSome) :
    exec (.readTransferComplete e) s = .next (v.completed e r { status := .success, flags := r.successFlags }) := by
  let x : Completion := { status := .success, flags := r.successFlags }
  have hrun (m : Nat) (hrest : State.RunsTo m ((v.completed e r x).setAgenda ws) (v.completed e r x)) :
      State.RunsTo (m + 1 + 1 + 1) ((s.slotPassed r slot rest).setAgenda [.slotGiven a slot, .complete e x, .evictCheck k]) (v.completed e r x) := by
    refine .cons ?_
    show State.RunsTo (m + 1 + 1) (((s.slotPassed r slot rest).setAgenda [.complete e x, .evictCheck k]).slotGiven a slot) _
    rw [hgiven]
    exact .complete hv (.idle (State.evictCheck_nil (t := (v.completed e r x).setAgenda ws) hw) hrest)
  rw [exec_readTransferComplete hp h ha hk hl hd,
    State.readComplete_given (t := s.emit _) (a := a) (rest := rest) h.settled hs href hu hh]
  refine congrArg Host.Outcome.next ?_
  rcases hws with rfl | ⟨u, rfl, hop⟩
  · exact (hrun 0 (.done hv.settled)).finish rfl
  · exact (hrun 1 (.idle (State.select_of_op hop) (.done hv.settled))).finish rfl

theorem State.slotGiven_writer (hr : t.request a = some q) (hp : q.place = .parked .slotWait) (hl : q.line = some j) :
    t.slotGiven a slot = t.startWriteTransfer a slot := by
  unfold slotGiven
  rw [hr]
  dsimp only
  rw [if_neg (by rw [hp]; decide), if_pos (by rw [hl]; rfl)]

theorem State.slotGiven_allocation (hr : t.request a = some q) (hp : q.place = .parked .slotWait) (hl : q.line = none) :
    t.slotGiven a slot = t.toDirectory a (some slot) := by
  unfold slotGiven
  rw [hr]
  dsimp only
  rw [if_neg (by rw [hp]; decide), if_neg (by rw [hl]; decide)]

/-- R17, R22: an allocation given a slot takes a FREE way with it. -/
theorem State.allocate_given (hu : t.needsUnit q = false)
    (hk : t.leastRecent (t.setOfKey q.key) (fun j => (t.line j).state == .free) = some k) : t.allocate a (some slot) q = t.claim a k slot q := by
  unfold allocate
  dsimp only
  rw [if_neg (by rw [hu]; decide), hk]
  rfl

theorem State.slotPassed_refCount (i : Nat) : (s.slotPassed r slot rest).refCount i = if i = slot then 1 else s.refCount i :=
  refCount_of_refs (t := s.slotPassed r slot rest) rfl i

/-- The two entries that a transfer which passes its slot on answers for. -/
theorem State.completed_requests {v : State} {o : Request} {x : Completion} (hae : a ≠ e) (hva : v.request a = some o) :
    (v.completed e r x).request a = some o ∧ (v.completed e r x).request e = some (r.ended x) :=
  ⟨(completed_request v e r x a).trans ((if_neg hae).trans hva), (completed_request v e r x e).trans (if_pos rfl)⟩

section

variable (hp : s.part ≠ .failed) (h : s.Completes e r) (hplace : r.place = .active) (hkind : r.kind = some .read) (hline : r.line = some k)
  (hdel : r.delivered = some slot) (hhold : r.record.hold = false) (href : s.refCount slot = 1) (hw : s.waiters (k / 4) = [])
  (hu : (s.unit r.key.unit).unwaited) (hs : s.slotWait = a :: rest) (hae : a ≠ e) (hqa : s.request a = some q)
  (hqp : q.place = .parked .slotWait)
include hp h hplace hkind hline hdel hhold href hw hu hs hae hqa hqp

/-- R22: a writer given the slot starts its host transfer into it. -/
theorem State.Completes.passes_to_writer (hj : q.line = some j) : ∃ t, exec (.readTransferComplete e) s = .next t
    ∧ t.slotWait = rest ∧ t.refCount slot = 1 ∧ t.lines = s.lines ∧ t.request a = some { q with place := .active, staging := some slot }
    ∧ t.request e = some (r.ended { status := .success, flags := r.successFlags })
    ∧ t.outbox = .hostRead q.record.buffer.toNat 1024 :: (s.slotPassed r slot rest).outbox := by
  let B := s.slotPassed r slot rest
  let ws : List Work := [.complete e { status := .success, flags := r.successFlags }, .evictCheck k]
  have hBa : (B.setAgenda ws).request a = some q := hqa
  have hBslot : B.refCount slot = 1 := (State.slotPassed_refCount slot).trans (if_pos rfl)
  let o : Request := { q with place := .active, staging := some slot }
  let v : State := { B with table := SMap.set none s.table a (some o), outbox := .hostRead q.record.buffer.toNat 1024 :: B.outbox }
  have hvr := State.request_of_table (t := v) (m := s.table) (e := a) (x := some o) rfl
  have hve : v.request e = some r := (hvr e).trans ((if_neg hae.symm).trans h.held)
  have hgiven : (B.setAgenda ws).slotGiven a slot = v.setAgenda ws :=
    (State.slotGiven_writer hBa hqp hj).trans (State.startWriteTransfer_eq hBa)
  have hexec := h.passes (v := v) (ws := []) hp hplace hkind hline hdel hhold href hu hs hgiven
    ⟨hve, h.undone, h.posts, h.clear, h.settled⟩ hw (.inl rfl)
  obtain ⟨ha, he⟩ := State.completed_requests hae ((hvr a).trans (if_pos rfl))
  exact ⟨_, hexec, rfl, hBslot, rfl, ha, he, rfl⟩

/-- R17, R22: a READ given the slot takes a FREE way with it. -/
theorem State.Completes.passes_to_allocation (hj : q.line = none) (hread : q.kind = some .read) (hmiss : s.lookup q.key = none)
    (hready : (s.unit q.key.unit).state = .ready) (hop : (s.unit q.key.unit).op.isSome)
    (hway : s.leastRecent (s.setOfKey q.key) (fun i => (s.line i).state == .free) = some j)
    (hjline : s.line j = {}) (hjwait : s.waiters (j / 4) = []) : ∃ t, exec (.readTransferComplete e) s = .next t
    ∧ t.slotWait = rest ∧ t.refCount slot = 1
    ∧ t.line j = { state := .filling, key := some q.key, currentSlot := some slot, waitList := [a] } ∧ (∀ i, i ≠ j → t.line i = s.line i)
    ∧ t.request a = some { q with place := .parked .lineWait, line := some j, miss := true, deadline := none }
    ∧ t.request e = some (r.ended { status := .success, flags := r.successFlags })
    ∧ (t.unit q.key.unit).fillQueue = (s.unit q.key.unit).fillQueue ++ [j] ∧ t.outbox = (s.slotPassed r slot rest).outbox := by
  let B := s.slotPassed r slot rest
  let ws : List Work := [.complete e { status := .success, flags := r.successFlags }, .evictCheck k]
  have hBa : (B.setAgenda ws).request a = some q := hqa
  have hneeds : (B.setAgenda ws).needsUnit q = false := by
    rw [State.needsUnit_read hread]
    exact bne_eq_false_iff_eq.2 hready
  have hgiven : (B.setAgenda ws).slotGiven a slot = (B.setAgenda ws).claim a j slot q :=
    (State.slotGiven_allocation hBa hqp hj).trans ((State.toDirectory_miss hBa hmiss (some slot)).trans (State.allocate_given hneeds hway))
  have hclaims := State.claim_claims (s := B.setAgenda ws) (slot := slot) hBa hjline hjwait List.not_mem_nil List.nodup_nil
  rw [← hgiven] at hclaims
  obtain ⟨lines, table, units, d, b, w, heq, hlines, htable, hwork, hunits⟩ := hclaims
  let v : State := { B with
    lines, table, units, dirtyCount := d, pressure := b
    refs := SMap.set 0 B.refs slot 1
    recency := SMap.set [0, 1, 2, 3] s.recency (j / 4) (j % 4 :: (s.order (j / 4)).filter (· != j % 4))
    setWait := SMap.set [] s.setWait (j / 4) [] }
  rw [if_pos hread, if_pos hread] at heq
  have hlineOf (i : Nat) : v.line i = _ := hlines i
  have hunit (i : Nat) : v.unit i = _ := hunits i
  have hva : v.request a = _ := (htable a).trans (if_pos rfl)
  have hve : v.request e = some r := (htable e).trans ((if_neg hae.symm).trans ((if_neg fun h => List.not_mem_nil h.1).trans h.held))
  have hwait : v.waiters (k / 4) = [] := by
    show SMap.get [] (SMap.set [] s.setWait (j / 4) []) (k / 4) = []
    rw [SMap.get_set]
    split
    · rfl
    · exact hw
  have hexec := h.passes (v := v) (ws := w) hp hplace hkind hline hdel hhold href hu hs heq
    ⟨hve, h.undone, h.posts, h.clear, h.settled⟩ hwait (hwork.imp_right fun h => ⟨_, h, by rw [hunit]; split <;> exact hop⟩)
  obtain ⟨ha, he⟩ := State.completed_requests hae hva
  refine ⟨_, hexec, rfl, ?_, ?_, fun i hi => ?_, ?_, he, ?_, rfl⟩
  · exact (State.refCount_of_refs (t := v) (m := B.refs) (k := slot) (x := 1) rfl slot).trans (if_pos rfl)
  · refine (hlineOf j).trans ((if_pos rfl).trans ?_)
    rw [Request.newLine, if_pos hread]
    rfl
  · exact (hlineOf i).trans (if_neg hi)
  · rw [ha, Request.claimed, if_pos hread]
  · refine (congrArg UnitRec.fillQueue (hunit q.key.unit)).trans ?_
    rw [if_pos ⟨rfl, hread⟩]
    rfl

/-- R22: a READ given the slot whose key a line holds by now goes to that line and drops the slot. -/
theorem State.Completes.passes_to_hit (hj : q.line = none) (hread : q.kind = some .read) (hhit : s.lookup q.key = some j)
    (hfilling : (s.line j).state ≠ .filling) (hloading : (s.line j).state ≠ .loading) (hjlist : (s.line j).waitList = [])
    (hjslot : (s.line j).currentSlot = some other) (hother : other ≠ slot) (hrest : rest = []) : ∃ t, exec (.readTransferComplete e) s = .next t
    ∧ t.slotWait = [] ∧ t.refCount slot = 0 ∧ t.refCount other = s.refCount other + 1 ∧ t.lines = s.lines
    ∧ t.request e = some (r.ended { status := .success, flags := r.successFlags })
    ∧ t.request a = some { q with place := .active, line := some j, delivered := some other, captured := some (s.line j).mark }
    ∧ t.outbox = (s.slotPassed r slot rest).outbox := by
  let B := s.slotPassed r slot rest
  let ws : List Work := [.complete e { status := .success, flags := r.successFlags }, .evictCheck k]
  have hBa : (B.setAgenda ws).request a = some q := hqa
  have hBslot : B.refCount slot = 1 := (State.slotPassed_refCount slot).trans (if_pos rfl)
  let o : Request := { q with place := .active, line := some j, delivered := some other, captured := some (s.line j).mark }
  let v : State := { B with
    refs := SMap.set 0 (SMap.set 0 B.refs other (B.refCount other + 1)) slot 0
    table := SMap.set none s.table a (some o)
    recency := SMap.set [0, 1, 2, 3] s.recency (j / 4) (j % 4 :: (s.order (j / 4)).filter (· != j % 4)) }
  have hvr := State.request_of_table (t := v) (m := s.table) (e := a) (x := some o) rfl
  have hve : v.request e = some r := (hvr e).trans ((if_neg hae.symm).trans h.held)
  have hBother : B.refCount other = s.refCount other := (State.slotPassed_refCount other).trans (if_neg hother)
  have hcount (i : Nat) : v.refCount i = if i = slot then 0 else if i = other then B.refCount other + 1 else B.refCount i := by
    rw [State.refCount_of_refs (t := v) (m := SMap.set 0 B.refs other (B.refCount other + 1)) (k := slot) (x := 0) rfl i, SMap.get_set]
    rfl
  have hgiven : (B.setAgenda ws).slotGiven a slot = v.setAgenda ws := by
    let E : State := { B with
      refs := SMap.set 0 B.refs other (B.refCount other + 1), table := SMap.set none s.table a (some o), recency := v.recency, agenda := ws }
    have harrive : (B.setAgenda ws).arrive a j = E :=
      (State.arrive_read hBa hread (LineState.loadsData_eq_false hfilling hloading) hjlist).trans (State.startRead_eq hBa hjslot)
    have hEslot : SMap.get 0 E.refs slot = 1 :=
      (State.refCount_of_refs (t := E) (x := B.refCount other + 1) rfl slot).trans ((if_neg hother.symm).trans hBslot)
    rw [State.slotGiven_allocation hBa hqp hj, State.toDirectory, hBa]
    dsimp only
    rw [show (B.setAgenda ws).lookup q.key = some j from hhit]
    dsimp only
    rw [harrive, State.dropSlot_eq (t := E) hrest, refsWithout, hEslot]
    rfl
  have hexec := h.passes (v := v) (ws := []) hp hplace hkind hline hdel hhold href hu hs hgiven
    ⟨hve, h.undone, h.posts, h.clear, h.settled⟩ hw (.inl rfl)
  obtain ⟨ha, he⟩ := State.completed_requests hae ((hvr a).trans (if_pos rfl))
  refine ⟨_, hexec, hrest, (hcount slot).trans (if_pos rfl), ?_, rfl, he, ha, rfl⟩
  exact (hcount other).trans ((if_neg hother).trans ((if_pos rfl).trans (by rw [hBother])))

end

end Sys2Proof.Machine

namespace Sys2Proof.Proofs

open Sys2Proof Sys2Proof.Machine

/-- Settles O24: the line or the slot set free goes to the head of the list, and the step then ends as it would have. -/
theorem waitersGoOnWhenAWayOrASlotFrees : Obligations.WaitersGoOnWhenAWayOrASlotFrees := by
  refine ⟨?_, ?_⟩
  · intro s c e k slot a rest q tag unit surface track sector i record ln same h hv hlook hclean hholders hlist hep hwriter hslot href hord hfree hev
      hwait hnodup hqa hset hop hready
    obtain ⟨heNot, hnodup'⟩ := List.nodup_cons.1 hnodup
    obtain ⟨haNot, -⟩ := List.nodup_cons.1 hnodup'
    have hae : a ≠ e := fun h => heNot (h ▸ List.mem_cons_self)
    let t := s.emptied c e k record
    have hta : t.agenda = [] := h.settled
    have htr (j : Nat) : t.request j = _ := State.emptied_request record j
    have htl (j : Nat) : t.line j = _ := State.emptied_line record j
    have htk : t.line k = { ln with holders := [] } := (htl k).trans (if_pos rfl)
    have hroute : (s.placed c e (s.newRequest c record)).route e (s.newRequest c record) .release = t.setAgenda [.evictCheck k] :=
      h.release_last (by simp [record, releaseRecord, Record.episodeValid, flagByte]) hlook hholders hep hwriter (by rw [hwait]; nofun)
    have hway (w : Nat) (hw : w ∈ t.order (k / 4)) (hne : lineAt (k / 4) w ≠ k) :
        (t.line (lineAt (k / 4) w)).state ≠ .free ∧ t.evictable (lineAt (k / 4) w) = false := by
      have hsame : t.line (lineAt (k / 4) w) = s.line (lineAt (k / 4) w) := (htl _).trans (if_neg hne)
      have hfreeW := State.leastRecent_eq_none.1 hfree w hw
      have hevW := State.leastRecent_eq_none.1 hev w hw
      rw [State.evictable_congr hsame rfl, hsame]
      exact ⟨beq_eq_false_iff_ne.1 hfreeW, hevW⟩
    have hsole : t.Sole k slot :=
      ⟨State.evictable_of (by rw [htk]; exact hclean) (by rw [htk]) (by rw [htk]; exact hlist) (by rw [htk]; exact hep)
        (by rw [htk]; exact hwriter) (by rw [htk]; exact hslot) href, hord, by rw [htk]; exact hslot, href, hway⟩
    have hkept (j : Nat) (hj : j ∈ a :: rest) : t.request j = s.request j :=
      (htr j).trans (if_neg fun hje : j = e => heNot (hje ▸ hj))
    obtain ⟨v, hclaims, hfinish⟩ := hsole.finish (a := a) (rest := rest) (q := q) hwait ((hkept a List.mem_cons_self).trans hqa) hset hop hnodup' hta
      fun j hj => by
        obtain ⟨y, hy, hkind, hunit⟩ := hready j hj
        refine ⟨y, (hkept j hj).trans hy, ?_⟩
        rcases hkind with hkind | hkind
        · rw [State.needsUnit_read hkind]
          exact bne_eq_false_iff_eq.2 hunit
        · exact State.needsUnit_write hkind
    have hexec : exec i s = .next (v.setAgenda []) := by
      show Host.Outcome.next (s.fetchReturns record) = _
      rw [h.routed hv (k := .release) rfl, hroute, hfinish]
    obtain ⟨hline, hlines, htable, hwaiters, hcount, hout⟩ := hclaims.spec_freed
    have hsame (j : Nat) (hj : j ∈ rest) : (t.request j).any (fun y => y.key == q.key) = same j := by
      rw [hkept j (List.mem_cons_of_mem a hj)]
    have hmovers : rest.filter (fun j => (t.request j).any (fun y => y.key == q.key)) = rest.filter same := List.filter_congr hsame
    have hothers : rest.filter (fun j => !(t.request j).any (fun y => y.key == q.key)) = rest.filter (fun j => !same j) :=
      List.filter_congr fun j hj => by rw [hsame j hj]
    refine ⟨v.setAgenda [], hexec, ?_, fun j hj => ?_, hwaiters.trans hothers, ?_, fun j hj y hy => ?_, hcount, ?_, hout⟩
    · refine hline.trans ?_
      rw [hmovers, Request.newLine]
      by_cases hk : q.kind = some .read
      · rw [if_pos hk, if_pos hk]
        rfl
      · rw [if_neg hk, if_neg hk]
        rfl
    · exact (hlines j hj).trans ((htl j).trans (if_neg hj))
    · exact (htable a).trans (if_pos rfl)
    · have hja : j ≠ a := fun hja => haNot (hja ▸ hj)
      refine (htable j).trans ((if_neg hja).trans ?_)
      have hreq : t.request j = some y := (hkept j (List.mem_cons_of_mem a hj)).trans hy
      rw [hsame j hj, hreq]
      by_cases hs : same j = true
      · rw [if_pos ⟨hj, hs⟩, if_pos hs]
        rfl
      · rw [if_neg fun h => hs h.2, if_neg hs]
    · refine (htable e).trans ((if_neg hae.symm).trans ((if_neg fun h => heNot (List.mem_cons_of_mem a h.1)).trans ?_))
      exact (htr e).trans (if_pos rfl)
  · intro s e k slot a rest r q hp h hplace hkind hline hdel hhold href hw hu hs hae hqa hqp sent ended
    have hpart : s.part ≠ .failed := by rw [hp]; decide
    exact ⟨fun j hj => h.passes_to_writer hpart hplace hkind hline hdel hhold href hw hu hs hae hqa hqp hj,
      fun j hj hread hmiss hready hop hway _ hjline hjwait _ =>
        h.passes_to_allocation hpart hplace hkind hline hdel hhold href hw hu hs hae hqa hqp hj hread hmiss hready hop hway hjline hjwait,
      fun j other hj hread hhit hfilling hloading hjlist hjslot hother hrest =>
        h.passes_to_hit hpart hplace hkind hline hdel hhold href hw hu hs hae hqa hqp hj hread hhit hfilling hloading hjlist hjslot hother hrest⟩

end Sys2Proof.Proofs
end
